-- ==== Sys2Proof/Word.lean ====
section
/-! DEFINITION. The words of the machine and their plainest readings (00_scope R2). -/

namespace Sys2Proof

/-- An element, a general register, a teller register: 32 bits. -/
abbrev Word := BitVec 32

/-- An address, a program counter, a 64-bit register. -/
abbrev Addr := BitVec 64

/-- The smallest addressable unit. -/
abbrev Byte := BitVec 8

/-- One 128-byte line, byte `i` in bits `[8i+7:8i]` (R2). -/
abbrev Line := BitVec 1024

/-- Read as a two's complement number, `s(v)` of 08 R155. -/
abbrev Word.s (v : Word) : Int := v.toInt

/-- Read as an unsigned number, `n(v)` of 08 R155. -/
abbrev Word.n (v : Word) : Nat := v.toNat

end Sys2Proof
end

