-- ==== Sys2Proof/Syntax.lean ====
section
/-! DEFINITION. The instructions and events of spec/opcode_table.json, one constructor per row, with their operands cooked
(05_encoding R97 to R112). -/

namespace Sys2Proof

/-- SATM of the modifier word (R103). -/
inductive SatMode where
  | none | sat | clamp01 | clampSym
  deriving DecidableEq, Repr

/-- RM of the modifier word (R103): the default is RNE. -/
inductive RMode where
  | rne | rtz | rdn | rup
  deriving DecidableEq, Repr

/-- The modifier word (R103); its bits [19:0] are zero. -/
structure Modifier where
  satm : SatMode
  neg : Bool
  abs : Bool
  scale : BitVec 6
  rm : RMode
  deriving DecidableEq, Repr

/-- The modifier word of all zeros, which M = 0 stands for (R147). -/
def Modifier.zero : Modifier := ⟨.none, false, false, 0, .rne⟩

/-- The B source (R102, R152). -/
inductive BSrc where
  | gpr | elem | lit (v : Word) | dq
  deriving DecidableEq, Repr

/-- WIN of a windowed instruction (R102). -/
inductive Win where
  | lo | hi | all
  deriving DecidableEq, Repr

/-- V, D, X, WIN and XSH (R102): one element with its source, or a window with "element j xor 16" or the same element. -/
inductive Dst where
  | one (d x : BitVec 5)
  | win (wn : Win) (swap : Bool)
  deriving DecidableEq, Repr

/-- The operands of an E-class instruction (R101, R102). -/
structure EFields where
  mods : Option Modifier
  g : BitVec 6
  w : BitVec 3
  b : BSrc
  dst : Dst
  deriving DecidableEq, Repr

/-- The operands of `vote`, whose X names the variant (R102, R189). -/
structure VoteFields where
  g : BitVec 6
  w : BitVec 3
  b : BSrc
  d : BitVec 5
  deriving DecidableEq, Repr

/-- The scope of an access (R104, R321). -/
inductive Scope where
  | grp | dev | sys
  deriving DecidableEq, Repr

/-- The order of an access (R104, R233). -/
inductive Order where
  | relaxed | acquire | release | acqRel
  deriving DecidableEq, Repr

/-- The cache hint of an access (R104, R205). -/
inductive Hint where
  | normal | stream | keep
  deriving DecidableEq, Repr

/-- The address word (R104). -/
structure AddrWord where
  scope : Scope
  order : Order
  hint : Hint
  off : BitVec 26
  deriving DecidableEq, Repr

/-- The address word of all zeros, which M = 0 stands for (R104). -/
def AddrWord.zero : AddrWord := ⟨.grp, .relaxed, .normal, 0⟩

/-- The operands of a load, store, prefetch or write-back (R105). -/
structure MemFields where
  addr : Option AddrWord
  g : BitVec 6
  w : BitVec 3
  seg : BitVec 3
  win : BitVec 2
  d : BitVec 5
  deriving DecidableEq, Repr

/-- The operands of an atomic, reduction or compare-and-swap (R105); AOP is the constructor's. -/
structure AtomFields where
  addr : Option AddrWord
  g : BitVec 6
  w : BitVec 3
  seg : BitVec 3
  d : BitVec 5
  deriving DecidableEq, Repr

/-- A group, named by its launch's acceptance number, its column index and its stage (R8, R12). -/
structure GroupId where
  launch : Nat
  col : Nat
  stage : Nat
  deriving DecidableEq, Repr

/-- A column (R12): the groups of all stages at one coordinate. -/
structure ColId where
  launch : Nat
  col : Nat
  deriving DecidableEq, Repr

/-- A cached line's tag (R212): VA[56:7], and the ASID unless the page is global. -/
structure LineKey where
  line : Nat
  asid : Option Nat
  deriving DecidableEq, Repr

/-- Why a column is stopped (R378 REASON). -/
inductive StopReason where
  | preempt | switchOut | trap | quiesce
  deriving DecidableEq, Repr

/-- The integer operations of the atomics (R237). -/
inductive AtomOp where
  | add | and | or | xor | mins | maxs | minn | maxn | xchg
  deriving DecidableEq, Repr

/-- What another chip asks of this one (R213, R236); the float operations are add 0, min 1, max 2 (R238). -/
inductive RemoteKind where
  | load (n : Nat)
  | store (data : List Byte)
  | atom (op : AtomOp) (v : Word)
  | float (op : BitVec 2) (v : Word)
  | cas (expected new : Nat) (bytes : Nat)
  deriving DecidableEq, Repr

/-- A request that arrives from another chip, carrying its VA and ASID (R213). -/
structure RemoteReq where
  chip : Nat
  va : BitVec 64
  asid : Nat
  kind : RemoteKind
  deriving DecidableEq, Repr

/-- One member's part of a collective as it travels (R315). -/
structure Contribution where
  comm : Nat
  seq : Nat
  rank : Nat
  op : BitVec 2
  dtype : BitVec 2
  len : Nat
  root : Nat
  data : List Byte
  deriving DecidableEq, Repr

/-- What a Nimbus flit carries (R414): part of a request, a collective, or a message of the freeze and quiesce protocols (R346, R347, R349,
R384). A `frz` goes to the coordinator with its number at its chip, and its answer comes back with a cause, or with cause 0 and the freeze
id; `frzEntry` is the coordinator's entry as it now stands, STATE 0 once it is freed; `frzAck` says that a chip has done what a STATE asks;
a thaw lowers a count by one, or to 0; `answer` is what a request found, or that it faulted (R213). -/
inductive PeerMsg where
  | request (r : RemoteReq)
  | collective (c : Contribution)
  | freeze (chip num asid vpn pages : Nat)
  | frzAnswer (num cause id : Nat)
  | frzEntry (id asid vpn pages count st origin : Nat)
  | frzAck (id chip st : Nat)
  | thaw (asid id : Nat) (all : Bool)
  | phase1 (chip : Nat)
  | answer (data : Option (List Byte))
  deriving DecidableEq, Repr

/-- A flit: its link, hash lane, the sender's sequence number, whether its CRC is good, the STOP bits of its header, one a lane, and the
message that it ends, if it ends one (R414). -/
structure Flit where
  link : Nat
  lane : Nat
  seq : Nat
  crcOk : Bool
  stops : BitVec 8
  msg : Option PeerMsg
  deriving DecidableEq, Repr

/-- The page a register access reaches (R408): BAR0, or the control page or launch window of a context. -/
inductive RegPage where
  | bar0
  | control (ctx : Nat)
  | window (ctx : Nat)
  deriving DecidableEq, Repr

/-- Every row of spec/opcode_table.json: the strand instructions in long and short form, the teller instructions, and the
device's operations and events, each one indivisible step (95_what_each_step_holds). -/
inductive Instr where
  /-- ADD (R155): Integer add of B to e[D], modulo 2^32 or saturating under SATM. -/
  | add (f : EFields)
  /-- SUB (R155): Integer subtract B from e[D]. -/
  | sub (f : EFields)
  /-- RSUB (R155): Reverse subtract: e[D] := B − e[D]. -/
  | rsub (f : EFields)
  /-- MUL (R155): Low 32 bits of e[D] × B. -/
  | mul (f : EFields)
  /-- MULHS (R155): High 32 bits of the signed product. -/
  | mulhs (f : EFields)
  /-- MULHN (R155): High 32 bits of the unsigned product. -/
  | mulhn (f : EFields)
  /-- MAD (R155): Integer multiply-accumulate e[D] + e[X] × B. -/
  | mad (f : EFields)
  /-- MINS (R155): Signed minimum of e[D] and B. -/
  | mins (f : EFields)
  /-- MAXS (R155): Signed maximum of e[D] and B. -/
  | maxs (f : EFields)
  /-- MINN (R155): Unsigned minimum of e[D] and B. -/
  | minn (f : EFields)
  /-- MAXN (R155): Unsigned maximum of e[D] and B. -/
  | maxn (f : EFields)
  /-- AND (R155): Bitwise and of e[D] and B. -/
  | and (f : EFields)
  /-- OR (R155): Bitwise or of e[D] and B. -/
  | or (f : EFields)
  /-- XOR (R155): Bitwise xor of e[D] and B. -/
  | xor (f : EFields)
  /-- ANDN (R155): e[D] and not B. -/
  | andn (f : EFields)
  /-- SHL (R155): Shift e[D] left by B[4:0]. -/
  | shl (f : EFields)
  /-- SHRN (R155): Logical shift right by B[4:0]. -/
  | shrn (f : EFields)
  /-- SHRS (R155): Arithmetic shift right by B[4:0]. -/
  | shrs (f : EFields)
  /-- ROL (R155): Rotate e[D] left by B[4:0]. -/
  | rol (f : EFields)
  /-- POPC (R155): Population count of B. -/
  | popc (f : EFields)
  /-- CLZ (R155): Leading zeros of B, 32 for zero. -/
  | clz (f : EFields)
  /-- BREV (R155): Bit-reverse B. -/
  | brev (f : EFields)
  /-- BFXS (R156): Signed bit-field extract from e[D]. -/
  | bfxs (f : EFields)
  /-- BFXN (R156): Unsigned bit-field extract from e[D]. -/
  | bfxn (f : EFields)
  /-- BFI (R156): Insert a field of e[X] into e[D]. -/
  | bfi (f : EFields)
  /-- LEA (R155): e[D] := e[X] + 4 × B. -/
  | lea (f : EFields)
  /-- CEQ (R155): 1 when e[D] equals B. -/
  | ceq (f : EFields)
  /-- CNE (R155): 1 when e[D] differs from B. -/
  | cne (f : EFields)
  /-- CLTS (R155): 1 when e[D] < B signed. -/
  | clts (f : EFields)
  /-- CLES (R155): 1 when e[D] ≤ B signed. -/
  | cles (f : EFields)
  /-- CLTN (R155): 1 when e[D] < B unsigned. -/
  | cltn (f : EFields)
  /-- CLEN (R155): 1 when e[D] ≤ B unsigned. -/
  | clen (f : EFields)
  /-- FADD (R158): FP32 add through form_result. -/
  | fadd (f : EFields)
  /-- FSUB (R158): FP32 subtract. -/
  | fsub (f : EFields)
  /-- FMUL (R158): FP32 multiply. -/
  | fmul (f : EFields)
  /-- FFMA (R158): Fused e[D] + e[X] × B, one rounding. -/
  | ffma (f : EFields)
  /-- FFMS (R158): Fused e[D] − e[X] × B. -/
  | ffms (f : EFields)
  /-- FNMA (R158): Fused e[X] × B − e[D]. -/
  | fnma (f : EFields)
  /-- FMIN (R160): FP32 minimum, NaN if either is NaN. -/
  | fmin (f : EFields)
  /-- FMAX (R160): FP32 maximum, NaN if either is NaN. -/
  | fmax (f : EFields)
  /-- FMINNM (R160): FP32 minimum ignoring a single NaN. -/
  | fminnm (f : EFields)
  /-- FMAXNM (R160): FP32 maximum ignoring a single NaN. -/
  | fmaxnm (f : EFields)
  /-- FCEQ (R161): 1 when FP32 values are equal. -/
  | fceq (f : EFields)
  /-- FCLT (R161): 1 when e[D] < B as FP32. -/
  | fclt (f : EFields)
  /-- FCLE (R161): 1 when e[D] ≤ B as FP32. -/
  | fcle (f : EFields)
  /-- FCUN (R161): 1 when either operand is NaN. -/
  | fcun (f : EFields)
  /-- FSEL (R161): Select B when e[X] is non-zero, else keep e[D]. -/
  | fsel (f : EFields)
  /-- FCPSGN (R161): Copy the sign of B into e[D]. -/
  | fcpsgn (f : EFields)
  /-- FFLOOR (R162): Round B toward −∞ to an integral FP32. -/
  | ffloor (f : EFields)
  /-- FCEIL (R162): Round B toward +∞. -/
  | fceil (f : EFields)
  /-- FTRUNC (R162): Round B toward zero. -/
  | ftrunc (f : EFields)
  /-- FRND (R162): Round B to integral in mode RM. -/
  | frnd (f : EFields)
  /-- FSACC (R158): e[D] + e[X] × 2^B, block-scale step. -/
  | fsacc (f : EFields)
  /-- HADD2 (R163): Packed FP16 pair add. -/
  | hadd2 (f : EFields)
  /-- HMUL2 (R163): Packed FP16 pair multiply. -/
  | hmul2 (f : EFields)
  /-- HFMA2 (R163): Packed FP16 pair fused multiply-add. -/
  | hfma2 (f : EFields)
  /-- BADD2 (R163): Packed BF16 pair add. -/
  | badd2 (f : EFields)
  /-- BMUL2 (R163): Packed BF16 pair multiply. -/
  | bmul2 (f : EFields)
  /-- BFMA2 (R163): Packed BF16 pair fused multiply-add. -/
  | bfma2 (f : EFields)
  /-- CVT_F32_S32 (R164): Convert signed integer to FP32. -/
  | cvtF32S32 (f : EFields)
  /-- CVT_F32_N32 (R164): Convert unsigned integer to FP32. -/
  | cvtF32N32 (f : EFields)
  /-- CVT_S32_F32 (R165): Convert FP32 to s32, saturating. -/
  | cvtS32F32 (f : EFields)
  /-- CVT_N32_F32 (R165): Convert FP32 to n32, saturating. -/
  | cvtN32F32 (f : EFields)
  /-- CVT_F32_F16 (R164): Widen FP16 to FP32. -/
  | cvtF32F16 (f : EFields)
  /-- CVT_F16_F32 (R164): Narrow FP32 to FP16. -/
  | cvtF16F32 (f : EFields)
  /-- CVT_F32_BF16 (R164): Widen BF16 to FP32. -/
  | cvtF32Bf16 (f : EFields)
  /-- CVT_BF16_F32 (R164): Narrow FP32 to BF16. -/
  | cvtBf16F32 (f : EFields)
  /-- CVT_F32_E4M3 (R164): Widen E4M3 to FP32. -/
  | cvtF32E4m3 (f : EFields)
  /-- CVT_E4M3_F32 (R164): Narrow FP32 to E4M3. -/
  | cvtE4m3F32 (f : EFields)
  /-- CVT_F32_E5M2 (R164): Widen E5M2 to FP32. -/
  | cvtF32E5m2 (f : EFields)
  /-- CVT_E5M2_F32 (R164): Narrow FP32 to E5M2. -/
  | cvtE5m2F32 (f : EFields)
  /-- CVT_F32_NF (R166): Decode a code of format register nfK to FP32. -/
  | cvtF32Nf (f : EFields)
  /-- CVT_NF_F32 (R166): Round FP32 to a code of nfK. -/
  | cvtNfF32 (f : EFields)
  /-- PACK4 (R167): Shift in one E2M1 code converted from B. -/
  | pack4 (f : EFields)
  /-- UNPK4 (R167): Unpack one E2M1 container of e[X] to FP32. -/
  | unpk4 (f : EFields)
  /-- RCPSD (R171): Reciprocal seed to 9 bits. -/
  | rcpsd (f : EFields)
  /-- RSQSD (R171): Reciprocal square-root seed to 9 bits. -/
  | rsqsd (f : EFields)
  /-- RCP (R168): Interpolated reciprocal. -/
  | rcp (f : EFields)
  /-- RSQ (R168): Interpolated reciprocal square root. -/
  | rsq (f : EFields)
  /-- EX2 (R168): Interpolated 2^B. -/
  | ex2 (f : EFields)
  /-- LG2 (R168): Interpolated log2 B. -/
  | lg2 (f : EFields)
  /-- SINPI (R168): Interpolated sin(πB). -/
  | sinpi (f : EFields)
  /-- COSPI (R168): Interpolated cos(πB). -/
  | cospi (f : EFields)
  /-- TANH (R168): Interpolated tanh B. -/
  | tanh (f : EFields)
  /-- SIGM (R168): Interpolated logistic sigmoid. -/
  | sigm (f : EFields)
  /-- RMAX (R175): Maximum over a window written to every element of WIN. -/
  | rmax (f : EFields)
  /-- RSUM (R175): Tree sum over a window written to every element of WIN. -/
  | rsum (f : EFields)
  /-- CMAX (R190): Crew maximum over the 16 lanes. -/
  | cmax (f : EFields)
  /-- CSUM (R190): Crew tree sum over the 16 lanes. -/
  | csum (f : EFields)
  /-- MSKR (R176): Mask window elements to −FLT_MAX by B, setting AM if all masked. -/
  | mskr (f : EFields)
  /-- EX2M (R177): 2^(e[D] − B), forced +0 when AM is set. -/
  | ex2m (f : EFields)
  /-- MOV (R180): Copy B into e[D] or a window. -/
  | mov (f : EFields)
  /-- MOVW (R180): Index or rotate accumulator elements. -/
  | movw (f : EFields)
  /-- PUT (R181): Write e[D] to general register G with coins or sticky. -/
  | put (g : BitVec 6) (w : BitVec 3) (d : BitVec 5) (k : BitVec 3)
  /-- DROP (R182): Clear general register G at once. -/
  | drop (g : BitVec 6) (w : BitVec 3)
  /-- BCAST (R180): Copy element B[4:0] to every element of the window. -/
  | bcast (f : EFields)
  /-- IOTA (R180): Write B + index into elements. -/
  | iota (f : EFields)
  /-- CLR (R180): Zero an element or a window. -/
  | clr (f : EFields)
  /-- PERM (R188): Fetch an element from crew lane B[3:0]. -/
  | perm (f : EFields)
  /-- SHFX (R188): Fetch from lane l xor B[3:0]. -/
  | shfx (f : EFields)
  /-- SHUP (R188): Fetch from lane l − B. -/
  | shup (f : EFields)
  /-- SHDN (R188): Fetch from lane l + B. -/
  | shdn (f : EFields)
  /-- VOTE_ANY (R189): 1 when any crew lane votes true. -/
  | voteAny (f : VoteFields)
  /-- VOTE_ALL (R189): 1 when all 16 lanes vote true. -/
  | voteAll (f : VoteFields)
  /-- VOTE_BALLOT (R189): Bit mask of true-voting lanes. -/
  | voteBallot (f : VoteFields)
  /-- SREAD (R183): Read special register X into e[D]. -/
  | sread (w : BitVec 3) (d : BitVec 5) (x : BitVec 5)
  /-- LEND (R186): Lend the strand's accumulator to the matrix engine. -/
  | lend (w : BitVec 3)
  /-- LD_B8S (R230): Load a byte sign-extended. -/
  | ldB8s (f : MemFields)
  /-- LD_B8Z (R230): Load a byte zero-extended. -/
  | ldB8z (f : MemFields)
  /-- LD_B16S (R230): Load a half sign-extended. -/
  | ldB16s (f : MemFields)
  /-- LD_B16Z (R230): Load a half zero-extended. -/
  | ldB16z (f : MemFields)
  /-- LD_B32 (R230): Load a word into e[D]. -/
  | ldB32 (f : MemFields)
  /-- LD_B64 (R230): Load 8 bytes into e[D], e[D+1]. -/
  | ldB64 (f : MemFields)
  /-- LD_V16 (R230): Load 16 words into a half window. -/
  | ldV16 (f : MemFields)
  /-- LD_V32 (R230): Load 32 words into e0–e31. -/
  | ldV32 (f : MemFields)
  /-- LD_BF16V (R231): Load BF16 codes widened to FP32. -/
  | ldBf16v (f : MemFields)
  /-- LD_NFV (R231): Load nfK codes widened to FP32. -/
  | ldNfv (f : MemFields)
  /-- PF (R234): Prefetch a line into L2 and L1. -/
  | pf (f : MemFields)
  /-- PF_L2 (R234): Prefetch a line into L2 only. -/
  | pfL2 (f : MemFields)
  /-- ST_B8 (R230): Store the low byte of e[D]. -/
  | stB8 (f : MemFields)
  /-- ST_B16 (R230): Store the low half of e[D]. -/
  | stB16 (f : MemFields)
  /-- ST_B32 (R230): Store e[D]. -/
  | stB32 (f : MemFields)
  /-- ST_B64 (R230): Store e[D]:e[D+1]. -/
  | stB64 (f : MemFields)
  /-- ST_V16 (R230): Store a half window. -/
  | stV16 (f : MemFields)
  /-- ST_V32 (R230): Store e0–e31. -/
  | stV32 (f : MemFields)
  /-- ST_BF16V (R231): Store a window narrowed to BF16. -/
  | stBf16v (f : MemFields)
  /-- ST_NFV (R231): Store a window narrowed to nfK. -/
  | stNfv (f : MemFields)
  /-- ATOM_ADD (R237): Atomic add returning the old word. -/
  | atomAdd (f : AtomFields)
  /-- ATOM_AND (R237): Atomic and returning the old word. -/
  | atomAnd (f : AtomFields)
  /-- ATOM_OR (R237): Atomic or returning the old word. -/
  | atomOr (f : AtomFields)
  /-- ATOM_XOR (R237): Atomic xor returning the old word. -/
  | atomXor (f : AtomFields)
  /-- ATOM_MINS (R237): Atomic signed minimum. -/
  | atomMins (f : AtomFields)
  /-- ATOM_MAXS (R237): Atomic signed maximum. -/
  | atomMaxs (f : AtomFields)
  /-- ATOM_MINN (R237): Atomic unsigned minimum. -/
  | atomMinn (f : AtomFields)
  /-- ATOM_MAXN (R237): Atomic unsigned maximum. -/
  | atomMaxn (f : AtomFields)
  /-- ATOM_XCHG (R237): Atomic exchange. -/
  | atomXchg (f : AtomFields)
  /-- ATOMF_ADD (R238): Atomic FP32 add returning the old pattern. -/
  | atomfAdd (f : AtomFields)
  /-- ATOMF_MIN (R238): Atomic FP32 minimum. -/
  | atomfMin (f : AtomFields)
  /-- ATOMF_MAX (R238): Atomic FP32 maximum. -/
  | atomfMax (f : AtomFields)
  /-- CAS (R240): 32-bit compare-and-swap. -/
  | cas (f : AtomFields)
  /-- CAS64 (R240): 64-bit compare-and-swap. -/
  | cas64 (f : AtomFields)
  /-- RED_ADD (R237): Reduction add, no return. -/
  | redAdd (f : AtomFields)
  /-- RED_AND (R237): Reduction and. -/
  | redAnd (f : AtomFields)
  /-- RED_OR (R237): Reduction or. -/
  | redOr (f : AtomFields)
  /-- RED_XOR (R237): Reduction xor. -/
  | redXor (f : AtomFields)
  /-- RED_MINS (R237): Reduction signed minimum. -/
  | redMins (f : AtomFields)
  /-- RED_MAXS (R237): Reduction signed maximum. -/
  | redMaxs (f : AtomFields)
  /-- RED_MINN (R237): Reduction unsigned minimum. -/
  | redMinn (f : AtomFields)
  /-- RED_MAXN (R237): Reduction unsigned maximum. -/
  | redMaxn (f : AtomFields)
  /-- REDF_ADD (R238): FP32 reduction add. -/
  | redfAdd (f : AtomFields)
  /-- REDF_MIN (R238): FP32 reduction minimum. -/
  | redfMin (f : AtomFields)
  /-- REDF_MAX (R238): FP32 reduction maximum. -/
  | redfMax (f : AtomFields)
  /-- REDF_ORD (R239): Fixed-order FP32 add, logged under FIXED_ORDER. -/
  | redfOrd (f : AtomFields)
  /-- FENCE_GRP (R241): Wait until prior accesses are performed at group scope. -/
  | fenceGrp (w : BitVec 3)
  /-- FENCE_DEV (R241): Wait until prior accesses are performed at device scope. -/
  | fenceDev (w : BitVec 3)
  /-- FENCE_SYS (R241): Wait until prior accesses are performed at system scope. -/
  | fenceSys (w : BitVec 3)
  /-- CWB (R235): Write back a dirty L1 line to its home. -/
  | cwb (f : MemFields)
  /-- BRA (R192): Unconditional branch by a 13-bit parcel offset. -/
  | bra (w : BitVec 3) (o : BitVec 13)
  /-- BRA_LONG (R106): Unconditional branch with a 32-bit literal offset. -/
  | braLong (w : BitVec 3) (o : BitVec 32)
  /-- BZ (R192): Branch when general register g is zero. -/
  | bz (g : BitVec 6) (w : BitVec 3) (o : BitVec 13)
  /-- BZ_LONG (R106): bz with a literal offset. -/
  | bzLong (g : BitVec 6) (w : BitVec 3) (o : BitVec 32)
  /-- BNZ (R192): Branch when g is non-zero. -/
  | bnz (g : BitVec 6) (w : BitVec 3) (o : BitVec 13)
  /-- BNZ_LONG (R106): bnz with a literal offset. -/
  | bnzLong (g : BitVec 6) (w : BitVec 3) (o : BitVec 32)
  /-- BEZ (R192): Branch when element e[g[4:0]] is zero. -/
  | bez (g : BitVec 6) (w : BitVec 3) (o : BitVec 13)
  /-- BEZ_LONG (R106): bez with a literal offset. -/
  | bezLong (g : BitVec 6) (w : BitVec 3) (o : BitVec 32)
  /-- BENZ (R192): Branch when element e[g[4:0]] is non-zero. -/
  | benz (g : BitVec 6) (w : BitVec 3) (o : BitVec 13)
  /-- BENZ_LONG (R106): benz with a literal offset. -/
  | benzLong (g : BitVec 6) (w : BitVec 3) (o : BitVec 32)
  /-- CALL (R193): Push the return address and jump. -/
  | call (w : BitVec 3) (o : BitVec 13)
  /-- CALL_LONG (R106): call with a literal offset. -/
  | callLong (w : BitVec 3) (o : BitVec 32)
  /-- CALLX (R193): Push the return address and jump to the 64-bit target in e[D]:e[D+1]. -/
  | callx (w : BitVec 3) (d : BitVec 5)
  /-- RET (R193): Pop the return stack and jump. -/
  | ret (w : BitVec 3)
  /-- BLK (R194): Block-entry hold point for reconvergence. -/
  | blk (w : BitVec 3)
  /-- END (R195): Finish the strand. -/
  | strandEnd (w : BitVec 3)
  /-- EXIT (R196): Finish every strand of the thread with status e[D]. -/
  | exit (w : BitVec 3) (d : BitVec 5)
  /-- TRAP (R197): Software trap stopping the group precisely. -/
  | trap (w : BitVec 3) (c : BitVec 13)
  /-- BRK (R197): Breakpoint trap, or core stop under BRKSTOP. -/
  | brk (w : BitVec 3) (c : BitVec 13)
  /-- BARA (R243): Arrive at a named barrier without waiting. -/
  | bara (w : BitVec 3) (b : BitVec 4) (n : BitVec 9)
  /-- BARW (R243): Wait for the phase of a barrier already arrived at. -/
  | barw (w : BitVec 3) (b : BitVec 4)
  /-- BARS (R243): Arrive at a barrier and wait for the phase to end. -/
  | bars (w : BitVec 3) (b : BitVec 4) (n : BitVec 9)
  /-- BARX (R243): Arrive at a barrier and leave it. -/
  | barx (w : BitVec 3) (b : BitVec 4) (n : BitVec 9)
  /-- SEXP (R247): Add e[D] to a sync word's TARGET, a release. -/
  | sexp (g : BitVec 6) (w : BitVec 3) (d : BitVec 5)
  /-- SARR (R247): Add e[D] to a sync word's COUNT, a release. -/
  | sarr (g : BitVec 6) (w : BitVec 3) (d : BitVec 5)
  /-- SWAIT (R247): Wait until GEN differs from e[D], then read GEN. -/
  | swait (g : BitVec 6) (w : BitVec 3) (d : BitVec 5)
  /-- SWAIT_GE (R247): Wait until GEN is at least e[D], then read GEN. -/
  | swaitGe (g : BitVec 6) (w : BitVec 3) (d : BitVec 5)
  /-- EVPOST (R249): Pulse an event-matrix input per thread after prior accesses. -/
  | evpost (w : BitVec 3) (n : BitVec 4)
  /-- NOP (R198): No effect beyond its stall count. -/
  | nop (w : BitVec 3)
  /-- IFENCE (R199): Wait for prior writes then drop the context's code-store lines. -/
  | ifence (w : BitVec 3)
  /-- STFLAG (R200): Read the sticky flags into e[D]. -/
  | stflag (w : BitVec 3) (d : BitVec 5)
  /-- STFLAG_CLR (R200): Read and clear the sticky flags. -/
  | stflagClr (w : BitVec 3) (d : BitVec 5)
  /-- HINT_YIELD (R201): Decline leadership for 4(D+1) cycles. -/
  | hintYield (w : BitVec 3) (d : BitVec 5)
  /-- HINT_URGENT (R201): Rank as the oldest group for 4(D+1) cycles. -/
  | hintUrgent (w : BitVec 3) (d : BitVec 5)
  /-- S_ADD_G (R100): Short add e0 += gN. -/
  | sAddG (g : BitVec 6) (w : BitVec 3)
  /-- S_SUB_G (R100): Short sub by gN. -/
  | sSubG (g : BitVec 6) (w : BitVec 3)
  /-- S_MUL_G (R100): Short mul by gN. -/
  | sMulG (g : BitVec 6) (w : BitVec 3)
  /-- S_MAD_G (R100): Short mad e0 += e1 × gN. -/
  | sMadG (g : BitVec 6) (w : BitVec 3)
  /-- S_AND_G (R100): Short and with gN. -/
  | sAndG (g : BitVec 6) (w : BitVec 3)
  /-- S_OR_G (R100): Short or with gN. -/
  | sOrG (g : BitVec 6) (w : BitVec 3)
  /-- S_XOR_G (R100): Short xor with gN. -/
  | sXorG (g : BitVec 6) (w : BitVec 3)
  /-- S_SHL_G (R100): Short shl by gN. -/
  | sShlG (g : BitVec 6) (w : BitVec 3)
  /-- S_SHRN_G (R100): Short shrn by gN. -/
  | sShrnG (g : BitVec 6) (w : BitVec 3)
  /-- S_SHRS_G (R100): Short shrs by gN. -/
  | sShrsG (g : BitVec 6) (w : BitVec 3)
  /-- S_MINS_G (R100): Short mins with gN. -/
  | sMinsG (g : BitVec 6) (w : BitVec 3)
  /-- S_MAXS_G (R100): Short maxs with gN. -/
  | sMaxsG (g : BitVec 6) (w : BitVec 3)
  /-- S_CEQ_G (R100): Short ceq with gN. -/
  | sCeqG (g : BitVec 6) (w : BitVec 3)
  /-- S_CLTS_G (R100): Short clts with gN. -/
  | sCltsG (g : BitVec 6) (w : BitVec 3)
  /-- S_CLTN_G (R100): Short cltn with gN. -/
  | sCltnG (g : BitVec 6) (w : BitVec 3)
  /-- S_LEA_G (R100): Short lea with gN. -/
  | sLeaG (g : BitVec 6) (w : BitVec 3)
  /-- S_ADD_IMM (R100): Short add of a 6-bit immediate. -/
  | sAddImm (i : BitVec 6) (w : BitVec 3)
  /-- S_AND_IMM (R100): Short and with an immediate. -/
  | sAndImm (i : BitVec 6) (w : BitVec 3)
  /-- S_SHL_IMM (R100): Short shl by an immediate. -/
  | sShlImm (i : BitVec 6) (w : BitVec 3)
  /-- S_SHRN_IMM (R100): Short shrn by an immediate. -/
  | sShrnImm (i : BitVec 6) (w : BitVec 3)
  /-- S_SHRS_IMM (R100): Short shrs by an immediate. -/
  | sShrsImm (i : BitVec 6) (w : BitVec 3)
  /-- S_CEQ_IMM (R100): Short ceq with an immediate. -/
  | sCeqImm (i : BitVec 6) (w : BitVec 3)
  /-- S_CLTS_IMM (R100): Short clts with an immediate. -/
  | sCltsImm (i : BitVec 6) (w : BitVec 3)
  /-- S_MOV_IMM (R100): Short mov e0 of an immediate. -/
  | sMovImm (i : BitVec 6) (w : BitVec 3)
  /-- S_FADD_G (R100): Short fadd with gN. -/
  | sFaddG (g : BitVec 6) (w : BitVec 3)
  /-- S_FSUB_G (R100): Short fsub with gN. -/
  | sFsubG (g : BitVec 6) (w : BitVec 3)
  /-- S_FMUL_G (R100): Short fmul with gN. -/
  | sFmulG (g : BitVec 6) (w : BitVec 3)
  /-- S_FFMA_G (R100): Short ffma e0 += e1 × gN. -/
  | sFfmaG (g : BitVec 6) (w : BitVec 3)
  /-- S_FFMS_G (R100): Short ffms with gN. -/
  | sFfmsG (g : BitVec 6) (w : BitVec 3)
  /-- S_FMIN_G (R100): Short fmin with gN. -/
  | sFminG (g : BitVec 6) (w : BitVec 3)
  /-- S_FMAX_G (R100): Short fmax with gN. -/
  | sFmaxG (g : BitVec 6) (w : BitVec 3)
  /-- S_FCLT_G (R100): Short fclt with gN. -/
  | sFcltG (g : BitVec 6) (w : BitVec 3)
  /-- S_FCLE_G (R100): Short fcle with gN. -/
  | sFcleG (g : BitVec 6) (w : BitVec 3)
  /-- S_FSACC_G (R100): Short fsacc e0 += e1 × 2^gN. -/
  | sFsaccG (g : BitVec 6) (w : BitVec 3)
  /-- S_MOV_G (R100): Short mov e0 := gN. -/
  | sMovG (g : BitVec 6) (w : BitVec 3)
  /-- S_PUT_1 (R100): Short put of e0 to gN with one coin. -/
  | sPut1 (g : BitVec 6) (w : BitVec 3)
  /-- S_PUT_STICKY (R100): Short put of e0 to gN sticky. -/
  | sPutSticky (g : BitVec 6) (w : BitVec 3)
  /-- S_LD_B32 (R100): Short ld.b32 e0, [gN]. -/
  | sLdB32 (g : BitVec 6) (w : BitVec 3)
  /-- S_ST_B32 (R100): Short st.b32 e0, [gN]. -/
  | sStB32 (g : BitVec 6) (w : BitVec 3)
  /-- S_LD_V16 (R100): Short ld.v16 lo, [gN]. -/
  | sLdV16 (g : BitVec 6) (w : BitVec 3)
  /-- S_ST_V16 (R100): Short st.v16 lo, [gN]. -/
  | sStV16 (g : BitVec 6) (w : BitVec 3)
  /-- S_LD_B64 (R100): Short ld.b64 e0, [gN]. -/
  | sLdB64 (g : BitVec 6) (w : BitVec 3)
  /-- S_ST_B64 (R100): Short st.b64 e0, [gN]. -/
  | sStB64 (g : BitVec 6) (w : BitVec 3)
  /-- S_BRA (R100): Short branch by a 6-bit parcel offset. -/
  | sBra (o : BitVec 6) (w : BitVec 3)
  /-- S_BEZ (R99): Short branch when e0 is zero, reading no register. -/
  | sBez (o : BitVec 6) (w : BitVec 3)
  /-- S_BENZ (R99): Short branch when e0 is non-zero. -/
  | sBenz (o : BitVec 6) (w : BitVec 3)
  /-- S_BLK (R100): Short blk. -/
  | sBlk (w : BitVec 3)
  /-- S_END (R100): Short end. -/
  | sEnd (w : BitVec 3)
  /-- S_NOP (R100): Short nop. -/
  | sNop (w : BitVec 3)
  /-- S_CVT_F32_S32 (R100): Short cvt.f32.s32 of gN. -/
  | sCvtF32S32 (g : BitVec 6) (w : BitVec 3)
  /-- S_CVT_S32_F32 (R100): Short cvt.s32.f32 of gN. -/
  | sCvtS32F32 (g : BitVec 6) (w : BitVec 3)
  /-- S_RSQSD_G (R100): Short rsqsd of gN. -/
  | sRsqsdG (g : BitVec 6) (w : BitVec 3)
  /-- S_RCPSD_G (R100): Short rcpsd of gN. -/
  | sRcpsdG (g : BitVec 6) (w : BitVec 3)
  /-- S_EX2_G (R100): Short ex2 of gN. -/
  | sEx2G (g : BitVec 6) (w : BitVec 3)
  /-- S_DROP (R100): Short drop gN. -/
  | sDrop (g : BitVec 6) (w : BitVec 3)
  /-- S_RET (R100): Short ret. -/
  | sRet (w : BitVec 3)
  /-- TAL_ADD (R258): Teller add. -/
  | talAdd (d : BitVec 6) (a : BitVec 6) (b : BitVec 6)
  /-- TAL_SUB (R258): Teller subtract. -/
  | talSub (d : BitVec 6) (a : BitVec 6) (b : BitVec 6)
  /-- TAL_MUL (R258): Teller multiply, low word. -/
  | talMul (d : BitVec 6) (a : BitVec 6) (b : BitVec 6)
  /-- TAL_MULHS (R258): Teller signed multiply, high word. -/
  | talMulhs (d : BitVec 6) (a : BitVec 6) (b : BitVec 6)
  /-- TAL_AND (R258): Teller and. -/
  | talAnd (d : BitVec 6) (a : BitVec 6) (b : BitVec 6)
  /-- TAL_OR (R258): Teller or. -/
  | talOr (d : BitVec 6) (a : BitVec 6) (b : BitVec 6)
  /-- TAL_XOR (R258): Teller xor. -/
  | talXor (d : BitVec 6) (a : BitVec 6) (b : BitVec 6)
  /-- TAL_SHL (R258): Teller shift left. -/
  | talShl (d : BitVec 6) (a : BitVec 6) (b : BitVec 6)
  /-- TAL_SHRN (R258): Teller logical shift right. -/
  | talShrn (d : BitVec 6) (a : BitVec 6) (b : BitVec 6)
  /-- TAL_SHRS (R258): Teller arithmetic shift right. -/
  | talShrs (d : BitVec 6) (a : BitVec 6) (b : BitVec 6)
  /-- TAL_MINS (R258): Teller signed minimum. -/
  | talMins (d : BitVec 6) (a : BitVec 6) (b : BitVec 6)
  /-- TAL_MAXS (R258): Teller signed maximum. -/
  | talMaxs (d : BitVec 6) (a : BitVec 6) (b : BitVec 6)
  /-- TAL_MINN (R258): Teller unsigned minimum. -/
  | talMinn (d : BitVec 6) (a : BitVec 6) (b : BitVec 6)
  /-- TAL_MAXN (R258): Teller unsigned maximum. -/
  | talMaxn (d : BitVec 6) (a : BitVec 6) (b : BitVec 6)
  /-- TAL_SLT (R258): Teller set if less, signed. -/
  | talSlt (d : BitVec 6) (a : BitVec 6) (b : BitVec 6)
  /-- TAL_SLTN (R258): Teller set if less, unsigned. -/
  | talSltn (d : BitVec 6) (a : BitVec 6) (b : BitVec 6)
  /-- TADDI (R259): Teller add of a signed 12-bit immediate. -/
  | taddi (d : BitVec 6) (a : BitVec 6) (i : BitVec 12)
  /-- TANDI (R259): Teller and with a zero-extended immediate. -/
  | tandi (d : BitVec 6) (a : BitVec 6) (i : BitVec 12)
  /-- TORI (R259): Teller or with an immediate. -/
  | tori (d : BitVec 6) (a : BitVec 6) (i : BitVec 12)
  /-- TXORI (R259): Teller xor with an immediate. -/
  | txori (d : BitVec 6) (a : BitVec 6) (i : BitVec 12)
  /-- TSHLI (R259): Teller shift left by an immediate. -/
  | tshli (d : BitVec 6) (a : BitVec 6) (i : BitVec 5)
  /-- TSHRI (R259): Teller logical shift right by an immediate. -/
  | tshri (d : BitVec 6) (a : BitVec 6) (i : BitVec 5)
  /-- TSLTI (R259): Teller set if less than a signed immediate. -/
  | tslti (d : BitVec 6) (a : BitVec 6) (i : BitVec 12)
  /-- TLUI (R260): Shift an 18-bit immediate into s[SD]. -/
  | tlui (d : BitVec 6) (i : BitVec 18)
  /-- TLD (R263): Teller 32-bit load at device scope. -/
  | tld (d : BitVec 6) (a : BitVec 6) (b : BitVec 6)
  /-- TLD_D (R263): Teller 64-bit load into a register pair. -/
  | tldD (d : BitVec 6) (a : BitVec 6) (b : BitVec 6)
  /-- TST (R263): Teller 32-bit store. -/
  | tst (d : BitVec 6) (a : BitVec 6) (b : BitVec 6)
  /-- TST_D (R263): Teller 64-bit store from a register pair. -/
  | tstD (d : BitVec 6) (a : BitVec 6) (b : BitVec 6)
  /-- TATOM_ADD (R264): Teller atomic add. -/
  | tatomAdd (d : BitVec 6) (a : BitVec 6) (b : BitVec 6)
  /-- TATOM_AND (R264): Teller atomic and. -/
  | tatomAnd (d : BitVec 6) (a : BitVec 6) (b : BitVec 6)
  /-- TATOM_OR (R264): Teller atomic or. -/
  | tatomOr (d : BitVec 6) (a : BitVec 6) (b : BitVec 6)
  /-- TATOM_XOR (R264): Teller atomic xor. -/
  | tatomXor (d : BitVec 6) (a : BitVec 6) (b : BitVec 6)
  /-- TATOM_MINS (R264): Teller atomic signed minimum. -/
  | tatomMins (d : BitVec 6) (a : BitVec 6) (b : BitVec 6)
  /-- TATOM_MAXS (R264): Teller atomic signed maximum. -/
  | tatomMaxs (d : BitVec 6) (a : BitVec 6) (b : BitVec 6)
  /-- TATOM_MINN (R264): Teller atomic unsigned minimum. -/
  | tatomMinn (d : BitVec 6) (a : BitVec 6) (b : BitVec 6)
  /-- TATOM_MAXN (R264): Teller atomic unsigned maximum. -/
  | tatomMaxn (d : BitVec 6) (a : BitVec 6) (b : BitVec 6)
  /-- TATOM_XCHG (R264): Teller atomic exchange. -/
  | tatomXchg (d : BitVec 6) (a : BitVec 6) (b : BitVec 6)
  /-- TATOM_CAS (R264): Teller compare-and-swap. -/
  | tatomCas (d : BitVec 6) (a : BitVec 6) (b : BitVec 6)
  /-- TBEQ (R261): Teller branch if equal. -/
  | tbeq (a : BitVec 6) (b : BitVec 6) (o : BitVec 12)
  /-- TBNE (R261): Teller branch if not equal. -/
  | tbne (a : BitVec 6) (b : BitVec 6) (o : BitVec 12)
  /-- TBLT (R261): Teller branch if less, signed. -/
  | tblt (a : BitVec 6) (b : BitVec 6) (o : BitVec 12)
  /-- TBGE (R261): Teller branch if greater or equal, signed. -/
  | tbge (a : BitVec 6) (b : BitVec 6) (o : BitVec 12)
  /-- TJMP (R262): Teller jump by a word offset. -/
  | tjmp (o : BitVec 18)
  /-- TCALL (R262): Teller call pushing PC + 4. -/
  | tcall (o : BitVec 18)
  /-- TRET (R262): Teller return. -/
  | tret
  /-- PUSH (R267): Offer a 64-byte command to an engine queue; 0 accepted, 1 full. -/
  | push (d : BitVec 6) (a : BitVec 6)
  /-- TQWAIT (R268): Wait until an engine queue has a free entry. -/
  | tqwait (i : BitVec 12)
  /-- DQPUT (R269): Append a decision-queue entry with a reader count. -/
  | dqput (a : BitVec 6) (b : BitVec 6)
  /-- EVWAIT (R272): Wait until a masked wake bit is set. -/
  | evwait (d : BitVec 6) (a : BitVec 6)
  /-- EVWAIT_CLR (R272): Wait for masked wake bits and clear those returned. -/
  | evwaitClr (d : BitVec 6) (a : BitVec 6)
  /-- EVROUTE (R271): Program an output of the core's event matrix. -/
  | evroute (a : BitVec 6) (b : BitVec 6)
  /-- TSWAIT (R273): Teller wait until a sync word's GEN changes. -/
  | tswait (d : BitVec 6) (a : BitVec 6) (b : BitVec 6)
  /-- TSEXP (R273): Teller add to a sync word's TARGET. -/
  | tsexp (a : BitVec 6) (b : BitVec 6)
  /-- FRZ (R274): Freeze a page range pod-wide and return its id. -/
  | frz (d : BitVec 6) (a : BitVec 6) (b : BitVec 6)
  /-- THAW (R275): Lower a freeze's nesting count, starting the thaw at zero. -/
  | thaw (a : BitVec 6)
  /-- THWAIT (R275): Wait until no thaw of the id is in progress. -/
  | thwait (a : BitVec 6)
  /-- PUBL (R276): Publish a shadow pair and wait for the swap. -/
  | publ (a : BitVec 6)
  /-- SETFMT (R277): Write a whole format register nfK. -/
  | setfmt (a : BitVec 6) (k : BitVec 3)
  /-- SETXV (R277): Write XV_EN and XV of nfK. -/
  | setxv (a : BitVec 6) (k : BitVec 3)
  /-- RATIO (R279): Read the granted ratio word. -/
  | ratio (d : BitVec 6)
  /-- RREQ (R279): Replace the launch's clock request. -/
  | rreq (a : BitVec 6)
  /-- TBAR_ARV (R280): Teller arrives at a named barrier. -/
  | tbarArv (a : BitVec 6) (b : BitVec 4)
  /-- TBAR_SYNC (R280): Teller arrives and waits for the barrier phase. -/
  | tbarSync (a : BitVec 6) (b : BitVec 4)
  /-- TREAD (R281): Teller reads a special register. -/
  | tread (d : BitVec 6) (n : BitVec 18)
  /-- GDONE (R282): Wait for every thread to retire, then complete the group. -/
  | gdone
  /-- TTRAP (R283): Teller software trap. -/
  | ttrap (c : BitVec 13)
  /-- TFENCE_GRP (R265): Teller fence at group scope. -/
  | tfenceGrp
  /-- TFENCE_DEV (R265): Teller fence at device scope. -/
  | tfenceDev
  /-- TFENCE_SYS (R265): Teller fence waiting for system acknowledgement. -/
  | tfenceSys
  /-- SFMODE (R278): Set the group's special-function mode. -/
  | sfmode (m : BitVec 1)
  /-- TNOP (R284): Teller no-operation. -/
  | tnop
  /-- COPY (R292): Start a COPY command moving a five-level loop nest of runs. -/
  | copy (cmd : Nat)
  /-- GATHER (R297): Start a GATHER command moving runs at indexed sources. -/
  | gather (cmd : Nat)
  /-- MATRIX (R303): Start a MATRIX command once lends are claimed. -/
  | matrix (cmd : Nat)
  /-- TABLE (R299): Load a canonical code table into a slot. -/
  | table (cmd : Nat)
  /-- SHADOW (R312): Open a shadow pair after checking and sweeping its ranges. -/
  | shadow (cmd : Nat)
  /-- COLLECT_REDUCE (R315): Collective reduce to the root rank. -/
  | collectReduce (cmd : Nat)
  /-- COLLECT_BROADCAST (R315): Collective broadcast from the root. -/
  | collectBroadcast (cmd : Nat)
  /-- COLLECT_ALL_GATHER (R315): Collective all-gather of every rank's slice. -/
  | collectAllGather (cmd : Nat)
  /-- COLLECT_REDUCE_SCATTER (R315): Collective reduce-scatter, slice q to rank q. -/
  | collectReduceScatter (cmd : Nat)
  /-- COPY_RUN_PERFORMED (R292): A copy run is performed and its bytes are added to the sync word. -/
  | copyRunPerformed (cmd : Nat)
  /-- MATRIX_STEP (R308): An array finishes a step and its sums are added in order. -/
  | matrixStep (cmd : Nat)
  /-- COMMAND_COMPLETE (R288): A command completes: writes, publish, sync word, pulse, trigger. -/
  | commandComplete (cmd : Nat)
  /-- COMMAND_RESUME (R293): A parked command returns to its queue head after resolution. -/
  | commandResume (cmd : Nat)
  /-- EVENT_FIRE (R310): An output's pulse counter reaches COUNT: wake bit or start credit. -/
  | eventFire (core out : Nat)
  /-- TELLER_WAKE (R257): A waiting teller instruction's condition holds and it completes. -/
  | tellerWake (gid : GroupId)
  /-- FORM_BUNDLE (R125): At each bundle slot every cluster forms bundles for its free pipes. -/
  | formBundle (core : Nat)
  /-- PROMOTE (R127): A candidate's wait reaches 256 and it is promoted. -/
  | promote (gid : GroupId) (tid n : Nat)
  /-- HINT_EXPIRE (R201): A hint's duration ends. -/
  | hintExpire (gid : GroupId) (tid n : Nat)
  /-- REGISTER_PRESENT (R26): A put's value becomes present in every cluster. -/
  | registerPresent (gid : GroupId) (tid g : Nat)
  /-- RESULT_LANDS (R115): A fixed-latency result and its flags are written. -/
  | resultLands (gid : GroupId) (tid n : Nat)
  /-- LOAD_RETURN (R232): A load's data lands in the accumulator for the bundle. -/
  | loadReturn (bundle : Nat)
  /-- ACCESS_PERFORMED (R241): A store, atomic or reduction is performed at its scope. -/
  | accessPerformed (acc : Nat) (scope : Scope)
  /-- COIN_DEADLOCK (R135): The coin-deadlock count reaches 65,536 and the group traps. -/
  | coinDeadlock (gid : GroupId)
  /-- THREAD_RETIRE (R20): A thread whose strands finished retires once its accesses complete. -/
  | threadRetire (gid : GroupId) (tid : Nat)
  /-- GROUP_COMPLETE (R21): The group's resources are freed once threads and commands are done. -/
  | groupComplete (gid : GroupId)
  /-- CODE_LINE_FILL (R94): A code-store line arrives from its home. -/
  | codeLineFill (core ctx line : Nat)
  /-- L1_READ_MISS (R339): Home serves an L1 read miss per directory state. -/
  | l1ReadMiss (acc : Nat)
  /-- L1_WRITE_MISS (R339): Home serves a write miss or upgrade. -/
  | l1WriteMiss (acc : Nat)
  /-- HOME_ATOMIC (R339): A device- or system-scope atomic executes at the home. -/
  | homeAtomic (acc : Nat)
  /-- L1_EVICTION (R339): An L1 eviction notice reaches the home. -/
  | l1Eviction (core : Nat) (key : LineKey)
  /-- L2_EVICTION (R339): An L2 line is evicted after invalidating L1 copies. -/
  | l2Eviction (key : LineKey)
  /-- ENGINE_READ (R339): An engine read at the home. -/
  | engineRead (cmd : Nat)
  /-- ENGINE_WRITE (R339): An engine write at the home. -/
  | engineWrite (cmd : Nat)
  /-- L2_MISS_TRANSLATE (R213): A miss reaches its controller's TLB and is translated and routed. -/
  | l2MissTranslate (acc : Nat)
  /-- PAGE_WALK_DONE (R216): A walk completes with a translation or a fault cause. -/
  | pageWalkDone (acc : Nat)
  /-- REMOTE_REQUEST (R213): A request from another chip is translated again here. -/
  | remoteRequest (r : RemoteReq)
  /-- NIMBUS_FLIT (R414): A flit is received on a Nimbus link, CRC checked and flow-controlled. -/
  | nimbusFlit (f : Flit)
  /-- REFRESH_SLOT (R209): A new 50-ns slot begins and the next weight-store bank refreshes. -/
  | refreshSlot
  /-- MIGRATION_START (R224): The migration engine takes a frame and starts copying a page. -/
  | migrationStart (ctx : Nat) (va : BitVec 64)
  /-- MIGRATION_SWITCH (R224): After the drain, marked lines recopy and the leaf switches frame. -/
  | migrationSwitch
  /-- SWITCH_OUT (R220): A column stalled on pages is switched out. -/
  | switchOut (col : ColId)
  /-- STOP_COLUMN (R374): The stopping sequence begins for a trap, pre-emption, switch-out or quiesce. -/
  | stopColumn (col : ColId) (reason : StopReason)
  /-- SAVE_RECORD_WRITE (R378): Once drained, barriers and the save record are written and resources freed. -/
  | saveRecordWrite (col : ColId)
  /-- LATE_FAULT (R369): A memory-model fault decided at the home reaches the core. -/
  | lateFault (acc : Nat)
  /-- SAVE_SLOT_FREED (R371): A freed save slot lets a waiting column save and notify. -/
  | saveSlotFreed (ctx : Nat)
  /-- FREEZE_REQUEST (R347): The coordinator decides a frz and allocates an id. -/
  | freezeRequest
  /-- FREEZE_RANGE (R347): A device receives a freeze range and marks its homes. -/
  | freezeRange (id slice : Nat)
  /-- FREEZE_ACK (R347): The coordinator collects acknowledgements and answers the frz. -/
  | freezeAck (id chip : Nat)
  /-- THAW_REQUEST (R349): The coordinator starts a thaw and sends DROP. -/
  | thawRequest
  /-- DROP_ACK (R349): With all drops acknowledged the coordinator sends UNMARK. -/
  | dropAck (id chip : Nat)
  /-- UNMARK (R349): A home removes the range from its write check. -/
  | unmark (id slice : Nat)
  /-- UNMARK_ACK (R349): With all unmarks acknowledged the entry is freed and thwaits return. -/
  | unmarkAck (id chip : Nat)
  /-- PUBLISH (R313): After prior commands complete, the pair's frames are swapped. -/
  | publish (ctx pair : Nat)
  /-- STAGING_WRITE (R74): A write to the launch window's staging buffer. -/
  | stagingWrite (ctx off : Nat) (data : List Byte)
  /-- LAUNCH_SUBMIT (R75): A write covering 0xF8–0xFF submits the staged block. -/
  | launchSubmit (ctx off : Nat) (data : List Byte)
  /-- LAUNCH_ACCEPT (R76): The distributor takes a submitted block, drops or accepts and checks it. -/
  | launchAccept
  /-- CAPTURE_INPUTS (R396): An eligible CAPTURE launch's inputs are written to the buffer. -/
  | captureInputs (launch : Nat)
  /-- PLACE_COLUMN (R83): The distributor places the next column on the lowest fitting core. -/
  | placeColumn
  /-- PREEMPT (R84): Lower-priority columns are pre-empted to fit a blocked column. -/
  | preempt
  /-- PLACEMENT_BLOCK_TIMEOUT (R84): A column blocked 50 µs stops placement of later launches. -/
  | placementBlockTimeout
  /-- LAUNCH_COMPLETE (R395): Log applied, record written, slot freed, dependants released. -/
  | launchComplete (launch : Nat)
  /-- REARBITRATE (R91): The exchange chooses the least-cost admissible grant. -/
  | rearbitrate
  /-- GRANT_CHANGE (R92): After clock changes, GRANTSEQ and GRANT update and input 15 posts. -/
  | grantChange
  /-- THERMAL_STEP (R415): Every 10 ms the thermal cap moves by 25 W. -/
  | thermalStep (temps : List Int)
  /-- TELEMETRY_SAMPLE (R416): The telemetry block is updated from one sample. -/
  | telemetrySample (power : Nat) (temps : List Int)
  /-- SWEEP (R218): A SWCTL write queues a sweep of a page range. -/
  | sweep (ctx : Nat) (v : BitVec 64)
  /-- SWEEP_DONE (R218): A sweep finishes its drops and waits, and DONE increments. -/
  | sweepDone (ctx : Nat)
  /-- PTSEQ_WRITE (R221): PTSEQ updates after every earlier host write is performed. -/
  | ptseqWrite (ctx : Nat) (v : Word)
  /-- REPLAY (R221): A REPLAY write asks to rewalk a fault record. -/
  | replay (ctx : Nat) (v : BitVec 64)
  /-- REPLAY_WALK (R221): Once PTSEQ reaches REQSEQ the page is rewalked and accesses replay or refault. -/
  | replayWalk (ctx fid : Nat)
  /-- SWM_ENTER (R344): Start making a region software-managed. -/
  | swmEnter (ctx : Nat)
  /-- SWM_RETURN (R344): Start returning a region to the directory. -/
  | swmReturn (ctx : Nat)
  /-- SWM_SWITCH_DONE (R344): After the drain, the switch flushes, updates leaves and releases. -/
  | swmSwitchDone (ctx : Nat)
  /-- GRP_RESUME (R372): Resume a trapped column from its save slot. -/
  | grpResume (ctx slot : Nat)
  /-- GRP_DISCARD (R372): Discard a trapped column. -/
  | grpDiscard (ctx slot : Nat)
  /-- BIAS_TO_HOST (R352): Queue a flip of a page to host bias. -/
  | biasToHost (v : BitVec 64)
  /-- BIAS_TO_DEVICE (R352): Queue a flip of a page to device bias. -/
  | biasToDevice (v : BitVec 64)
  /-- FLIP_START (R353): The next queued flip starts, holding device accesses. -/
  | flipStart
  /-- FLIP_DONE (R353): Writebacks or BIRsp collection end; the bias bit changes and DONE increments. -/
  | flipDone
  /-- BIRSP (R353): A host BIRsp arrives during a flip to device bias. -/
  | birsp (half : Nat) (data : Option (List Byte))
  /-- HOST_MEM_READ (R352): A host CXL.mem read of device memory. -/
  | hostMemRead (addr n : Nat)
  /-- HOST_MEM_WRITE (R352): A host CXL.mem write of device memory. -/
  | hostMemWrite (addr : Nat) (data : List Byte)
  /-- SNP_DATA (R355): Host SnpData to a half held by the bridge. -/
  | snpData (hpa : Nat)
  /-- SNP_INV (R355): Host SnpInv to a half held by the bridge. -/
  | snpInv (hpa : Nat)
  /-- SNP_CUR (R355): Host SnpCur to a half held by the bridge. -/
  | snpCur (hpa : Nat)
  /-- HOST_LINE_FILL (R355): The host answers RdShared or RdOwn and the half fills. -/
  | hostLineFill (key : LineKey) (own : Bool)
  /-- QUIESCE_START (R384): Begin a quiesce, phase 1. -/
  | quiesceStart
  /-- QUIESCE_PHASE1_DONE (R384): Accesses in flight complete and phase 1 is reported to peers. -/
  | quiescePhase1Done
  /-- PEER_PHASE1 (R384): A peer's phase-1 report arrives; the last starts phase 3. -/
  | peerPhase1 (chip : Nat)
  /-- QUIESCE_END (R384): End a quiesce and place the saved columns again. -/
  | quiesceEnd
  /-- IMGCMD (R385): Write the state image to a buffer. -/
  | imgcmd (v : BitVec 64)
  /-- RESTORE (R387): Check and load a state image on a quiesced device. -/
  | restore (v : BitVec 64)
  /-- DBG_STOP (R400): Stop a core at its next bundle slot. `page` is the context whose control page the write reached, none for BAR0
  (R399); so in the three that follow. -/
  | dbgStop (page : Option Nat) (core : Nat) (brkstop : Bool)
  /-- DBG_RUN (R400): Let a stopped core run. -/
  | dbgRun (page : Option Nat) (core : Nat) (brkstop : Bool)
  /-- DBG_STEP (R400): Run a core for STEPS vector cycles. -/
  | dbgStep (page : Option Nat) (core steps : Nat) (brkstop : Bool)
  /-- DBG_STEP_EXPIRE (R400): The STEPS count ends and the core stops. -/
  | dbgStepExpire (core : Nat)
  /-- DBG_DUMP (R399, R401): Dump a stopped core's groups and pending writes; `v` is the value written to DBGCTL. -/
  | dbgDump (page : Option Nat) (v : BitVec 64)
  /-- PROFCLR (R405): Clear every stall counter of every core. -/
  | profclr (v : BitVec 64)
  /-- CH_CONFIG_WRITE (R406): Write CHLAUNCH, CHBASE or CHSHIFT and clear the houses' counters. -/
  | chConfigWrite (reg : Nat) (v : BitVec 64)
  /-- CHDUMP (R407): Write the aggregate counting-house table. -/
  | chdump (v : BitVec 64)
  /-- CTX_CREATE (R411): Create a context with its ASID and root table. -/
  | ctxCreate (v : BitVec 64)
  /-- CTX_DESTROY (R411): Destroy a context, ending its launches and state. -/
  | ctxDestroy (v : BitVec 64)
  /-- RING_CONFIG_WRITE (R412): A write to a ring's BASE or LOG2N resets its indices. -/
  | ringConfigWrite (ctx ring : Nat) (off size : Nat) (v : BitVec 64)
  /-- WS_WINDOW_WRITE (R412): A host write through the weight-store window. -/
  | wsWindowWrite (off : Nat) (data : List Byte)
  /-- ROUTE_WRITE (R413): Set the link of a (chip, lane) route after draining. -/
  | routeWrite (v : BitVec 64)
  /-- COMMCFG_WRITE (R413): Configure a communicator, reading COMMLIST. -/
  | commcfgWrite (v : BitVec 64)
  /-- PWRCAP_WRITE (R415): Set the configured power cap. -/
  | pwrcapWrite (v : BitVec 64)
  /-- FW_BEGIN (R419): Begin receiving a firmware image. -/
  | fwBegin
  /-- FW_APPEND (R419): Append the staged 64 KiB chunk. -/
  | fwAppend
  /-- FW_END (R419): Verify the image and write it to flash. -/
  | fwEnd
  /-- ATTEST (R419): Write a signed attestation report. -/
  | attest (v : BitVec 64)
  /-- REGISTER_WRITE (R409): A write to a register with no behaviour of its own. -/
  | registerWrite (page : RegPage) (off size : Nat) (v : BitVec 64)
  /-- FUNCTION_LEVEL_RESET (R409): End every context and drop caches, freezes and bias. -/
  | functionLevelReset
  /-- COLD_RESET (R418): Boot ROM verifies firmware and brings the module up. -/
  | coldReset
  /-- FLASH_DROP (R349): A device receives DROP(id), flash-drops every line tagged with the freeze id and acknowledges once its earlier fills are resolved. -/
  | flashDrop (id : Nat)
  /-- RING_CONS_WRITE (R412): A host write to a ring's CONS frees slots, releasing a stage held on a full fault ring, a trapped column held on a full trap ring, or a core stalled in lossless trace mode. -/
  | ringConsWrite (ctx ring : Nat) (v : Word)
  /-- LINK_DOWN (R413): A Nimbus link goes down, its LINKSTAT bit clears, and requests routed over it are held until the host writes a route. -/
  | linkDown (link : Nat)
  /-- LINK_UP (R413): A Nimbus link comes up and its LINKSTAT bit is set. -/
  | linkUp (link : Nat)
  /-- POWER_LOSS (R419): Module power is lost, which interrupts a firmware flash write in progress and leaves no valid image for the next boot. -/
  | powerLoss
  /-- ILLEGAL_TELLER_WORD (R112): The teller reaches a word whose opcode is 0x00–0xBF or 0xE9–0xFF and takes a precise illegal-instruction trap that stops the group. -/
  | illegalTellerWord (word : Word)
  /-- MIGRATION_EPOCH_END (R223): An epoch of the migration engine ends and the per-page sample counts that promotion compares against its threshold start afresh. -/
  | migrationEpochEnd
  deriving DecidableEq, Repr

end Sys2Proof
end

