-- ==== Sys2Proof/WellFormed.lean ====
section
/-! DEFINITION. Which operands an instruction accepts: R102 to R107, R112, R154, R178, R179, R202, R250 and R285, as far as the
words alone decide it. What the kernel or a register decides (NGPR, DQD, NBAR, a teller register's value) is checked at issue. -/

namespace Sys2Proof

/-- What an E-class instruction's G field must hold (R153, R166, R179). -/
inductive GRule where
  | register   -- the register read when BS = 00, otherwise 0
  | zero       -- always 0
  | format     -- a format register, 0 to 7
  deriving DecidableEq, Repr

/-- The fields an E-class instruction accepts (R154, R178, R179, R202). -/
structure Accept where
  one : Bool := true
  win : Bool := true
  swap : Bool := true
  gpr : Bool := true
  elem : Bool := true
  lit : Bool := true
  dq : Bool := true
  satm : Bool := false
  neg : Bool := false
  abs : Bool := false
  scale : Bool := false
  rm : Bool := false
  xZero : Bool := false
  g : GRule := .register
  deriving DecidableEq, Repr

namespace Accept

/-- Integer instructions with a saturating form (R154, R157). -/
def intSat : Accept := { satm := true }
/-- The instructions that accept no modifier field. -/
def bare : Accept := {}
/-- FP32 and packed arithmetic, conversions, interpolated functions (R154). -/
def full : Accept := { satm := true, neg := true, abs := true, scale := true, rm := true }
/-- fmin to fmaxnm, ffloor, fceil, ftrunc (R154). -/
def pick : Accept := { satm := true, neg := true, abs := true }
/-- frnd (R154). -/
def round : Accept := { satm := true, neg := true, abs := true, rm := true }
/-- rcpsd, rsqsd (R154, R171). -/
def seed : Accept := { satm := true, neg := true, abs := true, scale := true }
/-- cvt.f32.nf, cvt.nf.f32 (R166, R178). -/
def narrow : Accept := { full with gpr := false, g := .format }
/-- rmax, rsum (R175, R178). -/
def row : Accept := { one := false, gpr := false, lit := false, dq := false }
/-- mskr (R176, R178). -/
def mask : Accept := { one := false, elem := false }
/-- movw, perm, shfx, shup, shdn (R179, R202). -/
def fetch : Accept := { elem := false, swap := false }
/-- bcast (R179, R202). -/
def bcast : Accept := { one := false, elem := false, swap := false }
/-- iota (R179, R202). -/
def iota : Accept := { elem := false, swap := false, xZero := true }
/-- clr (R179, R202). -/
def clr : Accept := { elem := false, lit := false, dq := false, swap := false, xZero := true, g := .zero }

end Accept

/-- A modifier word's fields are all accepted, and M = 1 only where some field is (R103, R154). -/
def Modifier.ok (a : Accept) (m : Modifier) : Bool :=
  (a.satm || a.neg || a.abs || a.scale || a.rm) && (a.satm || m.satm == .none) && (a.neg || !m.neg) && (a.abs || !m.abs)
    && (a.scale || m.scale == 0) && (a.rm || m.rm == .rne)

/-- BS is accepted, and G is what the instruction requires beside it. -/
def EFields.sourceOk (a : Accept) (f : EFields) : Bool :=
  (match f.b with
    | .gpr => a.gpr
    | .elem => a.elem
    | .lit _ => a.lit
    | .dq => a.dq) &&
  (match a.g with
    | .register => f.b == .gpr || f.g == 0
    | .zero => f.g == 0
    | .format => decide (f.g < 8))

/-- V, WIN and XSH are accepted (R102, R178, R202). -/
def Dst.ok (a : Accept) : Dst → Bool
  | .one _ x => a.one && (!a.xZero || x == 0)
  | .win _ swap => a.win && (a.swap || !swap)

/-- An E-class instruction's fields are all accepted. -/
def EFields.ok (a : Accept) (f : EFields) : Bool :=
  (match f.mods with | none => true | some m => m.ok a) && f.sourceOk a && f.dst.ok a

/-- The address word an access behaves with (R104). -/
def MemFields.word (f : MemFields) : AddrWord := f.addr.getD .zero
/-- The address word an atomic behaves with (R104). -/
def AtomFields.word (f : AtomFields) : AddrWord := f.addr.getD .zero

/-- SEG 7 requires group scope (R226, R250). -/
def segOk (seg : BitVec 3) (s : Scope) : Bool := seg != 7 || s == .grp

/-- Loads and stores: relaxed, or the one order the instruction may carry (R104). -/
def MemFields.ok (f : MemFields) (win : BitVec 2 → Bool) (d : BitVec 5 → Bool) (orders : List Order) : Bool :=
  segOk f.seg f.word.scope && orders.contains f.word.order && win f.win && d f.d

/-- Scalar loads and stores (R250). -/
def MemFields.scalar (f : MemFields) (orders : List Order) (maxD : Nat := 31) : Bool :=
  f.ok (· == 0) (fun d => d.toNat ≤ maxD) (.relaxed :: orders)

/-- Vector loads and stores: the windows accepted, and D below a bound (R230, R250). -/
def MemFields.vector (f : MemFields) (wins : List (BitVec 2)) (dBelow : Nat := 1) : Bool :=
  f.ok wins.contains (fun d => d.toNat < dBelow) [.relaxed]

/-- cwb (R235, R250). -/
def MemFields.cwbOk (f : MemFields) : Bool := f.vector [0] && f.word.hint != .stream

/-- Atomics, reductions and compare-and-swaps (R104, R250). -/
def AtomFields.ok (f : AtomFields) (orders : List Order) (maxD : Nat := 31) : Bool :=
  segOk f.seg f.word.scope && f.word.hint == .normal && orders.contains f.word.order && decide (f.d.toNat ≤ maxD)

/-- atom, atomf, cas, cas64 carry any order (R104). -/
def anyOrder : List Order := [.relaxed, .acquire, .release, .acqRel]
/-- red and redf carry none or release (R104, R250). -/
def redOrder : List Order := [.relaxed, .release]
/-- redf.ord: device scope and no order (R239, R250). -/
def AtomFields.ordOk (f : AtomFields) : Bool := f.ok [.relaxed] && f.word.scope == .dev

/-- TIME, CYCLE, WSREF (R121, R183). -/
def isWide (n : Nat) : Bool := n == 14 || n == 15 || n == 18

/-- The instruction's fields are what R102 to R112 and the chapters' "Illegal uses" accept. An event has no fields to check. -/
def Instr.wf : Instr → Bool
  | .add f | .sub f | .rsub f | .mul f | .mad f | .lea f => f.ok .intSat
  | .mulhs f | .mulhn f | .mins f | .maxs f | .minn f | .maxn f | .and f | .or f | .xor f | .andn f | .shl f | .shrn f | .shrs f
  | .rol f | .popc f | .clz f | .brev f | .bfxs f | .bfxn f | .bfi f | .ceq f | .cne f | .clts f | .cles f | .cltn f | .clen f
  | .fceq f | .fclt f | .fcle f | .fcun f | .fsel f | .fcpsgn f | .cmax f | .csum f | .mov f => f.ok .bare
  | .fadd f | .fsub f | .fmul f | .ffma f | .ffms f | .fnma f | .fsacc f | .hadd2 f | .hmul2 f | .hfma2 f | .badd2 f | .bmul2 f
  | .bfma2 f | .cvtF32S32 f | .cvtF32N32 f | .cvtS32F32 f | .cvtN32F32 f | .cvtF32F16 f | .cvtF16F32 f | .cvtF32Bf16 f
  | .cvtBf16F32 f | .cvtF32E4m3 f | .cvtE4m3F32 f | .cvtF32E5m2 f | .cvtE5m2F32 f | .pack4 f | .unpk4 f | .rcp f | .rsq f | .ex2 f
  | .lg2 f | .sinpi f | .cospi f | .tanh f | .sigm f | .ex2m f => f.ok .full
  | .fmin f | .fmax f | .fminnm f | .fmaxnm f | .ffloor f | .fceil f | .ftrunc f => f.ok .pick
  | .frnd f => f.ok .round
  | .rcpsd f | .rsqsd f => f.ok .seed
  | .cvtF32Nf f | .cvtNfF32 f => f.ok .narrow
  | .rmax f | .rsum f => f.ok .row
  | .mskr f => f.ok .mask
  | .movw f | .perm f | .shfx f | .shup f | .shdn f => f.ok .fetch
  | .bcast f => f.ok .bcast
  | .iota f => f.ok .iota
  | .clr f => f.ok .clr
  | .voteAny f | .voteAll f | .voteBallot f => f.b == .gpr || f.g == 0
  | .put _ _ _ _ | .drop _ _ | .lend _ => true
  | .sread _ d x => decide (x.toNat < 20) && (d != 31 || !isWide x.toNat)
  | .ldB8s f | .ldB8z f | .ldB16s f | .ldB16z f | .stB8 f | .stB16 f => f.scalar []
  | .ldB32 f => f.scalar [.acquire]
  | .ldB64 f => f.scalar [.acquire] 30
  | .stB32 f => f.scalar [.release]
  | .stB64 f => f.scalar [.release] 30
  | .ldV16 f | .stV16 f => f.vector [0, 1]
  | .ldV32 f | .stV32 f => f.vector [2]
  | .ldBf16v f | .stBf16v f => f.vector [0, 1, 2]
  | .ldNfv f | .stNfv f => f.vector [0, 1, 2] 8
  | .pf f => f.vector [0]
  | .pfL2 f => f.vector [1]
  | .cwb f => f.cwbOk
  | .atomAdd f | .atomAnd f | .atomOr f | .atomXor f | .atomMins f | .atomMaxs f | .atomMinn f | .atomMaxn f | .atomXchg f
  | .atomfAdd f | .atomfMin f | .atomfMax f => f.ok anyOrder
  | .cas f => f.ok anyOrder 30
  | .cas64 f => f.ok anyOrder 28
  | .redAdd f | .redAnd f | .redOr f | .redXor f | .redMins f | .redMaxs f | .redMinn f | .redMaxn f | .redfAdd f | .redfMin f
  | .redfMax f => f.ok redOrder
  | .redfOrd f => f.ordOk
  | .fenceGrp _ | .fenceDev _ | .fenceSys _ => true
  | .bra _ o | .bz _ _ o | .bnz _ _ o | .bez _ _ o | .benz _ _ o | .call _ o => o != 0x1000
  | .braLong _ _ | .bzLong _ _ _ | .bnzLong _ _ _ | .bezLong _ _ _ | .benzLong _ _ _ | .callLong _ _ => true
  | .callx _ d => d != 31
  | .ret _ | .blk _ | .strandEnd _ | .exit _ _ | .trap _ _ | .brk _ _ => true
  | .bara _ _ _ | .barw _ _ | .bars _ _ _ | .barx _ _ _ | .sexp _ _ _ | .sarr _ _ _ | .swait _ _ _ | .swaitGe _ _ _ => true
  | .evpost _ n => n != 15
  | .nop _ | .ifence _ | .stflag _ _ | .stflagClr _ _ | .hintYield _ _ | .hintUrgent _ _ => true
  | .sAddG _ _ | .sSubG _ _ | .sMulG _ _ | .sMadG _ _ | .sAndG _ _ | .sOrG _ _ | .sXorG _ _ | .sShlG _ _ | .sShrnG _ _
  | .sShrsG _ _ | .sMinsG _ _ | .sMaxsG _ _ | .sCeqG _ _ | .sCltsG _ _ | .sCltnG _ _ | .sLeaG _ _ | .sAddImm _ _
  | .sAndImm _ _ | .sShlImm _ _ | .sShrnImm _ _ | .sShrsImm _ _ | .sCeqImm _ _ | .sCltsImm _ _ | .sMovImm _ _ | .sFaddG _ _
  | .sFsubG _ _ | .sFmulG _ _ | .sFfmaG _ _ | .sFfmsG _ _ | .sFminG _ _ | .sFmaxG _ _ | .sFcltG _ _ | .sFcleG _ _
  | .sFsaccG _ _ | .sMovG _ _ | .sPut1 _ _ | .sPutSticky _ _ | .sLdB32 _ _ | .sStB32 _ _ | .sLdV16 _ _ | .sStV16 _ _
  | .sLdB64 _ _ | .sStB64 _ _ | .sBra _ _ | .sBez _ _ | .sBenz _ _ | .sBlk _ | .sEnd _ | .sNop _ | .sCvtF32S32 _ _
  | .sCvtS32F32 _ _ | .sRsqsdG _ _ | .sRcpsdG _ _ | .sEx2G _ _ | .sDrop _ _ | .sRet _ => true
  | .talAdd _ _ _ | .talSub _ _ _ | .talMul _ _ _ | .talMulhs _ _ _ | .talAnd _ _ _ | .talOr _ _ _ | .talXor _ _ _ | .talShl _ _ _
  | .talShrn _ _ _ | .talShrs _ _ _ | .talMins _ _ _ | .talMaxs _ _ _ | .talMinn _ _ _ | .talMaxn _ _ _ | .talSlt _ _ _
  | .talSltn _ _ _ | .taddi _ _ _ | .tandi _ _ _ | .tori _ _ _ | .txori _ _ _ | .tshli _ _ _ | .tshri _ _ _ | .tslti _ _ _
  | .tlui _ _ | .tbeq _ _ _ | .tbne _ _ _ | .tblt _ _ _ | .tbge _ _ _ | .tjmp _ | .tcall _ | .tret => true
  | .tld _ a _ | .tst _ a _ | .tatomAdd _ a _ | .tatomAnd _ a _ | .tatomOr _ a _ | .tatomXor _ a _ | .tatomMins _ a _
  | .tatomMaxs _ a _ | .tatomMinn _ a _ | .tatomMaxn _ a _ | .tatomXchg _ a _ | .tatomCas _ a _ | .frz _ a _ => a != 63
  | .tldD d a _ | .tstD d a _ => a != 63 && d != 63
  | .push _ a => decide (a.toNat ≤ 48)
  | .tqwait i => decide (i.toNat ≤ 6)
  | .tread d n => decide (4 ≤ n.toNat ∧ n.toNat ≤ 18) && (d != 63 || !isWide n.toNat)
  | .dqput _ _ | .evwait _ _ | .evwaitClr _ _ | .evroute _ _ | .tswait _ _ _ | .tsexp _ _ | .thaw _ | .thwait _ | .publ _
  | .setfmt _ _ | .setxv _ _ | .ratio _ | .rreq _ | .tbarArv _ _ | .tbarSync _ _ | .gdone | .ttrap _ | .tfenceGrp | .tfenceDev
  | .tfenceSys | .sfmode _ | .tnop => true
  | .copy _ | .gather _ | .matrix _ | .table _ | .shadow _ | .collectReduce _ | .collectBroadcast _ | .collectAllGather _
  | .collectReduceScatter _ | .copyRunPerformed _ | .matrixStep _ | .commandComplete _ | .commandResume _ | .eventFire _ _
  | .tellerWake _ | .formBundle _ | .promote _ _ _ | .hintExpire _ _ _ | .registerPresent _ _ _ | .resultLands _ _ _
  | .loadReturn _ | .accessPerformed _ _ | .coinDeadlock _ | .threadRetire _ _ | .groupComplete _ | .codeLineFill _ _ _
  | .l1ReadMiss _ | .l1WriteMiss _ | .homeAtomic _ | .l1Eviction _ _ | .l2Eviction _ | .engineRead _ | .engineWrite _
  | .l2MissTranslate _ | .pageWalkDone _ | .remoteRequest _ | .nimbusFlit _ | .refreshSlot | .migrationStart _ _
  | .migrationSwitch | .switchOut _ | .stopColumn _ _ | .saveRecordWrite _ | .lateFault _ | .saveSlotFreed _ | .freezeRequest
  | .freezeRange _ _ | .freezeAck _ _ | .thawRequest | .dropAck _ _ | .unmark _ _ | .unmarkAck _ _ | .publish _ _
  | .stagingWrite _ _ _ | .launchSubmit _ _ _ | .launchAccept | .captureInputs _ | .placeColumn | .preempt
  | .placementBlockTimeout | .launchComplete _ | .rearbitrate | .grantChange | .thermalStep _ | .telemetrySample _ _
  | .sweep _ _ | .sweepDone _ | .ptseqWrite _ _ | .replay _ _ | .replayWalk _ _ | .swmEnter _ | .swmReturn _
  | .swmSwitchDone _ | .grpResume _ _ | .grpDiscard _ _ | .biasToHost _ | .biasToDevice _ | .flipStart | .flipDone
  | .birsp _ _ | .hostMemRead _ _ | .hostMemWrite _ _ | .snpData _ | .snpInv _ | .snpCur _ | .hostLineFill _ _
  | .quiesceStart | .quiescePhase1Done | .peerPhase1 _ | .quiesceEnd | .imgcmd _ | .restore _ | .dbgStop _ _ _
  | .dbgRun _ _ _ | .dbgStep _ _ _ _ | .dbgStepExpire _ | .dbgDump _ _ | .profclr _ | .chConfigWrite _ _ | .chdump _
  | .ctxCreate _ | .ctxDestroy _ | .ringConfigWrite _ _ _ _ _ | .wsWindowWrite _ _ | .routeWrite _ | .commcfgWrite _
  | .pwrcapWrite _ | .fwBegin | .fwAppend | .fwEnd | .attest _ | .registerWrite _ _ _ _ | .functionLevelReset | .coldReset
  | .flashDrop _ | .ringConsWrite _ _ _ | .linkDown _ | .linkUp _ | .powerLoss | .illegalTellerWord _ | .migrationEpochEnd => true

end Sys2Proof
end

