-- ==== Sys2Proof/Decode.lean ====
section
/-! DEFINITION. From words to instructions and back: R97 to R113. A decoder reads the fields of the layouts once, into a `Form`, and
then the opcode maps name the instruction; `encode` goes the other way. -/

namespace Sys2Proof

/-- Why bytes are no instruction (R108, R109, R112). -/
inductive DecodeError where
  /-- More parcels are needed than were given. -/
  | truncated
  /-- SOP 0x38 to 0x3F (R100). -/
  | reservedShort
  /-- A reserved or illegal op8 (R108). -/
  | reservedOpcode
  /-- A field value that R102 to R107 leave no meaning. -/
  | illegalField
  /-- A teller op outside 0xC0 to 0xE8 (R112). -/
  | illegalTellerOp
  deriving DecidableEq, Repr

/-- The layouts of strand code (R98, R101, R102, R105 to R107). -/
inductive Form where
  /-- The S form (R98). -/
  | short (sop x : BitVec 6) (w : BitVec 3)
  /-- The E class (R102). -/
  | e (op : BitVec 8) (f : EFields)
  /-- Loads, stores, pf and cwb (R105). -/
  | mem (op : BitVec 8) (f : MemFields)
  /-- Atomics and reductions (R105). -/
  | atom (op : BitVec 8) (aop : BitVec 4) (f : AtomFields)
  /-- fence, and the branch, sync and system classes: no word follows (R105 to R107). -/
  | plain (op : BitVec 8) (g : BitVec 6) (w : BitVec 3) (imm : BitVec 13)
  /-- A branch whose offset is a literal word (R106). -/
  | far (op : BitVec 8) (g : BitVec 6) (w : BitVec 3) (o : BitVec 32)
  deriving DecidableEq, Repr

/-! ## Fields and their codes -/

/-- SATM (R103). -/
def SatMode.ofCode (c : BitVec 2) : SatMode :=
  if c == 0 then .none else if c == 1 then .sat else if c == 2 then .clamp01 else .clampSym
/-- SATM (R103). -/
def SatMode.code : SatMode → BitVec 2
  | .none => 0 | .sat => 1 | .clamp01 => 2 | .clampSym => 3
/-- RM (R103). -/
def RMode.ofCode (c : BitVec 2) : RMode := if c == 0 then .rne else if c == 1 then .rtz else if c == 2 then .rdn else .rup
/-- RM (R103). -/
def RMode.code : RMode → BitVec 2
  | .rne => 0 | .rtz => 1 | .rdn => 2 | .rup => 3

/-- The modifier word (R103). -/
def Modifier.code (m : Modifier) : BitVec 32 :=
  m.satm.code ++ BitVec.ofBool m.neg ++ BitVec.ofBool m.abs ++ m.scale ++ m.rm.code ++ 0#20
/-- The modifier word (R103); its bits [19:0] must be zero. -/
def Modifier.ofCode (c : BitVec 32) : Option Modifier :=
  if c.extractLsb' 0 20 == 0 then
    some { satm := .ofCode (c.extractLsb' 30 2), neg := c.getLsbD 29, abs := c.getLsbD 28, scale := c.extractLsb' 22 6,
           rm := .ofCode (c.extractLsb' 20 2) }
  else none

/-- SCOPE (R104); 11 is illegal. -/
def Scope.ofCode (c : BitVec 2) : Option Scope :=
  if c == 0 then some .grp else if c == 1 then some .dev else if c == 2 then some .sys else none
/-- SCOPE (R104). -/
def Scope.code : Scope → BitVec 2
  | .grp => 0 | .dev => 1 | .sys => 2
/-- ORDER (R104). -/
def Order.ofCode (c : BitVec 2) : Order :=
  if c == 0 then .relaxed else if c == 1 then .acquire else if c == 2 then .release else .acqRel
/-- ORDER (R104). -/
def Order.code : Order → BitVec 2
  | .relaxed => 0 | .acquire => 1 | .release => 2 | .acqRel => 3
/-- HINT (R104); 11 is illegal. -/
def Hint.ofCode (c : BitVec 2) : Option Hint :=
  if c == 0 then some .normal else if c == 1 then some .stream else if c == 2 then some .keep else none
/-- HINT (R104). -/
def Hint.code : Hint → BitVec 2
  | .normal => 0 | .stream => 1 | .keep => 2

/-- The address word (R104). -/
def AddrWord.code (a : AddrWord) : BitVec 32 := a.scope.code ++ a.order.code ++ a.hint.code ++ a.off
/-- The address word (R104). -/
def AddrWord.ofCode (c : BitVec 32) : Option AddrWord :=
  match Scope.ofCode (c.extractLsb' 30 2), Hint.ofCode (c.extractLsb' 26 2) with
  | some s, some h => some { scope := s, order := .ofCode (c.extractLsb' 28 2), hint := h, off := c.extractLsb' 0 26 }
  | _, _ => none

/-- WIN with V = 1 (R102); 11 is illegal. -/
def Win.ofCode (c : BitVec 2) : Option Win :=
  if c == 0 then some .lo else if c == 1 then some .hi else if c == 2 then some .all else none
/-- WIN (R102). -/
def Win.code : Win → BitVec 2
  | .lo => 0 | .hi => 1 | .all => 2

/-- V, D and X, or V, WIN and XSH, of an E-class IMM13 (R102): bit [12] and bits [9:0]. -/
def Dst.ofCode (v : Bool) (c : BitVec 10) : Option Dst :=
  if v then
    match Win.ofCode (c.extractLsb' 8 2) with
    | some wn =>
      if c.extractLsb' 0 5 == 0 then
        if c.extractLsb' 5 3 == 0 then some (.win wn false) else if c.extractLsb' 5 3 == 1 then some (.win wn true) else none
      else none
    | none => none
  else some (.one (c.extractLsb' 5 5) (c.extractLsb' 0 5))
/-- Whether V = 1 (R102). -/
def Dst.isWin : Dst → Bool
  | .one _ _ => false
  | .win _ _ => true
/-- Bits [9:0] of an E-class IMM13 (R102). -/
def Dst.code : Dst → BitVec 10
  | .one d x => d ++ x
  | .win wn swap => wn.code ++ (if swap then 1#3 else 0#3) ++ 0#5

/-- BS (R102). -/
def BSrc.code : BSrc → BitVec 2
  | .gpr => 0 | .elem => 1 | .lit _ => 2 | .dq => 3

/-- The first 32-bit word of an L-form instruction (R101). -/
def word32 (m : Bool) (op : BitVec 8) (g : BitVec 6) (w : BitVec 3) (imm : BitVec 13) : BitVec 32 :=
  1#1 ++ BitVec.ofBool m ++ op ++ g ++ w ++ imm

/-- A word of strand code, low parcel first (R101). -/
def lowFirst (c : BitVec 32) : List (BitVec 16) := [c.extractLsb' 0 16, c.extractLsb' 16 16]
/-- The first word of an instruction, high parcel first (R101). -/
def highFirst (c : BitVec 32) : List (BitVec 16) := [c.extractLsb' 16 16, c.extractLsb' 0 16]

/-! ## Forms and parcels -/

/-- The parcels of a form (R98, R101 to R107). -/
def Form.parcels : Form → List (BitVec 16)
  | .short sop x w => [0#1 ++ sop ++ x ++ w]
  | .e op f =>
    highFirst (word32 f.mods.isSome op f.g f.w (BitVec.ofBool f.dst.isWin ++ f.b.code ++ f.dst.code))
      ++ (match f.mods with | some m => lowFirst m.code | none => [])
      ++ (match f.b with | .lit v => lowFirst v | _ => [])
  | .mem op f =>
    highFirst (word32 f.addr.isSome op f.g f.w (f.seg ++ f.win ++ f.d ++ 0#3))
      ++ (match f.addr with | some a => lowFirst a.code | none => [])
  | .atom op aop f =>
    highFirst (word32 f.addr.isSome op f.g f.w (f.seg ++ f.d ++ aop ++ 0#1))
      ++ (match f.addr with | some a => lowFirst a.code | none => [])
  | .plain op g w imm => highFirst (word32 false op g w imm)
  | .far op g w o => highFirst (word32 false op g w 0x1000#13) ++ lowFirst o

/-- The next word, low parcel first (R101). -/
def takeWord : List (BitVec 16) → Option (BitVec 32 × List (BitVec 16))
  | lo :: hi :: rest => some (hi ++ lo, rest)
  | _ => none

/-- The word M = 1 announces, read by `f`; none when M = 0 (R101). -/
def takeOpt {α : Type} (m : Bool) (f : BitVec 32 → Option α) (ps : List (BitVec 16)) :
    Except DecodeError (Option α × List (BitVec 16)) :=
  if m then
    match takeWord ps with
    | none => .error .truncated
    | some (c, rest) =>
      match f c with
      | none => .error .illegalField
      | some a => .ok (some a, rest)
  else .ok (none, ps)

/-- BS and the literal word (R101, R102, R152). -/
def takeBSrc (bs : BitVec 2) (ps : List (BitVec 16)) : Except DecodeError (BSrc × List (BitVec 16)) :=
  if bs == 0 then .ok (.gpr, ps)
  else if bs == 1 then .ok (.elem, ps)
  else if bs == 2 then
    match takeWord ps with
    | none => .error .truncated
    | some (v, rest) => .ok (.lit v, rest)
  else .ok (.dq, ps)

/-- bz to call may carry a literal offset (R106). -/
def isOffsetBranch (op : BitVec 8) : Bool := decide (0x90 ≤ op.toNat ∧ op.toNat ≤ 0x95)

/-- The form of L-form parcels after the first word (R101 to R107). -/
def Form.ofWord (c : BitVec 32) (ps : List (BitVec 16)) : Except DecodeError (Form × List (BitVec 16)) :=
  let m := c.getLsbD 30
  let op := c.extractLsb' 22 8
  let g := c.extractLsb' 16 6
  let w := c.extractLsb' 13 3
  let imm := c.extractLsb' 0 13
  if op.toNat ≤ 0x6D then
    match takeOpt m Modifier.ofCode ps with
    | .error r => .error r
    | .ok (mods, ps) =>
      match takeBSrc (c.extractLsb' 10 2) ps with
      | .error r => .error r
      | .ok (b, ps) =>
        match Dst.ofCode (c.getLsbD 12) (c.extractLsb' 0 10) with
        | none => .error .illegalField
        | some dst => .ok (.e op { mods := mods, g := g, w := w, b := b, dst := dst }, ps)
  else if op.toNat ≤ 0x83 ∨ op = 0x8B#8 then
    if c.extractLsb' 0 3 == 0 then
      match takeOpt m AddrWord.ofCode ps with
      | .error r => .error r
      | .ok (a, ps) =>
        .ok (.mem op { addr := a, g := g, w := w, seg := c.extractLsb' 10 3, win := c.extractLsb' 8 2, d := c.extractLsb' 3 5 }, ps)
    else .error .illegalField
  else if op.toNat ≤ 0x89 then
    if c.getLsbD 0 then .error .illegalField
    else
      match takeOpt m AddrWord.ofCode ps with
      | .error r => .error r
      | .ok (a, ps) =>
        .ok (.atom op (c.extractLsb' 1 4)
          { addr := a, g := g, w := w, seg := c.extractLsb' 10 3, d := c.extractLsb' 5 5 }, ps)
  else if m then .error .illegalField
  else if isOffsetBranch op && imm == 0x1000#13 then
    match takeWord ps with
    | none => .error .truncated
    | some (o, rest) => .ok (.far op g w o, rest)
  else .ok (.plain op g w imm, ps)

/-- The form at the head of strand code (R97). -/
def Form.read : List (BitVec 16) → Except DecodeError (Form × List (BitVec 16))
  | [] => .error .truncated
  | p :: rest =>
    if p.getLsbD 15 then
      match rest with
      | [] => .error .truncated
      | q :: rest => Form.ofWord (p ++ q) rest
    else .ok (.short (p.extractLsb' 9 6) (p.extractLsb' 3 6) (p.extractLsb' 0 3), rest)

/-! ## The opcode maps

The compiler's run time cannot build a constructor with fields whose number is above 244, and `Instr` has 439, so what builds
one is marked noncomputable; Lean's kernel evaluates it. -/

/-- An optional field, or the error for a field with no meaning. -/
def orIllegal (o : Option Instr) : Except DecodeError Instr := match o with | some i => .ok i | none => .error .illegalField

noncomputable section

/-- op8 0x00 to 0x6D whose instruction takes the E-class fields as they stand (R108). -/
def eClass (op : BitVec 8) : Option (EFields → Instr) :=
  match op with
  | 0x00#8 => some .add
  | 0x01#8 => some .sub
  | 0x02#8 => some .rsub
  | 0x03#8 => some .mul
  | 0x04#8 => some .mulhs
  | 0x05#8 => some .mulhn
  | 0x06#8 => some .mad
  | 0x07#8 => some .mins
  | 0x08#8 => some .maxs
  | 0x09#8 => some .minn
  | 0x0a#8 => some .maxn
  | 0x0b#8 => some .and
  | 0x0c#8 => some .or
  | 0x0d#8 => some .xor
  | 0x0e#8 => some .andn
  | 0x0f#8 => some .shl
  | 0x10#8 => some .shrn
  | 0x11#8 => some .shrs
  | 0x12#8 => some .rol
  | 0x13#8 => some .popc
  | 0x14#8 => some .clz
  | 0x15#8 => some .brev
  | 0x16#8 => some .bfxs
  | 0x17#8 => some .bfxn
  | 0x18#8 => some .bfi
  | 0x19#8 => some .lea
  | 0x1a#8 => some .ceq
  | 0x1b#8 => some .cne
  | 0x1c#8 => some .clts
  | 0x1d#8 => some .cles
  | 0x1e#8 => some .cltn
  | 0x1f#8 => some .clen
  | 0x20#8 => some .fadd
  | 0x21#8 => some .fsub
  | 0x22#8 => some .fmul
  | 0x23#8 => some .ffma
  | 0x24#8 => some .ffms
  | 0x25#8 => some .fnma
  | 0x26#8 => some .fmin
  | 0x27#8 => some .fmax
  | 0x28#8 => some .fminnm
  | 0x29#8 => some .fmaxnm
  | 0x2a#8 => some .fceq
  | 0x2b#8 => some .fclt
  | 0x2c#8 => some .fcle
  | 0x2d#8 => some .fcun
  | 0x2e#8 => some .fsel
  | 0x2f#8 => some .fcpsgn
  | 0x30#8 => some .ffloor
  | 0x31#8 => some .fceil
  | 0x32#8 => some .ftrunc
  | 0x33#8 => some .frnd
  | 0x34#8 => some .fsacc
  | 0x35#8 => some .hadd2
  | 0x36#8 => some .hmul2
  | 0x37#8 => some .hfma2
  | 0x38#8 => some .badd2
  | 0x39#8 => some .bmul2
  | 0x3a#8 => some .bfma2
  | 0x40#8 => some .cvtF32S32
  | 0x41#8 => some .cvtF32N32
  | 0x42#8 => some .cvtS32F32
  | 0x43#8 => some .cvtN32F32
  | 0x44#8 => some .cvtF32F16
  | 0x45#8 => some .cvtF16F32
  | 0x46#8 => some .cvtF32Bf16
  | 0x47#8 => some .cvtBf16F32
  | 0x48#8 => some .cvtF32E4m3
  | 0x49#8 => some .cvtE4m3F32
  | 0x4a#8 => some .cvtF32E5m2
  | 0x4b#8 => some .cvtE5m2F32
  | 0x4c#8 => some .cvtF32Nf
  | 0x4d#8 => some .cvtNfF32
  | 0x4e#8 => some .pack4
  | 0x4f#8 => some .unpk4
  | 0x50#8 => some .rcpsd
  | 0x51#8 => some .rsqsd
  | 0x52#8 => some .rcp
  | 0x53#8 => some .rsq
  | 0x54#8 => some .ex2
  | 0x55#8 => some .lg2
  | 0x56#8 => some .sinpi
  | 0x57#8 => some .cospi
  | 0x58#8 => some .tanh
  | 0x59#8 => some .sigm
  | 0x5a#8 => some .rmax
  | 0x5b#8 => some .rsum
  | 0x5c#8 => some .cmax
  | 0x5d#8 => some .csum
  | 0x5e#8 => some .mskr
  | 0x5f#8 => some .ex2m
  | 0x60#8 => some .mov
  | 0x61#8 => some .movw
  | 0x64#8 => some .bcast
  | 0x65#8 => some .iota
  | 0x66#8 => some .clr
  | 0x67#8 => some .perm
  | 0x68#8 => some .shfx
  | 0x69#8 => some .shup
  | 0x6a#8 => some .shdn
  | _ => none

/-- put, drop, vote, sread and lend, whose E-class fields have meanings of their own (R102, R179). -/
def eSpecial (op : BitVec 8) (f : EFields) : Except DecodeError Instr :=
  match op, f.mods, f.dst with
  | 0x62#8, none, .one d x => if f.b == .gpr && x.extractLsb' 3 2 == 0 then .ok (.put f.g f.w d (x.extractLsb' 0 3)) else .error .illegalField
  | 0x63#8, none, .one d x => if f.b == .gpr && d == 0 && x == 0 then .ok (.drop f.g f.w) else .error .illegalField
  | 0x6b#8, none, .one d x =>
    if x == 0 then .ok (.voteAny { g := f.g, w := f.w, b := f.b, d := d })
    else if x == 1 then .ok (.voteAll { g := f.g, w := f.w, b := f.b, d := d })
    else if x == 2 then .ok (.voteBallot { g := f.g, w := f.w, b := f.b, d := d })
    else .error .illegalField
  | 0x6c#8, none, .one d x => if f.b == .gpr && f.g == 0 then .ok (.sread f.w d x) else .error .illegalField
  | 0x6d#8, none, .one d x => if f.b == .gpr && f.g == 0 && d == 0 && x == 0 then .ok (.lend f.w) else .error .illegalField
  | 0x62#8, _, _ | 0x63#8, _, _ | 0x6b#8, _, _ | 0x6c#8, _, _ | 0x6d#8, _, _ => .error .illegalField
  | _, _, _ => .error .reservedOpcode

/-- Loads, stores, pf by its WIN, and cwb (R105, R108). -/
def memClass (op : BitVec 8) (f : MemFields) : Except DecodeError Instr :=
  match op with
  | 0x70#8 => .ok (.ldB8s f)
  | 0x71#8 => .ok (.ldB8z f)
  | 0x72#8 => .ok (.ldB16s f)
  | 0x73#8 => .ok (.ldB16z f)
  | 0x74#8 => .ok (.ldB32 f)
  | 0x75#8 => .ok (.ldB64 f)
  | 0x76#8 => .ok (.ldV16 f)
  | 0x77#8 => .ok (.ldV32 f)
  | 0x78#8 => .ok (.ldBf16v f)
  | 0x79#8 => .ok (.ldNfv f)
  | 0x7c#8 => .ok (.stB8 f)
  | 0x7d#8 => .ok (.stB16 f)
  | 0x7e#8 => .ok (.stB32 f)
  | 0x7f#8 => .ok (.stB64 f)
  | 0x80#8 => .ok (.stV16 f)
  | 0x81#8 => .ok (.stV32 f)
  | 0x82#8 => .ok (.stBf16v f)
  | 0x83#8 => .ok (.stNfv f)
  | 0x8b#8 => .ok (.cwb f)
  | 0x7a#8 => if f.win == 0 then .ok (.pf f) else if f.win == 1 then .ok (.pfL2 f) else .error .illegalField
  | _ => .error .reservedOpcode

/-- The atomics and reductions by op8 and AOP (R105, R108). -/
def atomClass (op : BitVec 8) (aop : BitVec 4) : Option (AtomFields → Instr) :=
  match op, aop with
  | 0x84#8, 0#4 => some .atomAdd
  | 0x84#8, 1#4 => some .atomAnd
  | 0x84#8, 2#4 => some .atomOr
  | 0x84#8, 3#4 => some .atomXor
  | 0x84#8, 4#4 => some .atomMins
  | 0x84#8, 5#4 => some .atomMaxs
  | 0x84#8, 6#4 => some .atomMinn
  | 0x84#8, 7#4 => some .atomMaxn
  | 0x84#8, 8#4 => some .atomXchg
  | 0x85#8, 0#4 => some .atomfAdd
  | 0x85#8, 1#4 => some .atomfMin
  | 0x85#8, 2#4 => some .atomfMax
  | 0x86#8, 0#4 => some .cas
  | 0x87#8, 0#4 => some .cas64
  | 0x88#8, 0#4 => some .redAdd
  | 0x88#8, 1#4 => some .redAnd
  | 0x88#8, 2#4 => some .redOr
  | 0x88#8, 3#4 => some .redXor
  | 0x88#8, 4#4 => some .redMins
  | 0x88#8, 5#4 => some .redMaxs
  | 0x88#8, 6#4 => some .redMinn
  | 0x88#8, 7#4 => some .redMaxn
  | 0x89#8, 0#4 => some .redfAdd
  | 0x89#8, 1#4 => some .redfMin
  | 0x89#8, 2#4 => some .redfMax
  | 0x89#8, 3#4 => some .redfOrd
  | _, _ => none

/-- The branch offset field of bra to call, and the fence, branch, sync and system classes (R105 to R108). -/
def plainClass (op : BitVec 8) (g : BitVec 6) (w : BitVec 3) (imm : BitVec 13) : Except DecodeError Instr :=
  let noG (i : Instr) : Except DecodeError Instr := if g == 0 then .ok i else .error .illegalField
  let none0 (i : Instr) : Except DecodeError Instr := if g == 0 && imm == 0 then .ok i else .error .illegalField
  let d5 := imm.extractLsb' 5 5
  match op with
  | 0x8a#8 =>
    if g == 0 && imm.extractLsb' 0 11 == 0 then
      if imm.extractLsb' 11 2 == 0 then .ok (.fenceGrp w) else if imm.extractLsb' 11 2 == 1 then .ok (.fenceDev w)
      else if imm.extractLsb' 11 2 == 2 then .ok (.fenceSys w) else .error .illegalField
    else .error .illegalField
  | 0x90#8 => noG (.bra w imm)
  | 0x91#8 => .ok (.bz g w imm)
  | 0x92#8 => .ok (.bnz g w imm)
  | 0x93#8 => .ok (.bez g w imm)
  | 0x94#8 => .ok (.benz g w imm)
  | 0x95#8 => noG (.call w imm)
  | 0x96#8 => if imm.extractLsb' 5 8 == 0 then noG (.callx w (imm.extractLsb' 0 5)) else .error .illegalField
  | 0x97#8 => none0 (.ret w)
  | 0x98#8 => none0 (.blk w)
  | 0x99#8 => none0 (.strandEnd w)
  | 0x9a#8 => if imm.extractLsb' 5 8 == 0 then noG (.exit w (imm.extractLsb' 0 5)) else .error .illegalField
  | 0x9b#8 => noG (.trap w imm)
  | 0x9c#8 => noG (.brk w imm)
  | 0xa0#8 => noG (.bara w (imm.extractLsb' 9 4) (imm.extractLsb' 0 9))
  | 0xa1#8 => if imm.extractLsb' 0 9 == 0 then noG (.barw w (imm.extractLsb' 9 4)) else .error .illegalField
  | 0xa2#8 => noG (.bars w (imm.extractLsb' 9 4) (imm.extractLsb' 0 9))
  | 0xa3#8 => noG (.barx w (imm.extractLsb' 9 4) (imm.extractLsb' 0 9))
  | 0xa4#8 => if imm.extractLsb' 10 3 == 0 && imm.extractLsb' 0 5 == 0 then .ok (.sexp g w d5) else .error .illegalField
  | 0xa5#8 => if imm.extractLsb' 10 3 == 0 && imm.extractLsb' 0 5 == 0 then .ok (.sarr g w d5) else .error .illegalField
  | 0xa6#8 =>
    if imm.extractLsb' 10 3 == 0 && imm.extractLsb' 1 4 == 0 then
      if imm.getLsbD 0 then .ok (.swaitGe g w d5) else .ok (.swait g w d5)
    else .error .illegalField
  | 0xa7#8 => if imm.extractLsb' 4 9 == 0 then noG (.evpost w (imm.extractLsb' 0 4)) else .error .illegalField
  | 0xb0#8 => none0 (.nop w)
  | 0xb1#8 => none0 (.ifence w)
  | 0xb2#8 =>
    if imm.extractLsb' 10 3 == 0 && imm.extractLsb' 1 4 == 0 then
      if imm.getLsbD 0 then noG (.stflagClr w d5) else noG (.stflag w d5)
    else .error .illegalField
  | 0xb3#8 =>
    if imm.extractLsb' 10 3 == 0 && imm.extractLsb' 1 4 == 0 then
      if imm.getLsbD 0 then noG (.hintUrgent w d5) else noG (.hintYield w d5)
    else .error .illegalField
  | _ => .error .reservedOpcode

/-- The branches with a literal offset (R106). -/
def farClass (op : BitVec 8) (g : BitVec 6) (w : BitVec 3) (o : BitVec 32) : Except DecodeError Instr :=
  match op with
  | 0x90#8 => if g == 0 then .ok (.braLong w o) else .error .illegalField
  | 0x91#8 => .ok (.bzLong g w o)
  | 0x92#8 => .ok (.bnzLong g w o)
  | 0x93#8 => .ok (.bezLong g w o)
  | 0x94#8 => .ok (.benzLong g w o)
  | 0x95#8 => if g == 0 then .ok (.callLong w o) else .error .illegalField
  | _ => .error .reservedOpcode

/-- The short map (R100); SOP 0x38 to 0x3F are reserved, and a short form without a field needs X6 = 0. -/
def shortClass (sop x : BitVec 6) (w : BitVec 3) : Except DecodeError Instr :=
  match sop with
  | 0x00#6 => .ok (.sAddG x w)
  | 0x01#6 => .ok (.sSubG x w)
  | 0x02#6 => .ok (.sMulG x w)
  | 0x03#6 => .ok (.sMadG x w)
  | 0x04#6 => .ok (.sAndG x w)
  | 0x05#6 => .ok (.sOrG x w)
  | 0x06#6 => .ok (.sXorG x w)
  | 0x07#6 => .ok (.sShlG x w)
  | 0x08#6 => .ok (.sShrnG x w)
  | 0x09#6 => .ok (.sShrsG x w)
  | 0x0a#6 => .ok (.sMinsG x w)
  | 0x0b#6 => .ok (.sMaxsG x w)
  | 0x0c#6 => .ok (.sCeqG x w)
  | 0x0d#6 => .ok (.sCltsG x w)
  | 0x0e#6 => .ok (.sCltnG x w)
  | 0x0f#6 => .ok (.sLeaG x w)
  | 0x10#6 => .ok (.sAddImm x w)
  | 0x11#6 => .ok (.sAndImm x w)
  | 0x12#6 => .ok (.sShlImm x w)
  | 0x13#6 => .ok (.sShrnImm x w)
  | 0x14#6 => .ok (.sShrsImm x w)
  | 0x15#6 => .ok (.sCeqImm x w)
  | 0x16#6 => .ok (.sCltsImm x w)
  | 0x17#6 => .ok (.sMovImm x w)
  | 0x18#6 => .ok (.sFaddG x w)
  | 0x19#6 => .ok (.sFsubG x w)
  | 0x1a#6 => .ok (.sFmulG x w)
  | 0x1b#6 => .ok (.sFfmaG x w)
  | 0x1c#6 => .ok (.sFfmsG x w)
  | 0x1d#6 => .ok (.sFminG x w)
  | 0x1e#6 => .ok (.sFmaxG x w)
  | 0x1f#6 => .ok (.sFcltG x w)
  | 0x20#6 => .ok (.sFcleG x w)
  | 0x21#6 => .ok (.sFsaccG x w)
  | 0x22#6 => .ok (.sMovG x w)
  | 0x23#6 => .ok (.sPut1 x w)
  | 0x24#6 => .ok (.sPutSticky x w)
  | 0x25#6 => .ok (.sLdB32 x w)
  | 0x26#6 => .ok (.sStB32 x w)
  | 0x27#6 => .ok (.sLdV16 x w)
  | 0x28#6 => .ok (.sStV16 x w)
  | 0x29#6 => .ok (.sLdB64 x w)
  | 0x2a#6 => .ok (.sStB64 x w)
  | 0x2b#6 => .ok (.sBra x w)
  | 0x2c#6 => .ok (.sBez x w)
  | 0x2d#6 => .ok (.sBenz x w)
  | 0x2e#6 => if x == 0 then .ok (.sBlk w) else .error .illegalField
  | 0x2f#6 => if x == 0 then .ok (.sEnd w) else .error .illegalField
  | 0x30#6 => if x == 0 then .ok (.sNop w) else .error .illegalField
  | 0x31#6 => .ok (.sCvtF32S32 x w)
  | 0x32#6 => .ok (.sCvtS32F32 x w)
  | 0x33#6 => .ok (.sRsqsdG x w)
  | 0x34#6 => .ok (.sRcpsdG x w)
  | 0x35#6 => .ok (.sEx2G x w)
  | 0x36#6 => .ok (.sDrop x w)
  | 0x37#6 => if x == 0 then .ok (.sRet w) else .error .illegalField
  | _ => .error .reservedShort

/-- The instruction a form names (R100, R102, R105 to R108). -/
def Form.instr : Form → Except DecodeError Instr
  | .short sop x w => shortClass sop x w
  | .e op f => match eClass op with | some mk => .ok (mk f) | none => eSpecial op f
  | .mem op f => memClass op f
  | .atom op aop f => match atomClass op aop with | some mk => .ok (mk f) | none => .error .illegalField
  | .plain op g w imm => plainClass op g w imm
  | .far op g w o => farClass op g w o

/-- The strand instruction at the head of a parcel stream, and the parcels after it (R97). Whether its fields are accepted
(R109) is `Instr.wf`, which the machine asks at issue. -/
def decodeStrand (ps : List (BitVec 16)) : Except DecodeError (Instr × List (BitVec 16)) :=
  match Form.read ps with
  | .error r => .error r
  | .ok (f, rest) =>
    match f.instr with
    | .error r => .error r
    | .ok i => .ok (i, rest)

/-! ## The teller's words (R110 to R112) -/

/-- The TR layout (R110). -/
def wordTR (op : BitVec 8) (d a b fn : BitVec 6) : Word := op ++ d ++ a ++ b ++ fn
/-- The TI layout, and TB with SA and SB in its register fields (R110). -/
def wordTI (op : BitVec 8) (d a : BitVec 6) (i : BitVec 12) : Word := op ++ d ++ a ++ i
/-- The TU layout (R110). -/
def wordTU (op : BitVec 8) (d : BitVec 6) (i : BitVec 18) : Word := op ++ d ++ i

/-- `tal` by FN (R111, R258). -/
def talFn (fn : BitVec 6) : Option (BitVec 6 → BitVec 6 → BitVec 6 → Instr) :=
  match fn with
  | 0#6 => some .talAdd
  | 1#6 => some .talSub
  | 2#6 => some .talMul
  | 3#6 => some .talMulhs
  | 4#6 => some .talAnd
  | 5#6 => some .talOr
  | 6#6 => some .talXor
  | 7#6 => some .talShl
  | 8#6 => some .talShrn
  | 9#6 => some .talShrs
  | 10#6 => some .talMins
  | 11#6 => some .talMaxs
  | 12#6 => some .talMinn
  | 13#6 => some .talMaxn
  | 14#6 => some .talSlt
  | 15#6 => some .talSltn
  | _ => none

/-- `tatom` by FN (R111, R264). -/
def tatomFn (fn : BitVec 6) : Option (BitVec 6 → BitVec 6 → BitVec 6 → Instr) :=
  match fn with
  | 0#6 => some .tatomAdd
  | 1#6 => some .tatomAnd
  | 2#6 => some .tatomOr
  | 3#6 => some .tatomXor
  | 4#6 => some .tatomMins
  | 5#6 => some .tatomMaxs
  | 6#6 => some .tatomMinn
  | 7#6 => some .tatomMaxn
  | 8#6 => some .tatomXchg
  | 9#6 => some .tatomCas
  | _ => none

/-- A teller word's instruction by its op (R111); fields it does not use must be zero (R112). -/
def tellerMap (c : Word) : Except DecodeError Instr :=
  let d := c.extractLsb' 18 6
  let a := c.extractLsb' 12 6
  let b := c.extractLsb' 6 6
  let fn := c.extractLsb' 0 6
  let i12 := c.extractLsb' 0 12
  let i18 := c.extractLsb' 0 18
  let need (p : Bool) (i : Instr) : Except DecodeError Instr := if p then .ok i else .error .illegalField
  match c.extractLsb' 24 8 with
  | 0xc0#8 => orIllegal ((talFn fn).map fun mk => mk d a b)
  | 0xc1#8 => .ok (.taddi d a i12)
  | 0xc2#8 => .ok (.tandi d a i12)
  | 0xc3#8 => .ok (.tori d a i12)
  | 0xc4#8 => .ok (.txori d a i12)
  | 0xc5#8 => need (c.extractLsb' 5 7 == 0) (.tshli d a (c.extractLsb' 0 5))
  | 0xc6#8 => need (c.extractLsb' 5 7 == 0) (.tshri d a (c.extractLsb' 0 5))
  | 0xc7#8 => .ok (.tslti d a i12)
  | 0xc8#8 => .ok (.tlui d i18)
  | 0xc9#8 => if fn == 0 then .ok (.tld d a b) else need (fn == 1) (.tldD d a b)
  | 0xca#8 => if fn == 0 then .ok (.tst d a b) else need (fn == 1) (.tstD d a b)
  | 0xcb#8 => orIllegal ((tatomFn fn).map fun mk => mk d a b)
  | 0xcc#8 => .ok (.tbeq d a i12)
  | 0xcd#8 => .ok (.tbne d a i12)
  | 0xce#8 => .ok (.tblt d a i12)
  | 0xcf#8 => .ok (.tbge d a i12)
  | 0xd0#8 => need (d == 0) (.tjmp i18)
  | 0xd1#8 => need (d == 0) (.tcall i18)
  | 0xd2#8 => need (d == 0 && i18 == 0) .tret
  | 0xd3#8 => need (b == 0 && fn == 0) (.push d a)
  | 0xd4#8 => need (d == 0 && a == 0) (.tqwait i12)
  | 0xd5#8 => need (d == 0 && fn == 0) (.dqput a b)
  | 0xd6#8 => if b == 0 && fn == 0 then .ok (.evwait d a) else need (b == 0 && fn == 1) (.evwaitClr d a)
  | 0xd7#8 => need (d == 0 && fn == 0) (.evroute a b)
  | 0xd8#8 => need (fn == 0) (.tswait d a b)
  | 0xd9#8 => need (d == 0 && fn == 0) (.tsexp a b)
  | 0xda#8 => need (fn == 0) (.frz d a b)
  | 0xdb#8 => need (d == 0 && b == 0 && fn == 0) (.thaw a)
  | 0xdc#8 => need (d == 0 && b == 0 && fn == 0) (.thwait a)
  | 0xdd#8 => need (d == 0 && b == 0 && fn == 0) (.publ a)
  | 0xde#8 => need (d == 0 && b == 0 && c.extractLsb' 3 3 == 0) (.setfmt a (c.extractLsb' 0 3))
  | 0xdf#8 => need (d == 0 && b == 0 && c.extractLsb' 3 3 == 0) (.setxv a (c.extractLsb' 0 3))
  | 0xe0#8 => need (a == 0 && b == 0 && fn == 0) (.ratio d)
  | 0xe1#8 => need (d == 0 && b == 0 && fn == 0) (.rreq a)
  | 0xe2#8 =>
    if d == 0 && b == 0 && !c.getLsbD 5 then
      if c.getLsbD 0 then .ok (.tbarSync a (c.extractLsb' 1 4)) else .ok (.tbarArv a (c.extractLsb' 1 4))
    else .error .illegalField
  | 0xe3#8 => .ok (.tread d i18)
  | 0xe4#8 => need (d == 0 && i18 == 0) .gdone
  | 0xe5#8 => need (d == 0 && c.extractLsb' 13 5 == 0) (.ttrap (c.extractLsb' 0 13))
  | 0xe6#8 =>
    if d == 0 then
      if i18 == 0 then .ok .tfenceGrp else if i18 == 1 then .ok .tfenceDev else need (i18 == 2) .tfenceSys
    else .error .illegalField
  | 0xe7#8 => need (d == 0 && c.extractLsb' 1 17 == 0) (.sfmode (c.extractLsb' 0 1))
  | 0xe8#8 => need (d == 0 && i18 == 0) .tnop
  | _ => .error .illegalTellerOp

/-- The instruction of a teller word (R110 to R112). -/
def decodeTeller (c : Word) : Except DecodeError Instr := tellerMap c

/-! ## The encoder -/

/-- The form of a strand instruction; none for teller instructions and events (R100, R102, R105 to R108). -/
def Instr.form : Instr → Option Form
  | .add f => some (.e 0x00 f)
  | .sub f => some (.e 0x01 f)
  | .rsub f => some (.e 0x02 f)
  | .mul f => some (.e 0x03 f)
  | .mulhs f => some (.e 0x04 f)
  | .mulhn f => some (.e 0x05 f)
  | .mad f => some (.e 0x06 f)
  | .mins f => some (.e 0x07 f)
  | .maxs f => some (.e 0x08 f)
  | .minn f => some (.e 0x09 f)
  | .maxn f => some (.e 0x0a f)
  | .and f => some (.e 0x0b f)
  | .or f => some (.e 0x0c f)
  | .xor f => some (.e 0x0d f)
  | .andn f => some (.e 0x0e f)
  | .shl f => some (.e 0x0f f)
  | .shrn f => some (.e 0x10 f)
  | .shrs f => some (.e 0x11 f)
  | .rol f => some (.e 0x12 f)
  | .popc f => some (.e 0x13 f)
  | .clz f => some (.e 0x14 f)
  | .brev f => some (.e 0x15 f)
  | .bfxs f => some (.e 0x16 f)
  | .bfxn f => some (.e 0x17 f)
  | .bfi f => some (.e 0x18 f)
  | .lea f => some (.e 0x19 f)
  | .ceq f => some (.e 0x1a f)
  | .cne f => some (.e 0x1b f)
  | .clts f => some (.e 0x1c f)
  | .cles f => some (.e 0x1d f)
  | .cltn f => some (.e 0x1e f)
  | .clen f => some (.e 0x1f f)
  | .fadd f => some (.e 0x20 f)
  | .fsub f => some (.e 0x21 f)
  | .fmul f => some (.e 0x22 f)
  | .ffma f => some (.e 0x23 f)
  | .ffms f => some (.e 0x24 f)
  | .fnma f => some (.e 0x25 f)
  | .fmin f => some (.e 0x26 f)
  | .fmax f => some (.e 0x27 f)
  | .fminnm f => some (.e 0x28 f)
  | .fmaxnm f => some (.e 0x29 f)
  | .fceq f => some (.e 0x2a f)
  | .fclt f => some (.e 0x2b f)
  | .fcle f => some (.e 0x2c f)
  | .fcun f => some (.e 0x2d f)
  | .fsel f => some (.e 0x2e f)
  | .fcpsgn f => some (.e 0x2f f)
  | .ffloor f => some (.e 0x30 f)
  | .fceil f => some (.e 0x31 f)
  | .ftrunc f => some (.e 0x32 f)
  | .frnd f => some (.e 0x33 f)
  | .fsacc f => some (.e 0x34 f)
  | .hadd2 f => some (.e 0x35 f)
  | .hmul2 f => some (.e 0x36 f)
  | .hfma2 f => some (.e 0x37 f)
  | .badd2 f => some (.e 0x38 f)
  | .bmul2 f => some (.e 0x39 f)
  | .bfma2 f => some (.e 0x3a f)
  | .cvtF32S32 f => some (.e 0x40 f)
  | .cvtF32N32 f => some (.e 0x41 f)
  | .cvtS32F32 f => some (.e 0x42 f)
  | .cvtN32F32 f => some (.e 0x43 f)
  | .cvtF32F16 f => some (.e 0x44 f)
  | .cvtF16F32 f => some (.e 0x45 f)
  | .cvtF32Bf16 f => some (.e 0x46 f)
  | .cvtBf16F32 f => some (.e 0x47 f)
  | .cvtF32E4m3 f => some (.e 0x48 f)
  | .cvtE4m3F32 f => some (.e 0x49 f)
  | .cvtF32E5m2 f => some (.e 0x4a f)
  | .cvtE5m2F32 f => some (.e 0x4b f)
  | .cvtF32Nf f => some (.e 0x4c f)
  | .cvtNfF32 f => some (.e 0x4d f)
  | .pack4 f => some (.e 0x4e f)
  | .unpk4 f => some (.e 0x4f f)
  | .rcpsd f => some (.e 0x50 f)
  | .rsqsd f => some (.e 0x51 f)
  | .rcp f => some (.e 0x52 f)
  | .rsq f => some (.e 0x53 f)
  | .ex2 f => some (.e 0x54 f)
  | .lg2 f => some (.e 0x55 f)
  | .sinpi f => some (.e 0x56 f)
  | .cospi f => some (.e 0x57 f)
  | .tanh f => some (.e 0x58 f)
  | .sigm f => some (.e 0x59 f)
  | .rmax f => some (.e 0x5a f)
  | .rsum f => some (.e 0x5b f)
  | .cmax f => some (.e 0x5c f)
  | .csum f => some (.e 0x5d f)
  | .mskr f => some (.e 0x5e f)
  | .ex2m f => some (.e 0x5f f)
  | .mov f => some (.e 0x60 f)
  | .movw f => some (.e 0x61 f)
  | .bcast f => some (.e 0x64 f)
  | .iota f => some (.e 0x65 f)
  | .clr f => some (.e 0x66 f)
  | .perm f => some (.e 0x67 f)
  | .shfx f => some (.e 0x68 f)
  | .shup f => some (.e 0x69 f)
  | .shdn f => some (.e 0x6a f)
  | .put g w d k => some (.e 0x62 { mods := none, g := g, w := w, b := .gpr, dst := .one d (0#2 ++ k) })
  | .drop g w => some (.e 0x63 { mods := none, g := g, w := w, b := .gpr, dst := .one 0 0 })
  | .voteAny f => some (.e 0x6b { mods := none, g := f.g, w := f.w, b := f.b, dst := .one f.d 0 })
  | .voteAll f => some (.e 0x6b { mods := none, g := f.g, w := f.w, b := f.b, dst := .one f.d 1 })
  | .voteBallot f => some (.e 0x6b { mods := none, g := f.g, w := f.w, b := f.b, dst := .one f.d 2 })
  | .sread w d x => some (.e 0x6c { mods := none, g := 0, w := w, b := .gpr, dst := .one d x })
  | .lend w => some (.e 0x6d { mods := none, g := 0, w := w, b := .gpr, dst := .one 0 0 })
  | .ldB8s f => some (.mem 0x70 f)
  | .ldB8z f => some (.mem 0x71 f)
  | .ldB16s f => some (.mem 0x72 f)
  | .ldB16z f => some (.mem 0x73 f)
  | .ldB32 f => some (.mem 0x74 f)
  | .ldB64 f => some (.mem 0x75 f)
  | .ldV16 f => some (.mem 0x76 f)
  | .ldV32 f => some (.mem 0x77 f)
  | .ldBf16v f => some (.mem 0x78 f)
  | .ldNfv f => some (.mem 0x79 f)
  | .stB8 f => some (.mem 0x7c f)
  | .stB16 f => some (.mem 0x7d f)
  | .stB32 f => some (.mem 0x7e f)
  | .stB64 f => some (.mem 0x7f f)
  | .stV16 f => some (.mem 0x80 f)
  | .stV32 f => some (.mem 0x81 f)
  | .stBf16v f => some (.mem 0x82 f)
  | .stNfv f => some (.mem 0x83 f)
  | .cwb f => some (.mem 0x8b f)
  | .pf f | .pfL2 f => some (.mem 0x7a f)
  | .atomAdd f => some (.atom 0x84 0 f)
  | .atomAnd f => some (.atom 0x84 1 f)
  | .atomOr f => some (.atom 0x84 2 f)
  | .atomXor f => some (.atom 0x84 3 f)
  | .atomMins f => some (.atom 0x84 4 f)
  | .atomMaxs f => some (.atom 0x84 5 f)
  | .atomMinn f => some (.atom 0x84 6 f)
  | .atomMaxn f => some (.atom 0x84 7 f)
  | .atomXchg f => some (.atom 0x84 8 f)
  | .atomfAdd f => some (.atom 0x85 0 f)
  | .atomfMin f => some (.atom 0x85 1 f)
  | .atomfMax f => some (.atom 0x85 2 f)
  | .cas f => some (.atom 0x86 0 f)
  | .cas64 f => some (.atom 0x87 0 f)
  | .redAdd f => some (.atom 0x88 0 f)
  | .redAnd f => some (.atom 0x88 1 f)
  | .redOr f => some (.atom 0x88 2 f)
  | .redXor f => some (.atom 0x88 3 f)
  | .redMins f => some (.atom 0x88 4 f)
  | .redMaxs f => some (.atom 0x88 5 f)
  | .redMinn f => some (.atom 0x88 6 f)
  | .redMaxn f => some (.atom 0x88 7 f)
  | .redfAdd f => some (.atom 0x89 0 f)
  | .redfMin f => some (.atom 0x89 1 f)
  | .redfMax f => some (.atom 0x89 2 f)
  | .redfOrd f => some (.atom 0x89 3 f)
  | .fenceGrp w => some (.plain 0x8a 0 w (0#2 ++ 0#11))
  | .fenceDev w => some (.plain 0x8a 0 w (1#2 ++ 0#11))
  | .fenceSys w => some (.plain 0x8a 0 w (2#2 ++ 0#11))
  | .bra w o => some (.plain 0x90 0 w o)
  | .braLong w o => some (.far 0x90 0 w o)
  | .bz g w o => some (.plain 0x91 g w o)
  | .bzLong g w o => some (.far 0x91 g w o)
  | .bnz g w o => some (.plain 0x92 g w o)
  | .bnzLong g w o => some (.far 0x92 g w o)
  | .bez g w o => some (.plain 0x93 g w o)
  | .bezLong g w o => some (.far 0x93 g w o)
  | .benz g w o => some (.plain 0x94 g w o)
  | .benzLong g w o => some (.far 0x94 g w o)
  | .call w o => some (.plain 0x95 0 w o)
  | .callLong w o => some (.far 0x95 0 w o)
  | .callx w d => some (.plain 0x96 0 w (0#8 ++ d))
  | .ret w => some (.plain 0x97 0 w 0)
  | .blk w => some (.plain 0x98 0 w 0)
  | .strandEnd w => some (.plain 0x99 0 w 0)
  | .exit w d => some (.plain 0x9a 0 w (0#8 ++ d))
  | .trap w c => some (.plain 0x9b 0 w c)
  | .brk w c => some (.plain 0x9c 0 w c)
  | .bara w b n => some (.plain 0xa0 0 w (b ++ n))
  | .barw w b => some (.plain 0xa1 0 w (b ++ 0#9))
  | .bars w b n => some (.plain 0xa2 0 w (b ++ n))
  | .barx w b n => some (.plain 0xa3 0 w (b ++ n))
  | .sexp g w d => some (.plain 0xa4 g w (0#3 ++ d ++ 0#5))
  | .sarr g w d => some (.plain 0xa5 g w (0#3 ++ d ++ 0#5))
  | .swait g w d => some (.plain 0xa6 g w (0#3 ++ d ++ 0#5))
  | .swaitGe g w d => some (.plain 0xa6 g w (0#3 ++ d ++ 1#5))
  | .evpost w n => some (.plain 0xa7 0 w (0#9 ++ n))
  | .nop w => some (.plain 0xb0 0 w 0)
  | .ifence w => some (.plain 0xb1 0 w 0)
  | .stflag w d => some (.plain 0xb2 0 w (0#3 ++ d ++ 0#5))
  | .stflagClr w d => some (.plain 0xb2 0 w (0#3 ++ d ++ 1#5))
  | .hintYield w d => some (.plain 0xb3 0 w (0#3 ++ d ++ 0#5))
  | .hintUrgent w d => some (.plain 0xb3 0 w (0#3 ++ d ++ 1#5))
  | .sAddG x w => some (.short 0x00 x w)
  | .sSubG x w => some (.short 0x01 x w)
  | .sMulG x w => some (.short 0x02 x w)
  | .sMadG x w => some (.short 0x03 x w)
  | .sAndG x w => some (.short 0x04 x w)
  | .sOrG x w => some (.short 0x05 x w)
  | .sXorG x w => some (.short 0x06 x w)
  | .sShlG x w => some (.short 0x07 x w)
  | .sShrnG x w => some (.short 0x08 x w)
  | .sShrsG x w => some (.short 0x09 x w)
  | .sMinsG x w => some (.short 0x0a x w)
  | .sMaxsG x w => some (.short 0x0b x w)
  | .sCeqG x w => some (.short 0x0c x w)
  | .sCltsG x w => some (.short 0x0d x w)
  | .sCltnG x w => some (.short 0x0e x w)
  | .sLeaG x w => some (.short 0x0f x w)
  | .sAddImm x w => some (.short 0x10 x w)
  | .sAndImm x w => some (.short 0x11 x w)
  | .sShlImm x w => some (.short 0x12 x w)
  | .sShrnImm x w => some (.short 0x13 x w)
  | .sShrsImm x w => some (.short 0x14 x w)
  | .sCeqImm x w => some (.short 0x15 x w)
  | .sCltsImm x w => some (.short 0x16 x w)
  | .sMovImm x w => some (.short 0x17 x w)
  | .sFaddG x w => some (.short 0x18 x w)
  | .sFsubG x w => some (.short 0x19 x w)
  | .sFmulG x w => some (.short 0x1a x w)
  | .sFfmaG x w => some (.short 0x1b x w)
  | .sFfmsG x w => some (.short 0x1c x w)
  | .sFminG x w => some (.short 0x1d x w)
  | .sFmaxG x w => some (.short 0x1e x w)
  | .sFcltG x w => some (.short 0x1f x w)
  | .sFcleG x w => some (.short 0x20 x w)
  | .sFsaccG x w => some (.short 0x21 x w)
  | .sMovG x w => some (.short 0x22 x w)
  | .sPut1 x w => some (.short 0x23 x w)
  | .sPutSticky x w => some (.short 0x24 x w)
  | .sLdB32 x w => some (.short 0x25 x w)
  | .sStB32 x w => some (.short 0x26 x w)
  | .sLdV16 x w => some (.short 0x27 x w)
  | .sStV16 x w => some (.short 0x28 x w)
  | .sLdB64 x w => some (.short 0x29 x w)
  | .sStB64 x w => some (.short 0x2a x w)
  | .sBra x w => some (.short 0x2b x w)
  | .sBez x w => some (.short 0x2c x w)
  | .sBenz x w => some (.short 0x2d x w)
  | .sBlk w => some (.short 0x2e 0 w)
  | .sEnd w => some (.short 0x2f 0 w)
  | .sNop w => some (.short 0x30 0 w)
  | .sCvtF32S32 x w => some (.short 0x31 x w)
  | .sCvtS32F32 x w => some (.short 0x32 x w)
  | .sRsqsdG x w => some (.short 0x33 x w)
  | .sRcpsdG x w => some (.short 0x34 x w)
  | .sEx2G x w => some (.short 0x35 x w)
  | .sDrop x w => some (.short 0x36 x w)
  | .sRet w => some (.short 0x37 0 w)
  | .talAdd _ _ _ | .talSub _ _ _ | .talMul _ _ _ | .talMulhs _ _ _ | .talAnd _ _ _ | .talOr _ _ _ | .talXor _ _ _
  | .talShl _ _ _ | .talShrn _ _ _ | .talShrs _ _ _ | .talMins _ _ _ | .talMaxs _ _ _ | .talMinn _ _ _ | .talMaxn _ _ _
  | .talSlt _ _ _ | .talSltn _ _ _ | .taddi _ _ _ | .tandi _ _ _ | .tori _ _ _ | .txori _ _ _ | .tshli _ _ _ | .tshri _ _ _
  | .tslti _ _ _ | .tlui _ _ | .tld _ _ _ | .tldD _ _ _ | .tst _ _ _ | .tstD _ _ _ | .tatomAdd _ _ _ | .tatomAnd _ _ _
  | .tatomOr _ _ _ | .tatomXor _ _ _ | .tatomMins _ _ _ | .tatomMaxs _ _ _ | .tatomMinn _ _ _ | .tatomMaxn _ _ _
  | .tatomXchg _ _ _ | .tatomCas _ _ _ | .tbeq _ _ _ | .tbne _ _ _ | .tblt _ _ _ | .tbge _ _ _ | .tjmp _ | .tcall _ | .tret
  | .push _ _ | .tqwait _ | .dqput _ _ | .evwait _ _ | .evwaitClr _ _ | .evroute _ _ | .tswait _ _ _ | .tsexp _ _
  | .frz _ _ _ | .thaw _ | .thwait _ | .publ _ | .setfmt _ _ | .setxv _ _ | .ratio _ | .rreq _ | .tbarArv _ _ | .tbarSync _ _
  | .tread _ _ | .gdone | .ttrap _ | .tfenceGrp | .tfenceDev | .tfenceSys | .sfmode _ | .tnop | .copy _ | .gather _
  | .matrix _ | .table _ | .shadow _ | .collectReduce _ | .collectBroadcast _ | .collectAllGather _ | .collectReduceScatter _
  | .copyRunPerformed _ | .matrixStep _ | .commandComplete _ | .commandResume _ | .eventFire _ _ | .tellerWake _
  | .formBundle _ | .promote _ _ _ | .hintExpire _ _ _ | .registerPresent _ _ _ | .resultLands _ _ _ | .loadReturn _
  | .accessPerformed _ _ | .coinDeadlock _ | .threadRetire _ _ | .groupComplete _ | .codeLineFill _ _ _ | .l1ReadMiss _
  | .l1WriteMiss _ | .homeAtomic _ | .l1Eviction _ _ | .l2Eviction _ | .engineRead _ | .engineWrite _ | .l2MissTranslate _
  | .pageWalkDone _ | .remoteRequest _ | .nimbusFlit _ | .refreshSlot | .migrationStart _ _ | .migrationSwitch | .switchOut _
  | .stopColumn _ _ | .saveRecordWrite _ | .lateFault _ | .saveSlotFreed _ | .freezeRequest | .freezeRange _ _
  | .freezeAck _ _ | .thawRequest | .dropAck _ _ | .unmark _ _ | .unmarkAck _ _ | .publish _ _ | .stagingWrite _ _ _
  | .launchSubmit _ _ _ | .launchAccept | .captureInputs _ | .placeColumn | .preempt | .placementBlockTimeout
  | .launchComplete _ | .rearbitrate | .grantChange | .thermalStep _ | .telemetrySample _ _ | .sweep _ _ | .sweepDone _
  | .ptseqWrite _ _ | .replay _ _ | .replayWalk _ _ | .swmEnter _ | .swmReturn _ | .swmSwitchDone _ | .grpResume _ _
  | .grpDiscard _ _ | .biasToHost _ | .biasToDevice _ | .flipStart | .flipDone | .birsp _ _ | .hostMemRead _ _
  | .hostMemWrite _ _ | .snpData _ | .snpInv _ | .snpCur _ | .hostLineFill _ _ | .quiesceStart | .quiescePhase1Done
  | .peerPhase1 _ | .quiesceEnd | .imgcmd _ | .restore _ | .dbgStop _ _ _ | .dbgRun _ _ _ | .dbgStep _ _ _ _
  | .dbgStepExpire _ | .dbgDump _ _ | .profclr _ | .chConfigWrite _ _ | .chdump _ | .ctxCreate _ | .ctxDestroy _
  | .ringConfigWrite _ _ _ _ _ | .wsWindowWrite _ _ | .routeWrite _ | .commcfgWrite _ | .pwrcapWrite _ | .fwBegin | .fwAppend
  | .fwEnd | .attest _ | .registerWrite _ _ _ _ | .functionLevelReset | .coldReset | .flashDrop _ | .ringConsWrite _ _ _
  | .linkDown _ | .linkUp _ | .powerLoss | .illegalTellerWord _ | .migrationEpochEnd => none

/-- The word of a teller instruction; none for strand instructions and events (R110, R111). -/
def Instr.tellerWord : Instr → Option Word
  | .talAdd d a b => some (wordTR 0xc0 d a b 0)
  | .talSub d a b => some (wordTR 0xc0 d a b 1)
  | .talMul d a b => some (wordTR 0xc0 d a b 2)
  | .talMulhs d a b => some (wordTR 0xc0 d a b 3)
  | .talAnd d a b => some (wordTR 0xc0 d a b 4)
  | .talOr d a b => some (wordTR 0xc0 d a b 5)
  | .talXor d a b => some (wordTR 0xc0 d a b 6)
  | .talShl d a b => some (wordTR 0xc0 d a b 7)
  | .talShrn d a b => some (wordTR 0xc0 d a b 8)
  | .talShrs d a b => some (wordTR 0xc0 d a b 9)
  | .talMins d a b => some (wordTR 0xc0 d a b 10)
  | .talMaxs d a b => some (wordTR 0xc0 d a b 11)
  | .talMinn d a b => some (wordTR 0xc0 d a b 12)
  | .talMaxn d a b => some (wordTR 0xc0 d a b 13)
  | .talSlt d a b => some (wordTR 0xc0 d a b 14)
  | .talSltn d a b => some (wordTR 0xc0 d a b 15)
  | .taddi d a i => some (wordTI 0xc1 d a i)
  | .tandi d a i => some (wordTI 0xc2 d a i)
  | .tori d a i => some (wordTI 0xc3 d a i)
  | .txori d a i => some (wordTI 0xc4 d a i)
  | .tshli d a i => some (wordTI 0xc5 d a (0#7 ++ i))
  | .tshri d a i => some (wordTI 0xc6 d a (0#7 ++ i))
  | .tslti d a i => some (wordTI 0xc7 d a i)
  | .tlui d i => some (wordTU 0xc8 d i)
  | .tld d a b => some (wordTR 0xc9 d a b 0)
  | .tldD d a b => some (wordTR 0xc9 d a b 1)
  | .tst d a b => some (wordTR 0xca d a b 0)
  | .tstD d a b => some (wordTR 0xca d a b 1)
  | .tatomAdd d a b => some (wordTR 0xcb d a b 0)
  | .tatomAnd d a b => some (wordTR 0xcb d a b 1)
  | .tatomOr d a b => some (wordTR 0xcb d a b 2)
  | .tatomXor d a b => some (wordTR 0xcb d a b 3)
  | .tatomMins d a b => some (wordTR 0xcb d a b 4)
  | .tatomMaxs d a b => some (wordTR 0xcb d a b 5)
  | .tatomMinn d a b => some (wordTR 0xcb d a b 6)
  | .tatomMaxn d a b => some (wordTR 0xcb d a b 7)
  | .tatomXchg d a b => some (wordTR 0xcb d a b 8)
  | .tatomCas d a b => some (wordTR 0xcb d a b 9)
  | .tbeq a b o => some (wordTI 0xcc a b o)
  | .tbne a b o => some (wordTI 0xcd a b o)
  | .tblt a b o => some (wordTI 0xce a b o)
  | .tbge a b o => some (wordTI 0xcf a b o)
  | .tjmp o => some (wordTU 0xd0 0 o)
  | .tcall o => some (wordTU 0xd1 0 o)
  | .tret => some (wordTU 0xd2 0 0)
  | .push d a => some (wordTR 0xd3 d a 0 0)
  | .tqwait i => some (wordTI 0xd4 0 0 i)
  | .dqput a b => some (wordTR 0xd5 0 a b 0)
  | .evwait d a => some (wordTR 0xd6 d a 0 0)
  | .evwaitClr d a => some (wordTR 0xd6 d a 0 1)
  | .evroute a b => some (wordTR 0xd7 0 a b 0)
  | .tswait d a b => some (wordTR 0xd8 d a b 0)
  | .tsexp a b => some (wordTR 0xd9 0 a b 0)
  | .frz d a b => some (wordTR 0xda d a b 0)
  | .thaw a => some (wordTR 0xdb 0 a 0 0)
  | .thwait a => some (wordTR 0xdc 0 a 0 0)
  | .publ a => some (wordTR 0xdd 0 a 0 0)
  | .setfmt a k => some (wordTR 0xde 0 a 0 (0#3 ++ k))
  | .setxv a k => some (wordTR 0xdf 0 a 0 (0#3 ++ k))
  | .ratio d => some (wordTR 0xe0 d 0 0 0)
  | .rreq a => some (wordTR 0xe1 0 a 0 0)
  | .tbarArv a b => some (wordTR 0xe2 0 a 0 (0#1 ++ b ++ 0#1))
  | .tbarSync a b => some (wordTR 0xe2 0 a 0 (0#1 ++ b ++ 1#1))
  | .tread d n => some (wordTU 0xe3 d n)
  | .gdone => some (wordTU 0xe4 0 0)
  | .ttrap c => some (wordTU 0xe5 0 (0#5 ++ c))
  | .tfenceGrp => some (wordTU 0xe6 0 0)
  | .tfenceDev => some (wordTU 0xe6 0 1)
  | .tfenceSys => some (wordTU 0xe6 0 2)
  | .sfmode m => some (wordTU 0xe7 0 (0#17 ++ m))
  | .tnop => some (wordTU 0xe8 0 0)
  | .add _ | .sub _ | .rsub _ | .mul _ | .mulhs _ | .mulhn _ | .mad _ | .mins _ | .maxs _ | .minn _ | .maxn _ | .and _
  | .or _ | .xor _ | .andn _ | .shl _ | .shrn _ | .shrs _ | .rol _ | .popc _ | .clz _ | .brev _ | .bfxs _ | .bfxn _ | .bfi _
  | .lea _ | .ceq _ | .cne _ | .clts _ | .cles _ | .cltn _ | .clen _ | .fadd _ | .fsub _ | .fmul _ | .ffma _ | .ffms _
  | .fnma _ | .fmin _ | .fmax _ | .fminnm _ | .fmaxnm _ | .fceq _ | .fclt _ | .fcle _ | .fcun _ | .fsel _ | .fcpsgn _
  | .ffloor _ | .fceil _ | .ftrunc _ | .frnd _ | .fsacc _ | .hadd2 _ | .hmul2 _ | .hfma2 _ | .badd2 _ | .bmul2 _ | .bfma2 _
  | .cvtF32S32 _ | .cvtF32N32 _ | .cvtS32F32 _ | .cvtN32F32 _ | .cvtF32F16 _ | .cvtF16F32 _ | .cvtF32Bf16 _ | .cvtBf16F32 _
  | .cvtF32E4m3 _ | .cvtE4m3F32 _ | .cvtF32E5m2 _ | .cvtE5m2F32 _ | .cvtF32Nf _ | .cvtNfF32 _ | .pack4 _ | .unpk4 _
  | .rcpsd _ | .rsqsd _ | .rcp _ | .rsq _ | .ex2 _ | .lg2 _ | .sinpi _ | .cospi _ | .tanh _ | .sigm _ | .rmax _ | .rsum _
  | .cmax _ | .csum _ | .mskr _ | .ex2m _ | .mov _ | .movw _ | .put _ _ _ _ | .drop _ _ | .bcast _ | .iota _ | .clr _
  | .perm _ | .shfx _ | .shup _ | .shdn _ | .voteAny _ | .voteAll _ | .voteBallot _ | .sread _ _ _ | .lend _ | .ldB8s _
  | .ldB8z _ | .ldB16s _ | .ldB16z _ | .ldB32 _ | .ldB64 _ | .ldV16 _ | .ldV32 _ | .ldBf16v _ | .ldNfv _ | .pf _ | .pfL2 _
  | .stB8 _ | .stB16 _ | .stB32 _ | .stB64 _ | .stV16 _ | .stV32 _ | .stBf16v _ | .stNfv _ | .atomAdd _ | .atomAnd _
  | .atomOr _ | .atomXor _ | .atomMins _ | .atomMaxs _ | .atomMinn _ | .atomMaxn _ | .atomXchg _ | .atomfAdd _ | .atomfMin _
  | .atomfMax _ | .cas _ | .cas64 _ | .redAdd _ | .redAnd _ | .redOr _ | .redXor _ | .redMins _ | .redMaxs _ | .redMinn _
  | .redMaxn _ | .redfAdd _ | .redfMin _ | .redfMax _ | .redfOrd _ | .fenceGrp _ | .fenceDev _ | .fenceSys _ | .cwb _
  | .bra _ _ | .braLong _ _ | .bz _ _ _ | .bzLong _ _ _ | .bnz _ _ _ | .bnzLong _ _ _ | .bez _ _ _ | .bezLong _ _ _
  | .benz _ _ _ | .benzLong _ _ _ | .call _ _ | .callLong _ _ | .callx _ _ | .ret _ | .blk _ | .strandEnd _ | .exit _ _
  | .trap _ _ | .brk _ _ | .bara _ _ _ | .barw _ _ | .bars _ _ _ | .barx _ _ _ | .sexp _ _ _ | .sarr _ _ _ | .swait _ _ _
  | .swaitGe _ _ _ | .evpost _ _ | .nop _ | .ifence _ | .stflag _ _ | .stflagClr _ _ | .hintYield _ _ | .hintUrgent _ _
  | .sAddG _ _ | .sSubG _ _ | .sMulG _ _ | .sMadG _ _ | .sAndG _ _ | .sOrG _ _ | .sXorG _ _ | .sShlG _ _ | .sShrnG _ _
  | .sShrsG _ _ | .sMinsG _ _ | .sMaxsG _ _ | .sCeqG _ _ | .sCltsG _ _ | .sCltnG _ _ | .sLeaG _ _ | .sAddImm _ _
  | .sAndImm _ _ | .sShlImm _ _ | .sShrnImm _ _ | .sShrsImm _ _ | .sCeqImm _ _ | .sCltsImm _ _ | .sMovImm _ _ | .sFaddG _ _
  | .sFsubG _ _ | .sFmulG _ _ | .sFfmaG _ _ | .sFfmsG _ _ | .sFminG _ _ | .sFmaxG _ _ | .sFcltG _ _ | .sFcleG _ _
  | .sFsaccG _ _ | .sMovG _ _ | .sPut1 _ _ | .sPutSticky _ _ | .sLdB32 _ _ | .sStB32 _ _ | .sLdV16 _ _ | .sStV16 _ _
  | .sLdB64 _ _ | .sStB64 _ _ | .sBra _ _ | .sBez _ _ | .sBenz _ _ | .sBlk _ | .sEnd _ | .sNop _ | .sCvtF32S32 _ _
  | .sCvtS32F32 _ _ | .sRsqsdG _ _ | .sRcpsdG _ _ | .sEx2G _ _ | .sDrop _ _ | .sRet _ => none
  | .copy _ | .gather _ | .matrix _ | .table _ | .shadow _ | .collectReduce _ | .collectBroadcast _ | .collectAllGather _
  | .collectReduceScatter _ | .copyRunPerformed _ | .matrixStep _ | .commandComplete _ | .commandResume _ | .eventFire _ _
  | .tellerWake _ | .formBundle _ | .promote _ _ _ | .hintExpire _ _ _ | .registerPresent _ _ _ | .resultLands _ _ _
  | .loadReturn _ | .accessPerformed _ _ | .coinDeadlock _ | .threadRetire _ _ | .groupComplete _ | .codeLineFill _ _ _
  | .l1ReadMiss _ | .l1WriteMiss _ | .homeAtomic _ | .l1Eviction _ _ | .l2Eviction _ | .engineRead _ | .engineWrite _
  | .l2MissTranslate _ | .pageWalkDone _ | .remoteRequest _ | .nimbusFlit _ | .refreshSlot | .migrationStart _ _
  | .migrationSwitch | .switchOut _ | .stopColumn _ _ | .saveRecordWrite _ | .lateFault _ | .saveSlotFreed _ | .freezeRequest
  | .freezeRange _ _ | .freezeAck _ _ | .thawRequest | .dropAck _ _ | .unmark _ _ | .unmarkAck _ _ | .publish _ _
  | .stagingWrite _ _ _ | .launchSubmit _ _ _ | .launchAccept | .captureInputs _ | .placeColumn | .preempt
  | .placementBlockTimeout | .launchComplete _ | .rearbitrate | .grantChange | .thermalStep _ | .telemetrySample _ _
  | .sweep _ _ | .sweepDone _ | .ptseqWrite _ _ | .replay _ _ | .replayWalk _ _ | .swmEnter _ | .swmReturn _
  | .swmSwitchDone _ | .grpResume _ _ | .grpDiscard _ _ | .biasToHost _ | .biasToDevice _ | .flipStart | .flipDone
  | .birsp _ _ | .hostMemRead _ _ | .hostMemWrite _ _ | .snpData _ | .snpInv _ | .snpCur _ | .hostLineFill _ _
  | .quiesceStart | .quiescePhase1Done | .peerPhase1 _ | .quiesceEnd | .imgcmd _ | .restore _ | .dbgStop _ _ _
  | .dbgRun _ _ _ | .dbgStep _ _ _ _ | .dbgStepExpire _ | .dbgDump _ _ | .profclr _ | .chConfigWrite _ _ | .chdump _
  | .ctxCreate _ | .ctxDestroy _ | .ringConfigWrite _ _ _ _ _ | .wsWindowWrite _ _ | .routeWrite _ | .commcfgWrite _
  | .pwrcapWrite _ | .fwBegin | .fwAppend | .fwEnd | .attest _ | .registerWrite _ _ _ _ | .functionLevelReset | .coldReset
  | .flashDrop _ | .ringConsWrite _ _ _ | .linkDown _ | .linkUp _ | .powerLoss | .illegalTellerWord _ | .migrationEpochEnd => none

/-- An instruction's code: parcels of strand code, or one word of teller code; an event has none. -/
inductive Code where
  | strand (ps : List (BitVec 16))
  | teller (c : Word)
  | event
  deriving DecidableEq, Repr

/-- The code of an instruction (R97 to R111). -/
def encode (i : Instr) : Code :=
  match i.form, i.tellerWord with
  | some f, _ => .strand f.parcels
  | none, some c => .teller c
  | none, none => .event

/-- How many parcels a strand instruction occupies: 1, or 2 + 2M + 2L (R97, R101). -/
def Instr.parcelCount (i : Instr) : Nat := match i.form with | some f => f.parcels.length | none => 0

/-- How many parcels the instruction that begins with this parcel and the next may need: at most 6 (R97). -/
def maxParcels : Nat := 6

/-- What the decoder reads from a word of the opcode table: a parcel, two parcels with the first in [31:16] and zeros after
them, or a teller word, which op 0xC0 and above is (R97, R101, R108, R110). An event's row has no word. -/
def decodeTableWord (nbits w : Nat) : Option Instr :=
  if nbits = 16 then
    match decodeStrand [BitVec.ofNat 16 w] with
    | .ok (i, _) => some i
    | .error _ => none
  else if nbits = 32 then
    if 0xC0 ≤ w / 2 ^ 24 then (decodeTeller (BitVec.ofNat 32 w)).toOption
    else
      match decodeStrand ([BitVec.ofNat 16 (w / 2 ^ 16), BitVec.ofNat 16 w] ++ List.replicate 4 0) with
      | .ok (i, _) => some i
      | .error _ => none
  else none

end

end Sys2Proof
end

