-- ==== Sys2Proof/Config.lean ====
section
/-! DEFINITION. What the implementation fixes, the figures of 00_scope R1, and the free values. -/

namespace Sys2Proof.Config

/-- Logical cores (R1). -/
def cores : Nat := 240
/-- Compute dies (R1). -/
def dies : Nat := 6
/-- Lanes of a cluster, threads of a crew (R1, R11). -/
def lanes : Nat := 16
/-- Scratchpad bytes of a core: 768 KiB (R1). -/
def scratchBytes : Nat := 786432
/-- LPDDR-5X bytes: 2 TiB (R1). -/
def lpddrBytes : Nat := 2 ^ 41
/-- The part of LPDDR-5X the host sees: 2,047 GiB (R351). -/
def hostVisibleBytes : Nat := 2047 * 2 ^ 30
/-- Bytes of one die's weight store: 2 GiB (R1, R208). -/
def weightBytes : Nat := 2 ^ 31
/-- Features built into the part, R45. DESIGN CHOICE (log 8): all eight. -/
def present : BitVec 64 := 0xFF
/-- Features disabled, R45. DESIGN CHOICE (log 8): none. -/
def masked : BitVec 64 := 0
/-- A feature is available when set in PRESENT and clear in MASKED (R45). -/
def available (bit : Nat) : Bool := present.getLsbD bit && !masked.getLsbD bit
/-- The host address of device physical address 0 in the HDM decoder at reset (R351). DESIGN CHOICE (log 8): the spec gives none; the
host programs another, as in R358. -/
def hdmBase : Nat := 0

/-- What a byte of memory that nothing has written reads as. DESIGN CHOICE, unsafe (log 1). -/
def emptyByte : Byte := 0

/-- A byte the spec leaves unspecified; the n-th drawn (log 5). No body: nothing can evaluate it. -/
opaque freeByte : Nat → Byte
/-- A word the spec leaves unspecified; the n-th drawn (log 5). -/
opaque freeWord : Nat → Word

/-- The code written for a value that ABS or NEG took out of a narrow format (R145, R147 state none; log 5). -/
opaque freeCode : (neg : Bool) → (mag : Nat) → (exp : Int) → Byte

/-- The sample count at which the migration engine promotes a page (R223 states none; log 5). -/
opaque migrationThreshold : Nat

/-- SHA-512 of a byte string (R383, R386, R418); defined outside the spec (log 9). -/
opaque sha512 : List Byte → List Byte
/-- The Ed25519 signature by the device's identity key (R386, R419); 64 bytes (log 9). -/
opaque sign : List Byte → List Byte
/-- Whether an Ed25519 signature by the given public key is good (R386, R387, R418) (log 9). -/
opaque verify : List Byte → List Byte → List Byte → Bool
/-- The device's identity public key, 32 bytes (R386) (log 9). -/
opaque identityKey : List Byte
/-- The vendor's firmware key, whose digest is in fuses (R418) (log 9). -/
opaque vendorKey : List Byte
/-- The version that a firmware image's header states (R410); the spec gives no layout of that header (log 9). -/
opaque imageVersion : List Byte → Nat
/-- The signature that a firmware image carries (R418) (log 9). -/
opaque imageSignature : List Byte → List Byte
/-- The fuse rollback counter (R418) (log 9). -/
opaque rollbackCounter : Nat
/-- The 16-byte device serial (R419) (log 9). -/
opaque serial : List Byte
/-- Whether the operator's configuration requires signed images (R387) (log 9). -/
opaque signatureRequired : Bool

end Sys2Proof.Config
end

