-- ==== Sys2Proof/Machine/Flags.lean ====
section
/-! DEFINITION. The sticky flags of an accumulator: 07_numbers R148, R149. -/

namespace Sys2Proof.Machine

/-- The five sticky flags of an accumulator (R148). -/
structure Flags where
  nv : Bool := false
  dz : Bool := false
  of : Bool := false
  uf : Bool := false
  am : Bool := false
  deriving DecidableEq, Repr

/-- No flag. -/
def Flags.none : Flags := {}
/-- NV alone. -/
def Flags.invalid : Flags := { nv := true }
/-- DZ alone. -/
def Flags.divZero : Flags := { dz := true }
/-- The union of two sets of flags (R149). -/
def Flags.or (a b : Flags) : Flags := ⟨a.nv || b.nv, a.dz || b.dz, a.of || b.of, a.uf || b.uf, a.am || b.am⟩
/-- The flags of `a` that `b` does not hold. -/
def Flags.minus (a b : Flags) : Flags := ⟨a.nv && !b.nv, a.dz && !b.dz, a.of && !b.of, a.uf && !b.uf, a.am && !b.am⟩
/-- The flag word (R148): NV, DZ, OF, UF, AM in bits 0 to 4. -/
def Flags.word (f : Flags) : Word :=
  0#27 ++ BitVec.ofBool f.am ++ BitVec.ofBool f.uf ++ BitVec.ofBool f.of ++ BitVec.ofBool f.dz ++ BitVec.ofBool f.nv
/-- The flags of a flag word (R148). -/
def Flags.ofWord (w : Word) : Flags := ⟨w.getLsbD 0, w.getLsbD 1, w.getLsbD 2, w.getLsbD 3, w.getLsbD 4⟩

end Sys2Proof.Machine
end

