-- ==== Sys2Proof/Machine/State.lean ====
section
/-! DEFINITION. The machine's state as plain data: every register, table and queue the spec names, with its value at reset. -/

namespace Sys2Proof.Machine

/-! ## Groups, threads, strands (01_work, 06_issue) -/

/-- A general register of one thread (R22, R26): its value, P, C, W, the vector cycle on which it is present in every cluster, what
precedes its `put` in strand order (R28), the accesses of its group that barriers put before it (R244), those that a fence before it
releases, each with the fence's level (R241), and the address of that `put` (R401). -/
structure GReg where
  val : Word
  p : Bool
  c : BitVec 3
  w : Nat
  visible : Nat
  know : List Nat
  after : List Nat
  fenced : List (Nat × Nat)
  pc : Addr
  deriving DecidableEq, Repr

/-- Absent (R22); the value of an absent register is DESIGN CHOICE 0 (log 2). -/
def GReg.reset : GReg := { val := 0, p := false, c := 0, w := 0, visible := 0, know := [], after := [], fenced := [], pc := 0 }

/-- A result in flight: the cycle it lands on, the elements and the flags it writes (R115, R131); `var` marks the one that the
core interlocks as a variable-latency write although its cycle is known, that of `swait` (R225, R247); `pc` is its instruction's
address (R401). -/
structure Pend where
  due : Nat
  writes : List (Nat × Word)
  flags : Flags
  var : Bool
  pc : Addr
  deriving DecidableEq, Repr

/-- Who owns an accumulator (R186, R380 OWN): its strand, no command yet, or the command that claimed it. -/
inductive Owner where
  | strand | offered | claimed (cmd : Nat)
  deriving DecidableEq, Repr

/-- STATE of a strand (R380): live, finished, or parked on the fault record named (a code line when no access). -/
inductive StrandState where
  | live | finished | parked (fid : Nat)
  deriving DecidableEq, Repr

/-- A hint in force (R201): `hint.urgent` or `hint.yield`, until a vector cycle. -/
structure HintState where
  urgent : Bool
  until_ : Nat
  deriving DecidableEq, Repr

/-- One strand of one thread. -/
structure Strand where
  /-- N of aN (R15). -/
  n : Nat
  /-- The program counter (R97). -/
  pc : Addr
  /-- e0 to e31 (R16). -/
  e : List Word
  /-- The sticky flags (R148). -/
  flags : Flags
  /-- The flags set by writes that landed on the cycle `freshAt`, which a `stflag` of that cycle neither reads nor clears (R149). -/
  fresh : Flags
  freshAt : Nat
  own : Owner
  /-- The return stack, the newest entry first (R193). -/
  rstack : List Addr
  /-- The decision-queue cursor (R37). -/
  cursor : Word
  /-- The earliest cycle of its next issue (R114). -/
  ready : Nat
  /-- Fixed-latency results in flight, in issue order (R115). -/
  pend : List Pend
  /-- The bundle whose variable-latency write is pending on the accumulator (R124). -/
  varPend : Option Nat
  /-- Consecutive cycles eligible and not issued (R127). -/
  wait : Nat
  promoted : Bool
  hint : Option HintState
  state : StrandState
  /-- It has ended, or its thread has exited (R20); parked on a record, it is finished again once its accesses are performed (R219). -/
  over_ : Bool
  /-- For each strand of the thread, how many of its accesses precede this point in strand order (R28). -/
  know : List Nat
  /-- The accesses, by id, that a barrier phase has put before what the strand does next (R244). -/
  after : List Nat
  /-- Those of them that a fence of the thread came after while they were not performed at its scope, with its level: what the strand
  writes next is performed after they are (R241, R325). -/
  fenced : List (Nat × Nat)
  /-- The accesses, by id, that its `lend` releases: a command reads the operands after them (R303). -/
  lent : List Nat
  /-- How many accesses this strand has issued. -/
  seq : Nat
  /-- One more than the vector cycle of its last issue, 0 before the first (R369). -/
  issuedAt : Nat
  /-- Asleep at a `barw` or `bars`: the barrier, and where it goes on (R243, R377). -/
  sleep : Option (Nat × Addr)
  /-- Consecutive vector cycles stalled on presence, coins, the decision queue, a barrier, a crew wait or a sync word (R220). -/
  stalled : Nat
  deriving DecidableEq, Repr

/-- A strand at thread start (R16, R37, R54). -/
def Strand.start (n : Nat) (pc : Addr) (ready : Nat) : Strand :=
  { n := n, pc := pc, e := List.replicate 32 0, flags := {}, fresh := {}, freshAt := 0, own := .strand, rstack := [], cursor := 0,
    ready := ready, pend := [], varPend := none, wait := 0, promoted := false, hint := none, state := .live, over_ := false,
    know := List.replicate 16 0, after := [], fenced := [], lent := [], seq := 0, issuedAt := 0, sleep := none, stalled := 0 }

/-- One thread (R10, R20, R22). -/
structure Thread where
  tid : Nat
  gregs : List GReg
  strands : List Strand
  /-- The status `exit` gave (R20). -/
  status : Word
  exited : Bool
  retired : Bool
  deriving DecidableEq, Repr

/-- A decision-queue entry (R36). -/
structure DqEntry where
  seq : Word
  value : Word
  readers : Nat
  deriving DecidableEq, Repr

/-- A named barrier (R242); the masks are indexed by TID (R377); `before` are the accesses, by id, that precede the arrivals of the
current phase, and `owed`, by TID, those of the ended phase in which the thread arrived last, which a `barw` puts before what follows it
(R244). -/
structure Barrier where
  phase : Word
  cnt : Nat
  expect : Nat
  arrive : Nat
  tarr : Bool
  twait : Bool
  arrived : List Nat
  waiting : List Nat
  left : List Nat
  before : List Nat
  owed : List (Nat × List Nat)
  deriving DecidableEq, Repr

/-- What a teller waits for (R257): room in a queue, room in its decision queue, a wake bit, a generation of a sync word, the
coordinator's answer to a `frz`, the completion of its freeze, the end of a thaw, of a publication, of a barrier phase that it waits
in, of a phase in which it has arrived before, the acknowledgement of its earlier accesses, the retirement of its group's threads. -/
inductive Wait where
  | queue (q : Nat)
  | dqRoom
  | wake (mask : BitVec 16)
  | gen (off gen : Word)
  | freeze (d : BitVec 6) (request : Nat)
  | frozen (d : BitVec 6) (id : Nat)
  | thawed (id : Nat)
  | published (pair : Nat)
  | barrier (b : Nat)
  | arrival (b : Nat)
  | acks
  | threads
  deriving DecidableEq, Repr

/-- A teller context (R31). -/
structure Teller where
  s : List Word
  pc : Addr
  rstack : List Addr
  /-- Wake bits (R270). -/
  wake : BitVec 16
  wait : Option Wait
  /-- The earliest teller cycle of its next issue (R134). -/
  ready : Nat
  /-- The default teller (R34). -/
  isDefault : Bool
  /-- `gdone` has completed (R282). -/
  done : Bool
  /-- Parked on the fault record named (R219). -/
  parked : Option Nat
  /-- The accesses, by id, that a barrier phase has put before what the teller does next (R244). -/
  after : List Nat
  deriving DecidableEq, Repr

/-- The part of a kernel header the core keeps for a group (R48, R18). -/
structure Kernel where
  kidx : Nat
  smask : BitVec 16
  ngpr : Nat
  nbar : Nat
  dqd : Nat
  deriving DecidableEq, Repr

/-- A resident group. -/
structure Group where
  id : GroupId
  /-- The logical core it is on, and the number of its teller context there (R83). -/
  core : Nat
  tctx : Nat
  /-- Its context (R411). -/
  ctx : Nat
  /-- LAUNCHID, coordinates and grid (R8, R78). -/
  launchId : Word
  gx : Nat
  gy : Nat
  gz : Nat
  nx : Nat
  ny : Nat
  nz : Nat
  /-- T (R9). -/
  t : Nat
  kernel : Kernel
  /-- The turn of each crew (R10, R83). -/
  turns : List Nat
  /-- CHECK and FIXED_ORDER of the launch block (R78, R116, R239). -/
  check : Bool
  fixedOrder : Bool
  /-- SEG0 to SEG6 (R204). -/
  seg : List Addr
  /-- The column's scratchpad window (R13). -/
  wbase : Nat
  wsize : Nat
  /-- nf0 to nf7 (R140). -/
  nf : List Word
  /-- The special-function mode: true for Giurath 320 (R174). -/
  sfmode : Bool
  /-- The words of nf0 to nf7 and the mode before the change of cycle `fmtAt`, which instructions of that cycle read (R143). -/
  nfOld : List Word
  sfOld : Bool
  fmtAt : Nat
  /-- CYCLE (R183). -/
  cycle : Nat
  dq : List DqEntry
  dqNext : Word
  bars : List Barrier
  threads : List Thread
  teller : Teller
  /-- Start credits of queues 0 to 6 (R310) and the queues pushed to (R271). -/
  credits : List Nat
  pushed : BitVec 7
  /-- The coin-deadlock count (R135). -/
  deadlock : Nat
  /-- The reduced status and STANY (R379). -/
  status : Word
  stany : Bool
  /-- The lane mask of the last bundle of each (crew, strand) (R402). -/
  masks : List ((Nat × Nat) × Nat)
  deriving DecidableEq, Repr

/-- A trap as recorded and noticed (R367, R370). -/
structure Trap where
  cls : Nat
  code : Nat
  stage : Nat
  teller : Bool
  engine : Bool
  late : Bool
  tid : Nat
  strand : Nat
  pc : Addr
  va : Addr
  /-- Its agent stands at its instruction, so that it rises again on a resume (R369). -/
  atIssue : Bool
  deriving DecidableEq, Repr

/-- What the current step's instruction executes for: a bundle of threads of one strand number (R122), a teller (R31), or nothing. -/
inductive Issue where
  | bundle (core n : Nat) (pc : Addr) (members : List (GroupId × Nat))
  | teller (gid : GroupId)
  deriving DecidableEq, Repr

/-! ## Memory (10_memory, 17_coherence) -/

/-- TYPE of a leaf (R215). -/
inductive PageType where
  | local | host | remote | wstore
  deriving DecidableEq, Repr

/-- What a cached line copies from its leaf (R217). -/
structure Perm where
  rd : Bool
  wr : Bool
  ex : Bool
  swm : Bool
  typ : PageType
  deriving DecidableEq, Repr

/-- Where a line's bytes live: a physical byte address of LPDDR-5X, of the weight stores (die in [33:31]), of the host, or the virtual
address on another chip (R208, R213). -/
inductive Place where
  | lpddr (pa : Nat)
  | wstore (pa : Nat)
  | host (pa : Nat)
  | remote (chip asid va : Nat)
  deriving DecidableEq, Repr

/-- A cloud copy's version tag (R348): bit [8] and the id. -/
structure VTag where
  shadow : Bool
  id : Nat
  deriving DecidableEq, Repr

/-- The state of an L1 line, as the directory records it (R338). -/
inductive CState where
  | s | e | m | o
  deriving DecidableEq, Repr

/-- An L1 line (R205, R342): the bytes written since the fill are its dirty mask. -/
structure L1Line where
  core : Nat
  key : LineKey
  data : Line
  dirty : BitVec 128
  st : CState
  perm : Perm
  place : Place
  vtag : Option VTag
  keep : Bool
  stamp : Nat
  deriving DecidableEq, Repr

/-- A directory state (R338). -/
inductive Dir where
  | i | s | e | m | o
  deriving DecidableEq, Repr

/-- An L2 line with its directory entry (R207, R338). -/
structure L2Line where
  key : LineKey
  data : Line
  dirty : Bool
  dir : Dir
  owner : Nat
  sharers : List Nat
  perm : Perm
  place : Place
  vtag : Option VTag
  deriving DecidableEq, Repr

/-- A code-store line (R93); `once` marks one of a page in host bias, which no cache keeps: it serves the next issue from it (R352), and
`used` that it has. -/
structure CodeLine where
  core : Nat
  key : LineKey
  data : Line
  typ : PageType
  place : Place
  vtag : Option VTag
  stamp : Nat
  once : Bool
  used : Bool
  deriving DecidableEq, Repr

/-- A TLB entry of controller `ctrl` (R214): the page's first address, its size as a power of two, its ASID unless global. -/
structure TlbEntry where
  ctrl : Nat
  base : Nat
  bits : Nat
  asid : Option Nat
  perm : Perm
  place : Place
  mig : Nat
  stamp : Nat
  deriving DecidableEq, Repr

/-- A walk-cache entry of controller `ctrl` (R214): the table entry of level 4 to 1 that maps a VA prefix of an ASID, as the address of
the table it names. -/
structure WalkEntry where
  ctrl : Nat
  asid : Nat
  level : Nat
  pre : Nat
  table : Nat
  stamp : Nat
  deriving DecidableEq, Repr

/-- A code line that a core has requested and not received (R94). -/
structure CodeReq where
  core : Nat
  ctx : Nat
  line : Nat
  deriving DecidableEq, Repr

/-- The five memories, as bytes by address (R203): LPDDR-5X, the weight stores, host memory by host physical address, the
memory of other chips by chip, ASID and virtual address, and the scratchpads by core and offset. -/
structure Mems where
  lpddr : List Host.Cell
  wstore : List Host.Cell
  host : List Host.Cell
  remote : List Host.Cell
  scratch : List Host.Cell
  deriving DecidableEq, Repr

/-- How a load's bytes become elements (R230, R231). -/
inductive LoadForm where
  | scalar (bytes : Nat) (signed : Bool) (d : Nat)
  | pair (d : Nat)
  | words (first count : Nat)
  | codes (first count : Nat) (fmt : Option Word)
  | old (d : Nat) (count : Nat)
  | gen (d : Nat)
  deriving DecidableEq, Repr

/-- The operation of an atomic or reduction (R237, R238, R240). -/
inductive RmwOp where
  | int (op : AtomOp)
  | fadd | fmin | fmax
  | ord
  | cas (expected new : Nat) (bytes : Nat)
  deriving DecidableEq, Repr

/-- What an access does (R230, R234 to R240). -/
inductive AccKind where
  | load (form : LoadForm)
  | store (data : List Byte)
  | rmw (op : RmwOp) (v : Word) (form : Option LoadForm)
  | prefetch (l2Only : Bool)
  | writeBack (keep : Bool)
  deriving DecidableEq, Repr

/-- How far an access has come (R228, R241, R324): not yet performed; performed at group, device or system scope; parked on a fault
record; faulted, its fault on the way to the core (R369). -/
inductive AccState where
  | open_
  | performed (level : Nat)
  | parked (fid : Nat)
  | faulted (cls code : Nat)
  deriving DecidableEq, Repr

/-- An access of a strand in flight. -/
structure Acc where
  id : Nat
  /-- The bundle that issued it (R228, R232). -/
  bundle : Nat
  gid : GroupId
  tid : Nat
  n : Nat
  /-- Its number among the strand's accesses, and what precedes it in strand order (R28). -/
  seq : Nat
  know : List Nat
  /-- The accesses, by id, that a barrier phase puts before it (R244). -/
  after : List Nat
  /-- Those that a fence between them and it releases, each with the fence's level (R241, R325). -/
  fenced : List (Nat × Nat)
  /-- Units performed alone, apart from the rest: offset, and the bytes a load found there (R227). -/
  units : List (Nat × List Byte)
  /-- The translations it passed its checks with, kept once a unit of it is performed (R228). -/
  pins : List TlbEntry
  /-- A vector access, which is cut into words where its address allows it (R227). -/
  vec : Bool
  /-- The instruction's address (R370), its register with the coin it spent (R25). -/
  pc : Addr
  coin : Option (Nat × GReg)
  core : Nat
  ctx : Nat
  asid : Nat
  /-- Through SEG7, the window offset in `va`. -/
  seg7 : Bool
  va : Addr
  size : Nat
  kind : AccKind
  scope : Scope
  order : Order
  hint : Hint
  st : AccState
  /-- The old bytes or the bytes read, once performed. -/
  got : List Byte
  /-- Where its strand goes on after it, kept while the column is saved (R380). -/
  cont : Addr
  /-- The vector cycle of its issue (R369), and that since which it counts as issued: its replay, for one that had parked (R335). -/
  at_ : Nat
  since : Nat
  deriving DecidableEq, Repr

/-- A fault record not yet resolved (R219, R221). -/
structure FaultRec where
  fid : Nat
  ctx : Nat
  col : ColId
  page : Nat
  cause : Nat
  access : Nat
  refault : Nat
  va : Addr
  /-- Written to the fault ring; false while the ring is full (R219). -/
  written : Bool
  /-- The stage that wrote it, which is held while it is not written (R219). -/
  stage : Nat
  /-- What its accesses need of the leaf: RD, WR, EX (R221 step 5). -/
  rd : Bool
  wr : Bool
  ex : Bool
  /-- The REPLAYs that wait, each its REQSEQ (R221). -/
  replay : List Word
  deriving DecidableEq, Repr

/-! ## Engines (14_engines) -/

/-- STATE of a command (R382), and a held command that a trigger has made ready (R309). -/
inductive CmdState where
  | queued | held | ready | parked (fid : Nat) | started
  deriving DecidableEq, Repr

/-- An accepted command (R286, R288, R382). -/
structure Cmd where
  id : Nat
  core : Nat
  /-- 7, no queue, for a COLLECT whose column has left its core (R373). -/
  queue : Nat
  gid : GroupId
  ctx : Nat
  /-- Its sixteen words as accepted. -/
  words : List Word
  st : CmdState
  /-- Acceptance order in its queue; a parked command that returns goes to the head (R293). -/
  aseq : Nat
  /-- The bound table generation (R300). -/
  tgen : Nat
  /-- The format words snapshotted at acceptance for FMTA (or FMT) and FMTB, and the mode (R267, R382). -/
  fmtA : Word
  fmtB : Word
  sf : Bool
  /-- The iteration vector of a copy as (i1, i2, i3, i4), or the progress counter of MATRIX in `prog` (R308). -/
  iter : List Nat
  prog : Nat
  /-- The current run: bytes of it already read, and bytes already written (R292, R339). -/
  readBytes : List Byte
  wrote : Nat
  /-- Parts of the run read or written before a deferred one that lies in front of them, by offset (R294). -/
  ahead : List (Nat × List Byte)
  past : List (Nat × Nat)
  /-- All runs performed, so that only completion is left (R288). -/
  finished : Bool
  /-- Members of a collective whose part is in the collective engine (R315), and the number that its first start gave it among its
  communicator's. -/
  taken : Bool
  collNo : Option Nat
  /-- The index that a gather's current run has read, and those of its earlier runs, the last first (R297). -/
  idx : Option Nat
  idxs : List Nat
  /-- When it started, among commands: the order in which MATRIX commands claim lends (R303). -/
  start : Nat
  deriving DecidableEq, Repr

/-- How far a column's stop has come (R374): asked for; begun; its trap with the vector cycle it was raised on (R369). -/
structure Stop where
  reason : StopReason
  /-- STOP_COLUMN has run: steps 1 and 2 of R374 hold. -/
  begun : Bool
  trap : Option Trap
  trapSeq : Word
  time : Nat
  cycle : Nat
  /-- Later faults, each with its TRAPSEQ: further notices (R369). -/
  later : List (Trap × Word)
  /-- The discarded command of an engine's trap, which the record holds (R290). -/
  cmd : Option Cmd
  /-- The save slot taken for it (R371). -/
  slot : Option Nat
  /-- The TRAPSEQs of the notices written with SAVED = 0, and with SAVED = 1 (R370). -/
  noticed : List Word
  told : List Word
  deriving DecidableEq, Repr

/-- A placed column (R12, R13). -/
structure Column where
  id : ColId
  core : Nat
  ctx : Nat
  wbase : Nat
  wsize : Nat
  /-- Missing pages of its parked accesses (R220). -/
  missing : Nat
  stop : Option Stop
  deriving DecidableEq, Repr

/-- A held slot (R309): the group that reserves it, and its pending-trigger bit; the command itself is a `Cmd` in state held. -/
structure HeldSlot where
  core : Nat
  slot : Nat
  owner : GroupId
  pending : Bool
  deriving DecidableEq, Repr

/-- A code-table slot (R299, R300): GA, GL and the 256 lengths. -/
structure CodeTable where
  ga : Nat
  gl : Nat
  lens : List Nat
  deriving DecidableEq, Repr

/-- A routed output of a core's event matrix (R271, R310): the route word, its owner, its pulse counter. -/
structure Route where
  core : Nat
  out : Nat
  gid : GroupId
  word : Word
  count : Nat
  deriving DecidableEq, Repr

/-- An open shadow pair (R312), with a publication in progress (R313). -/
structure Shadow where
  id : Nat
  ctx : Nat
  dst : Nat
  shd : Nat
  pages : Nat
  publishing : Bool
  /-- The commands accepted before the publication began (R313 step 1). -/
  waitFor : List Nat
  deriving DecidableEq, Repr

/-- A software-managed region (R342): its context, the VA of its first byte, the logical cores of its owner mask. -/
structure SwmRegion where
  ctx : Nat
  base : Nat
  owners : List Nat
  deriving DecidableEq, Repr

/-- STATE of a freeze entry (R346). -/
inductive FrzState where
  | freezing | active | dropping | unmarking
  deriving DecidableEq, Repr

/-- An entry of the freeze table (R346), with the acknowledgements collected from the pod's devices (R347, R349). -/
structure Freeze where
  id : Nat
  asid : Nat
  vpn : Nat
  pages : Nat
  count : Nat
  st : FrzState
  origin : Nat
  acks : List Nat
  /-- Slices of this device that hold the mark (R421). -/
  marked : List Nat
  /-- This device has done its flash drop (R349 step 2). -/
  dropped : Bool
  /-- At the coordinator: the chips, with their request numbers, whose `frz` are to be answered at step 6 of R347. -/
  waiters : List (Nat × Nat)
  deriving DecidableEq, Repr

/-- A request on its way to the freeze coordinator (R346). -/
structure FrzReq where
  id : Nat
  /-- Who waits for the answer: a teller of this device, or another chip. -/
  gid : Option GroupId
  asid : Nat
  vpn : Nat
  pages : Nat
  chip : Nat
  /-- It has left for the coordinator, another chip (R346). -/
  sent : Bool
  deriving DecidableEq, Repr

/-! ## Launches and the exchange (04_launch, 22_retire_debug) -/

/-- What precedes an agent's next access (R28, R244), which a save record has no field for: of a strand, with its accesses' count and those
before its `lend`; of a present register; of a barrier's phase; of a teller. -/
inductive Kept where
  | strand (stage tid n seq : Nat) (know after lent : List Nat) (fenced : List (Nat × Nat)) (over_ : Bool)
  | greg (stage tid g : Nat) (know after : List Nat) (fenced : List (Nat × Nat))
  | barrier (stage b : Nat) (before : List Nat) (owed : List (Nat × List Nat))
  | teller (stage : Nat) (after : List Nat)
  deriving DecidableEq, Repr

/-- A strand that a barrier's wait has put to sleep: where it stands, and where it goes on (R243, R377). -/
structure Sleeper where
  stage : Nat
  tid : Nat
  n : Nat
  bar : Nat
  pc : Addr
  next : Addr
  deriving DecidableEq, Repr

/-- A command of a saved column as it was when the column left its core, by entry of the engine section; `discarded` is that of an engine's
trap, which the record holds and no queue takes back (R290, R382). -/
structure SavedCmd where
  cmd : Cmd
  discarded : Bool
  deriving DecidableEq, Repr

/-- A column taken off a core, with its record (R81, R378): its launch's other columns go on. The record lies in a save slot of its
context, or in `record` when a quiesce took it (R371, R384). -/
structure SavedCol where
  id : ColId
  ctx : Nat
  reason : StopReason
  slot : Option Nat
  record : List Byte
  /-- For every byte of the record as written, the mask of its RO bits and their value (R383). -/
  sealed : List (Byte × Byte)
  trap : Option Trap
  trapSeq : Word
  /-- Missing pages not yet resolved (R220). -/
  missing : Nat
  /-- Notices with SAVED = 1 still to be written: the trap, its TRAPSEQ, TIME of the stop (R370). -/
  owed : List (Trap × Word × Nat)
  /-- What the device keeps beside the record, which has no field for it: the strands asleep at a barrier; pending triggers without a held
  command, as (stage, slot); the statuses of threads that have exited and
  not retired, as (stage, TID, status). -/
  asleep : List Sleeper
  triggers : List (Nat × Nat)
  exited : List (Nat × Nat × Word)
  /-- The tellers and commands that were parked, as (stage, FAULTID, a teller's PC) (R221 step 7). -/
  parked : List (Nat × Nat × Option Addr)
  /-- What precedes its agents' accesses (R324). -/
  kept : List Kept
  /-- Live decision-queue entries more than 64 before the next one, which the record cannot hold, by stage (R39). -/
  oldDq : List (Nat × DqEntry)
  /-- Its commands, by entry of the engine section: what the entry has no field for goes on from here (R292, R293, R297, R313, R315). -/
  entries : List SavedCmd
  /-- GRPCMD resume has passed the check, or the column was not trapped, so that it may be placed (R81, R372). -/
  placeable : Bool
  deriving DecidableEq, Repr

/-- Where a launch stands: accepted with its waits; its record owed. -/
structure Launch where
  /-- Acceptance number: the order of R81 and R126. -/
  seq : Nat
  ctx : Nat
  asid : Nat
  /-- The launch block (R78), 256 bytes. -/
  block : List Byte
  /-- Acceptance numbers it waits for (R80). -/
  waits : List Nat
  /-- Refusal cause of R79; 0 none. -/
  refused : Nat
  /-- The kernel headers of its stages as read at acceptance (R79): the header bytes, with the address it lies at. -/
  kernels : List (Nat × List Byte)
  /-- The linear index of the next column never placed (R81). -/
  nextCol : Nat
  /-- Columns discarded, groups completed, sum of CYCLE (R394). -/
  ndisc : Nat
  ngroups : Nat
  vcycles : Nat
  /-- The reduced status of completed groups (R393). -/
  status : Word
  /-- The discard with the lowest TRAPSEQ: FKIND, class, code, column, TRAPSEQ (R394). -/
  fault : Option (Nat × Nat × Nat × Nat × Nat)
  tstart : Option Nat
  /-- The current clock request (R87). -/
  clkreq : Word
  /-- A WSTORE_LOAD launch has become the first eligible launch (R85). -/
  sole : Bool
  /-- The next column that is blocked, with the TIME since which it has been (R84). -/
  blockedAt : Option (Nat × Nat)
  blocked50 : Bool
  /-- CAPTURE: whether inputs are written, CAPFAIL, CAPTRUNC, RDIVERGE, bytes of the value log used (R396 to R398). -/
  capDone : Bool
  capFail : Bool
  capTrunc : Bool
  rDiverge : Bool
  capPos : Nat
  /-- In a re-run, the entries of the log that are still to be replayed, each the number that its bits [63:0] make, and its VALUE (R398). -/
  replay : Option (List (Nat × Nat))
  /-- Placed and unfinished groups of a column that has completed some stages (R14). -/
  doneGroups : List GroupId
  /-- The launch was ended with its context (R395, R411). -/
  ended : Bool
  deriving DecidableEq, Repr

/-- A block submitted and not yet taken by the distributor (R75, R76). -/
structure Submitted where
  ctx : Nat
  block : List Byte
  /-- The reference cycle of its arrival: TIME and the place in it (R76). -/
  arrived : Nat × Nat
  /-- REPLOG as it stood then (R398). -/
  replog : Nat
  /-- It has a launch slot: decided once the cycle of its arrival is over. -/
  slotted : Bool
  deriving DecidableEq, Repr

/-- The granted ratios (R88, R90): matrix and vector of the six dies, memory, network. -/
structure Grant where
  mat : List Nat
  vec : List Nat
  mem : Nat
  net : Nat
  deriving DecidableEq, Repr

/-- The exchange (R89 to R92): the grant, the ratios at which the clocks run, GRANTSEQ, a pending trigger, and a re-arbitration whose
grant waits for the clocks. -/
structure Exchange where
  grant : Grant
  clocks : Grant
  seq : BitVec 16
  trigger : Bool
  pending : Option (Grant × Bool)
  overcap : Bool
  caperr : Bool
  pwrcap : Nat
  thermal : Nat
  deriving DecidableEq, Repr

/-- An entry of the fixed-order log (R239). -/
structure OrdEntry where
  launch : Nat
  va : Nat
  v : Word
  col : Nat
  stage : Nat
  tid : Nat
  seq : Nat
  asid : Nat
  deriving DecidableEq, Repr

/-! ## Contexts and the management interface (23_host_pod) -/

/-- A ring descriptor (R412). -/
structure Ring where
  base : BitVec 64
  log2n : Nat
  prod : Word
  cons : Word
  lost : Word
  deriving DecidableEq, Repr

/-- A ring at reset (R412). -/
def Ring.reset : Ring := { base := 0, log2n := 0, prod := 0, cons := 0, lost := 0 }

/-- A sweep queued or running (R218). -/
structure SweepReq where
  base : Nat
  pages : Nat
  glob : Bool
  /-- Host writes that reached the device before it are held, so that it has not started (R353). -/
  behind : Bool
  deriving DecidableEq, Repr

/-- A context (R411) with its launch window (R74) and control page (R412). -/
structure Ctx where
  exist : Bool
  asid : Nat
  /-- The byte address of its root table (R215, R411). -/
  root : Nat
  mig : Bool
  debug : Bool
  /-- The staging buffer (R74), 256 bytes. -/
  staging : List Byte
  ovf : Bool
  bad : Bool
  badacc : Bool
  reclost : Bool
  drops : Nat
  lastDrop : Word
  lastLost : Word
  swbase : BitVec 64
  swDone : Word
  swovf : Bool
  sweeps : List SweepReq
  ptseq : Word
  hotcfg : BitVec 64
  /-- Requests counted per controller since the last sample (R222). -/
  hotCount : List Nat
  swmbase : BitVec 64
  swmmask : BitVec 64
  swmDone : Word
  swmErr : Nat
  /-- The switch in progress (R344): entering or returning, and the region, its owner mask. -/
  swmBusy : Option (Bool × Nat × List Nat)
  svbase : BitVec 64
  svslots : Word
  /-- Save slots taken (R371). -/
  slots : List Nat
  capbase : BitVec 64
  capsize : BitVec 64
  caplist : BitVec 64
  replog : BitVec 64
  trcctl : BitVec 64
  vectors : BitVec 64
  dbgva : BitVec 64
  /-- The fault, hotness, trap and trace rings (R412). -/
  rings : List Ring
  /-- The next FAULTID and TRAPSEQ (R219, R370). -/
  faultId : Word
  trapSeq : Word
  deriving DecidableEq, Repr

/-- A context that does not exist; its registers hold their reset values, and those the spec gives none hold 0 (log 8). -/
def Ctx.none : Ctx :=
  { exist := false, asid := 0, root := 0, mig := false, debug := false, staging := List.replicate 256 0, ovf := false, bad := false,
    badacc := false, reclost := false, drops := 0, lastDrop := 0, lastLost := 0, swbase := 0, swDone := 0, swovf := false, sweeps := [],
    ptseq := 0, hotcfg := 0, hotCount := List.replicate 32 0, swmbase := 0, swmmask := 0, swmDone := 0, swmErr := 0, swmBusy := .none,
    svbase := 0, svslots := 0, slots := [], capbase := 0, capsize := 0, caplist := 0, replog := 0, trcctl := 0, vectors := 0, dbgva := 0,
    rings := List.replicate 4 .reset, faultId := 0, trapSeq := 0 }

/-- A queued flip (R352): BIASCMD with the BIASVA it was written beside. -/
structure Flip where
  cmd : BitVec 64
  va : BitVec 64
  /-- Made for a freeze, not for a command (R347 step 3). -/
  internal : Bool
  deriving DecidableEq, Repr

/-- A flip that has started (R353): the page's frame and VA, the direction, the ASID of its lines, the halves whose BIRsp is owed, and
whether step 2 has begun. -/
structure FlipRun where
  flip : Flip
  frame : Nat
  toHost : Bool
  owed : List Nat
  step2 : Bool
  deriving DecidableEq, Repr

/-- A host access to device memory that the bridge holds (R353, R360): its device physical address, and a read's length or a write's
bytes. -/
inductive HostAcc where
  | read (pa n : Nat)
  | write (pa : Nat) (data : List Byte)
  deriving DecidableEq, Repr

/-- An event of the device that waits for memory whose requests are held: PTSEQ's write, a migration's start, a region's entry, a
communicator's list, a resume, an image's write or load (R221, R224, R343, R372, R385, R387, R413). -/
inductive LateEvent where
  | ptseq (ctx : Nat) (v : Word)
  | migrate (ctx : Nat) (va : BitVec 64)
  | swm (ctx : Nat)
  | comm (v : BitVec 64)
  | resume (ctx slot : Nat)
  | image (v : BitVec 64)
  | restore (v : BitVec 64)
  deriving DecidableEq, Repr

/-- What the device is to do in memory whose requests are held: write a record of a context's ring or of a launch's value log, give a
frame back to a migration stack, write a table, a report or a dump, carry out a register's write or another event (R224, R340, R344, R353).
-/
inductive HeldRec where
  | ring (ctx ring : Nat) (bytes : List Byte)
  | log (launch pos : Nat) (bytes : List Byte)
  | frame (va frame : Nat)
  | write (ctx va : Nat) (bytes : List Byte) (dump : Bool)
  | event (e : LateEvent)
  deriving DecidableEq, Repr

/-- One half held by the half-line bridge (R354): true for place L. -/
structure BridgeHalf where
  hpa : Nat
  st : Dir
  key : LineKey
  inLine : Bool
  data : List Byte
  stamp : Nat
  deriving DecidableEq, Repr

/-- A request to the host for a device line, answered by HOST_LINE_FILL (R355): what the line will copy, and whether it asks for
ownership; the context and ASID it serves. -/
structure HostReq where
  key : LineKey
  ctx : Nat
  asid : Nat
  own : Bool
  place : Place
  perm : Perm
  deriving DecidableEq, Repr

/-- A communicator (R413). -/
structure Comm where
  id : Nat
  members : List Nat
  rank : Nat
  deriving DecidableEq, Repr

/-- A route (R413); `cut` once its link has gone down after the host wrote it. -/
structure RouteEntry where
  chip : Nat
  lane : Nat
  link : Nat
  cut : Bool
  deriving DecidableEq, Repr

/-- A receive buffer of one link and lane (R414): the messages that occupy its flits, the oldest first, and STOP. -/
structure LinkRx where
  link : Nat
  lane : Nat
  queue : List PeerMsg
  stop : Bool
  deriving DecidableEq, Repr

/-- A page migration in progress (R224). -/
structure Migration where
  ctx : Nat
  va : Nat
  bits : Nat
  oldPlace : Place
  newFrame : Nat
  toLpddr : Bool
  /-- The leaf's level-0 entries, 16 of a 64 KiB page, by address, each with its word as the engine left it: MIG = 01, or 10 once it
  switches (R215, R224). -/
  slots : List (Nat × Nat)
  /-- Step 4 has begun: new requests to the page are held. -/
  switching : Bool
  deriving DecidableEq, Repr

/-- What the device sends outside, oldest first: MSI-X messages (R412), answers to host reads (R352) and to snoops (R355), requests
over CXL.cache (R355), flits to other chips (R213, R413), what asks a link's other end to resend from a sequence number (R414), error
responses (R350). -/
inductive Output where
  | msix (vector : Nat)
  | hostData (data : List Byte)
  | hostError
  | snpResp (hpa : Nat) (data : Option (List Byte))
  | d2h (op : Nat) (hpa : Nat) (data : List Byte)
  | biSnpInv (pa : Nat)
  | toPeer (chip : Nat) (f : Flit)
  | askResend (link seq : Nat)
  | regData (v : BitVec 64)
  deriving DecidableEq, Repr

/-- What outside agents do next, and what the device does when the choice is the model's own (log 3): one event of the table, one that
waited for memory, one
unit of an access alone (R227), one reference tick; a host write to its own memory, the base of the host's HDM decoder
(R351), the coordinator's TIME as it reaches
this device (R417), the links whose other end trains (R418), a link's other end asking for flits again (R414), another chip's write to its
own memory, whether the owning chip faults accesses to one of its pages (R216 cause 6), which devices are in the pod (R413), a host read of a
register (R409), and a host access at an offset of a BAR (R408). -/
inductive Turn where
  | event (i : Instr)
  | late (e : LateEvent)
  | unit (acc k : Nat)
  | tick
  | decoder (base : Nat)
  | slew (coord : Nat)
  | cable (links : List Nat)
  | resend (link seq : Nat)
  | hostStore (hpa : Nat) (data : List Byte)
  | peerStore (chip asid va : Nat) (data : List Byte)
  | peerMap (chip asid vpn : Nat) (faults : Bool)
  | pod (chips : List Nat)
  | regRead (page : RegPage) (off size : Nat)
  | busRead (bar off size : Nat)
  | busWrite (bar off : Nat) (data : List Byte)
  deriving DecidableEq, Repr

/-- A core (R1). -/
structure Core where
  /-- Element and access pipe of each cluster busy until (R122, R131, R132). -/
  elemBusy : List Nat
  accBusy : List Nat
  /-- The last bundle slot at which bundles were formed. -/
  formed : Option Nat
  /-- The teller pipeline: the last teller cycle it issued on, the context served last (R134). -/
  tellerAt : Option Nat
  lastTctx : Nat
  /-- Stopped for debug; steps left; BRKSTOP, by the page that set it: a context's control page, or BAR0 (R399, R400). -/
  stopped : Bool
  stopAsked : Bool
  stepsLeft : Option Nat
  brkstop : List (Option Nat)
  /-- Threads whose next `brk` passes as a `nop` (R400). -/
  brkPass : List (GroupId × Nat × Nat)
  /-- Trace records not yet in their ring, each with its context (R402); in lossless mode a full ring keeps them and holds the core (R403). -/
  traceQ : List (Nat × List Byte)
  hist : List Nat
  stall : List Nat
  perturb : Nat
  /-- Code-table slots (R299). -/
  tables : List CodeTable
  /-- The copy queue and the matrix queue that had the last turn (R288, R307). -/
  copyTurn : Nat
  matTurn : Nat
  deriving DecidableEq, Repr

/-- A core at reset. Values the spec gives no reset for are 0 (log 8). -/
def Core.reset : Core :=
  { elemBusy := List.replicate 8 0, accBusy := List.replicate 8 0, formed := none, tellerAt := none, lastTctx := 7, stopped := false,
    stopAsked := false, stepsLeft := none, brkstop := [], brkPass := [], traceQ := [], hist := List.replicate 9 0,
    stall := List.replicate 13 0, perturb := 0, tables := List.replicate 4 { ga := 0, gl := 0, lens := [] }, copyTurn := 3,
    matTurn := 5 }

/-- A compute die: its vector cycle number, and where the reference clock stands inside a vector cycle in sixteenths (R4, R91). -/
structure Die where
  cycle : Nat
  phase : Nat
  deriving DecidableEq, Repr

/-- Steps 1 to 3 of a quiesce (R384). -/
structure Quiesce where
  running : Bool
  phase : Nat
  reported : List Nat
  /-- TIME at the end of phase 3 (R385). -/
  ended : Nat
  deriving DecidableEq, Repr

/-- The management processor (R418, R419): the step reached, a failed verification, the image being received, the staging buffer,
the flash (none: no valid image), the image that runs (none in recovery). -/
structure Firmware where
  step : Nat
  failed : Bool
  image : Option (List Byte)
  staging : List Byte
  flash : Option (List Byte)
  running : Option (List Byte)
  /-- A verified image that a power loss would catch half written (R419). -/
  writing : Bool
  deriving DecidableEq, Repr

/-- The registers of BAR0 that no other part holds (R410). -/
structure Mgmt where
  chipid : BitVec 64
  qctl : BitVec 64
  /-- The host address of device physical address 0 in the HDM decoder (R351, R358). -/
  hdmBase : Nat
  coord : Nat
  ctxroot : BitVec 64
  ctxErr : Nat
  /-- The context that a CTXCMD destroys (R411). -/
  ctxBusy : Option Nat
  /-- DBGVA of BAR0 (R399). -/
  dbgva : BitVec 64
  ctxDone : Word
  biasva : BitVec 64
  biasDone : Word
  biasErr : Nat
  dumpBusy : Bool
  profsel : BitVec 64
  chlaunch : BitVec 64
  chbase : BitVec 64
  chshift : BitVec 64
  /-- The six houses' counters by (bucket, reason), summed; none entry is zero; and OUTSIDE (R406). -/
  chCount : List ((Nat × Nat) × Nat)
  chOutside : Nat
  commlist : BitVec 64
  miglocal : BitVec 64
  mighost : BitVec 64
  wsaddr : BitVec 64
  wsRefused : Bool
  wsBadDie : Bool
  attnonce : List Byte
  attva : BitVec 64
  /-- The MSI-X table (R408): addresses and data by byte, the vectors that are not masked, and those pending. -/
  msixTable : List Host.Cell
  msixOpen : List Nat
  msixPend : List Nat
  /-- The telemetry block, 0x400 to 0x46F, as 14 registers (R416). -/
  telemetry : List (BitVec 64)
  deriving DecidableEq, Repr

/-- The whole machine. Plain data. -/
structure State where
  -- The model's own: what outside agents do next (log 3), what is issued on this cycle (R125), what the current
  -- instruction executes for, how many free values have been drawn (log 5), and the next numbers of accesses, bundles,
  -- commands.
  agenda : List Turn
  issue : List Issue
  cur : Option Issue
  freeN : Nat
  nextId : Nat
  -- Clocks: TIME (R2), the position of the reference clock in a nanosecond in thirteenths, the dies (R4).
  time : Nat
  timePhase : Nat
  /-- TIME at the last slew toward the coordinator's, and whether it was backward and the longer nanosecond is not over (R417). -/
  slewed : Nat
  slewBack : Bool
  dies : List Die
  exch : Exchange
  -- Work (01_work).
  groups : List Group
  columns : List Column
  saved : List SavedCol
  launches : List Launch
  submitted : List Submitted
  nextLaunch : Nat
  cores : List Core
  -- The distributor: TIME of the last placement (R81).
  lastPlace : Option Nat
  -- Memory (10_memory, 17_coherence).
  mems : Mems
  l1 : List L1Line
  l2 : List L2Line
  code : List CodeLine
  tlb : List TlbEntry
  walks : List WalkEntry
  codeReqs : List CodeReq
  accs : List Acc
  faults : List FaultRec
  /-- REFAULT of a column's resolved records, by 4 KiB page (R219). -/
  refaulted : List (ColId × Nat × Nat)
  stamp : Nat
  ordLog : List OrdEntry
  -- Engines (14_engines).
  cmds : List Cmd
  held : List HeldSlot
  routes : List Route
  shadows : List Shadow
  collect : List Contribution
  /-- How many collectives of each communicator have been formed (R315). -/
  collSeq : List (Nat × Nat)
  -- Coherence (17_coherence).
  swm : List SwmRegion
  freezes : List Freeze
  frzReqs : List FrzReq
  thawReqs : List (Nat × Nat)
  bias : List Nat
  flips : List Flip
  flip : Option FlipRun
  bridge : List BridgeHalf
  hostReqs : List HostReq
  heldHost : List HostAcc
  heldRecs : List HeldRec
  migration : Option Migration
  /-- Sample counts of the migration engine, and the pages it promoted (R223). -/
  migCount : List ((Nat × Nat) × Nat)
  promoted : List (Nat × Nat)
  refreshSlot : Nat
  -- The host, the pod, the management processor (20_interrupts, 22_retire_debug, 23_host_pod).
  ctxs : List Ctx
  mgmt : Mgmt
  quiesce : Quiesce
  fw : Firmware
  comms : List Comm
  podRoutes : List RouteEntry
  links : List Nat
  linkRx : List LinkRx
  /-- The sequence number that each link expects next, that each sends next, and the (link, lane) pairs that the other end has stopped
  (R414). -/
  linkSeq : List (Nat × Nat)
  txSeq : List (Nat × Nat)
  linkStop : List (Nat × Nat)
  /-- The last 512 flits sent on each link, the oldest first, each with its chip, to be resent (R414). -/
  retry : List (Nat × Flit)
  /-- The links whose other end trains (R418). -/
  cabled : List Nat
  /-- Messages to other chips that wait for a route, or for a stopped lane: chip, lane, message (R413, R414). -/
  heldOut : List (Nat × Nat × PeerMsg)
  /-- Pages of other chips whose owner faults an access: chip, ASID, VA[56:12] (R216 cause 6). -/
  remoteBad : List (Nat × Nat × Nat)
  peers : List Nat
  out : List Output
  deriving DecidableEq, Repr

/-- The machine stops here. -/
inductive Fault where
  /-- An access to an LPDDR-5X address at or above 2 TiB, which does not exist (R1, log 130). Raised by the memory operations. Safe. -/
  | noSuchMemory (pa : Nat)
  deriving DecidableEq, Repr

/-- The model refuses. -/
inductive Refusal where
  /-- The instruction has no meaning in this model yet. Raised by the dispatch table alone. Safe. -/
  | notModelled (mnemonic : String)
  deriving DecidableEq, Repr

/-- Memory with nothing listed. -/
def Mems.empty : Mems := { lpddr := [], wstore := [], host := [], remote := [], scratch := [] }

/-- Ratio 4 everywhere: the grant with no launch running (R88). -/
def Grant.idle : Grant := { mat := List.replicate 6 4, vec := List.replicate 6 4, mem := 4, net := 4 }

/-- The exchange at reset (R88, R415); GRANTSEQ and the thermal cap have no reset value in the spec (log 8). -/
def Exchange.reset : Exchange :=
  { grant := .idle, clocks := .idle, seq := 0, trigger := false, pending := none, overcap := false, caperr := false, pwrcap := 1250, thermal := 1250 }

/-- The BAR0 registers at reset (R343, R352, R399, R410, R412); those the spec gives no value hold 0, CHSHIFT 1 (log 8). -/
def Mgmt.reset : Mgmt :=
  { chipid := 0, qctl := 0, hdmBase := Config.hdmBase, coord := 0, ctxroot := 0, ctxErr := 0, ctxBusy := none, dbgva := 0, ctxDone := 0, biasva := 0, biasDone := 0, biasErr := 0,
    dumpBusy := false, profsel := 0, chlaunch := 0, chbase := 0, chshift := 1, chCount := [], chOutside := 0,
    commlist := 0, miglocal := 0, mighost := 0, wsaddr := 0, wsRefused := false, wsBadDie := false,
    attnonce := List.replicate 32 0, attva := 0, msixTable := [], msixOpen := [], msixPend := [], telemetry := List.replicate 14 0 }

/-- The management processor after a cold reset that found a valid image (R418; log 8). -/
def Firmware.reset : Firmware :=
  { step := 5, failed := false, image := none, staging := [], flash := some [], running := some [], writing := false }

/-- The machine right after reset: firmware has come up and created context 0 with ASID 0 (R411, R418). -/
def State.reset : State :=
  { agenda := [], issue := [], cur := none, freeN := 0, nextId := 0, time := 0, timePhase := 0, slewed := 0, slewBack := false,
    dies := List.replicate 6 { cycle := 0, phase := 0 }, exch := .reset, groups := [], columns := [], saved := [], launches := [],
    submitted := [], nextLaunch := 0, cores := List.replicate 240 .reset, lastPlace := none, mems := .empty, l1 := [], l2 := [],
    code := [], tlb := [], walks := [], codeReqs := [], accs := [], faults := [], refaulted := [], stamp := 0, ordLog := [], cmds := [], held := [], routes := [], shadows := [],
    collect := [], collSeq := [], swm := [], freezes := [], frzReqs := [], thawReqs := [], bias := [], flips := [], flip := none,
    bridge := [], hostReqs := [], heldHost := [], heldRecs := [], migration := none, migCount := [], promoted := [], refreshSlot := 0,
    ctxs := { Ctx.none with exist := true } :: List.replicate 255 .none, mgmt := .reset,
    quiesce := { running := false, phase := 0, reported := [], ended := 0 }, fw := .reset, comms := [], podRoutes := [], links := [],
    linkRx := [], linkSeq := [], txSeq := [], linkStop := [], retry := [], cabled := [], heldOut := [], remoteBad := [], peers := [], out := [] }

end Sys2Proof.Machine
end

