-- ==== Sys2Proof/Machine/Cells.lean ====
section
/-! DEFINITION. Memory as a canonical list of bytes, and the byte order of 00_scope R2. -/

namespace Sys2Proof.Machine

/-! ## Bytes and numbers, little-endian (R2) -/

/-- The number that bytes stand for, the first the least significant. -/
def leNat : List Byte → Nat
  | [] => 0
  | b :: bs => b.toNat + 256 * leNat bs

/-- The `n` bytes of a number, the least significant first. -/
def leBytes : Nat → Nat → List Byte
  | 0, _ => []
  | n + 1, v => BitVec.ofNat 8 v :: leBytes n (v / 256)

/-- The word four bytes stand for. -/
def wordOf (bs : List Byte) : Word := BitVec.ofNat 32 (leNat bs)

/-- The bytes of a word. -/
def wordBytes (w : Word) : List Byte := leBytes 4 w.toNat

/-- Bits `[lo + n - 1 : lo]` of a number. -/
def bits (v lo n : Nat) : Nat := v / 2 ^ lo % 2 ^ n

/-- Fields laid side by side, the first at bit 0: (value, width). -/
def packFields : List (Nat × Nat) → Nat
  | [] => 0
  | (v, n) :: rest => v % 2 ^ n + 2 ^ n * packFields rest

/-- The part of a list from `off`, `n` long, padded with zero bytes. -/
def slice (bs : List Byte) (off n : Nat) : List Byte :=
  let part := (bs.drop off).take n
  part ++ List.replicate (n - part.length) 0

/-- The `n`-byte number at an offset. -/
def numAt (bs : List Byte) (off n : Nat) : Nat := leNat (slice bs off n)

/-- A list with `new` written from `off` on, as far as the list reaches. -/
def patch (bs : List Byte) (off : Nat) (new : List Byte) : List Byte :=
  bs.take off ++ (new.take (bs.length - off)) ++ bs.drop (off + new.length)

/-- Bytes in parts of `n`; `fuel` parts at most. -/
def chunks (n : Nat) : Nat → List Byte → List (List Byte)
  | 0, _ => []
  | fuel + 1, bs => if bs.isEmpty then [] else bs.take n :: chunks n fuel (bs.drop n)

/-- The words of a byte string. -/
def wordsOf (bs : List Byte) : List Word := (chunks 4 (bs.length / 4) bs).map wordOf

/-! ## Cells: addresses strictly rising, no byte equal to what an unlisted address reads as -/

/-- The byte at an address; an address not listed reads as `Config.emptyByte` (log 1). -/
def Cells.get : List Host.Cell → Nat → Byte
  | [], _ => Config.emptyByte
  | (k, b) :: rest, a => if a = k then b else if a < k then Config.emptyByte else Cells.get rest a

/-- Writes one byte, keeping the canonical form. -/
def Cells.set : List Host.Cell → Nat → Byte → List Host.Cell
  | [], a, b => if b = Config.emptyByte then [] else [(a, b)]
  | (k, c) :: rest, a, b =>
    if a < k then (if b = Config.emptyByte then (k, c) :: rest else (a, b) :: (k, c) :: rest)
    else if a = k then (if b = Config.emptyByte then rest else (a, b) :: rest)
    else (k, c) :: Cells.set rest a b

/-- Every listed address lies above `lo`, they rise strictly, and no listed byte is the empty one. -/
def Cells.wfAbove : Option Nat → List Host.Cell → Bool
  | _, [] => true
  | lo, (k, b) :: rest =>
    (match lo with | none => true | some l => decide (l < k)) && (b != Config.emptyByte) && Cells.wfAbove (some k) rest

/-- The canonical form. -/
def Cells.wf (m : List Host.Cell) : Bool := Cells.wfAbove none m

/-- `n` bytes from an address on. -/
def Cells.gets (m : List Host.Cell) (a n : Nat) : List Byte := (List.range n).map fun i => Cells.get m (a + i)

/-- Writes bytes from an address on. -/
def Cells.sets (m : List Host.Cell) (a : Nat) : List Byte → List Host.Cell
  | [] => m
  | b :: bs => Cells.sets (Cells.set m a b) (a + 1) bs

/-- The five memories are in canonical form. -/
def Mems.wf (m : Mems) : Bool :=
  Cells.wf m.lpddr && Cells.wf m.wstore && Cells.wf m.host && Cells.wf m.remote && Cells.wf m.scratch

/-! ## Lines -/

/-- Byte `i` of a line (R2). -/
def lineByte (l : Line) (i : Nat) : Byte := l.extractLsb' (8 * i) 8
/-- A line with byte `i` replaced. -/
def lineSet (l : Line) (i : Nat) (b : Byte) : Line :=
  (l &&& ~~~((0xFF#1024) <<< (8 * i))) ||| (b.setWidth 1024 <<< (8 * i))
/-- The 128 bytes of a line. -/
def lineBytes (l : Line) : List Byte := (List.range 128).map (lineByte l)
/-- A line from 128 bytes. -/
def lineOf (bs : List Byte) : Line := BitVec.ofNat 1024 (leNat (bs.take 128))
/-- A line with bytes written from offset `off`, up to the line's end. -/
def lineWrite (l : Line) (off : Nat) : List Byte → Line
  | [] => l
  | b :: bs => if off < 128 then lineWrite (lineSet l off b) (off + 1) bs else l
/-- A mask of `n` bytes from offset `off`. -/
def byteMask (off n : Nat) : BitVec 128 := BitVec.ofNat 128 (((2 ^ n - 1) * 2 ^ off) % 2 ^ 128)
/-- `above` where the mask is set, `under` elsewhere: the merge of dirty bytes (R342). -/
def lineMerge (mask : BitVec 128) (above under : Line) : Line :=
  lineOf ((List.range 128).map fun i => if mask.getLsbD i then lineByte above i else lineByte under i)

/-! ## Places (R203, R208, R213) -/

/-- The key of a byte of another chip's memory. -/
def remoteKey (chip asid va : Nat) : Nat := (chip * 2 ^ 16 + asid) * 2 ^ 57 + va % 2 ^ 57
/-- The key of a byte of a core's scratchpad: 2^20 keys a core, of which 768 KiB are used (R1). -/
def scratchKey (core off : Nat) : Nat := core * 2 ^ 20 + off
/-- The place of the byte `n` above. -/
def Place.add (p : Place) (n : Nat) : Place :=
  match p with
  | .lpddr pa => .lpddr (pa + n)
  | .wstore pa => .wstore (pa + n)
  | .host pa => .host (pa + n)
  | .remote c a va => .remote c a (va + n)
/-- The LPDDR-5X byte address that does not exist, when a place of `n` bytes reaches beyond 2 TiB (R1). What an access there does the spec
leaves open: that it stops the machine is the model's choice (log 130). -/
def Place.absent (p : Place) (n : Nat) : Option Nat :=
  match p with
  | .lpddr pa => if pa + n ≤ Config.lpddrBytes then none else some (pa + n - 1)
  | _ => none
/-- `n` bytes at a place. -/
def Mems.read (m : Mems) (p : Place) (n : Nat) : List Byte :=
  match p with
  | .lpddr pa => Cells.gets m.lpddr pa n
  | .wstore pa => Cells.gets m.wstore pa n
  | .host pa => Cells.gets m.host pa n
  | .remote c a va => Cells.gets m.remote (remoteKey c a va) n
/-- Writes bytes at a place. -/
def Mems.write (m : Mems) (p : Place) (bs : List Byte) : Mems :=
  match p with
  | .lpddr pa => { m with lpddr := Cells.sets m.lpddr pa bs }
  | .wstore pa => { m with wstore := Cells.sets m.wstore pa bs }
  | .host pa => { m with host := Cells.sets m.host pa bs }
  | .remote c a va => { m with remote := Cells.sets m.remote (remoteKey c a va) bs }
/-- `n` bytes of a core's scratchpad. -/
def Mems.scratchRead (m : Mems) (core off n : Nat) : List Byte := Cells.gets m.scratch (scratchKey core off) n
/-- Writes bytes to a core's scratchpad. -/
def Mems.scratchWrite (m : Mems) (core off : Nat) (bs : List Byte) : Mems :=
  { m with scratch := Cells.sets m.scratch (scratchKey core off) bs }

end Sys2Proof.Machine
end

