-- ==== Sys2Proof/Machine/Ops.lean ====
section
/-! DEFINITION. The named operations over groups, threads, strands, registers and contexts, the machine's clocks, the free values, and
taking a trap (20_interrupts R367 to R370). -/

namespace Sys2Proof

/-- The column of a group (R12). -/
def GroupId.column (g : GroupId) : ColId := { launch := g.launch, col := g.col }
/-- Group age (R126): launch acceptance order, column, stage; the lower is the older. -/
def GroupId.older (a b : GroupId) : Bool :=
  decide (a.launch < b.launch) || (a.launch == b.launch && (decide (a.col < b.col) || (a.col == b.col && decide (a.stage < b.stage))))

end Sys2Proof

namespace Sys2Proof.Machine

/-- The outcome of one instruction. -/
abbrev Out := Host.Outcome State Fault Refusal

/-- A next state, or the fault of an access to memory that does not exist. -/
abbrev Res := Except Fault State

/-- The outcome of a result. -/
def Res.out (r : Res) : Out := match r with | .ok s => .next s | .error f => .fault f

/-! ## Lists kept by a key -/

/-- Applies `f` to the elements that satisfy `p`. -/
def updWhere {α : Type} (p : α → Bool) (f : α → α) (l : List α) : List α := l.map fun x => if p x then f x else x

/-- A set of numbers as bits. -/
def bitSet (ts : List Nat) : Nat := ts.foldl (fun m t => m ||| 2 ^ t) 0

/-- The entrywise maximum of two lists of counts; an empty one holds zeros (R28). -/
def joinKnow (a b : List Nat) : List Nat := if b.isEmpty then a else List.zipWith max a b

/-! ## Clocks (R2, R4) -/

/-- The logical die of a logical core (R1). -/
def dieOf (core : Nat) : Nat := core / 40
/-- The vector cycle of a core, which is its die's. -/
def State.cycle (s : State) (core : Nat) : Nat := match s.dies[dieOf core]? with | some d => d.cycle | none => 0

/-! ## Groups, threads, strands -/

/-- The resident group of a name. -/
def State.group? (s : State) (g : GroupId) : Option Group := s.groups.find? (·.id == g)
/-- Changes one group. -/
def State.modGroup (s : State) (g : GroupId) (f : Group → Group) : State := { s with groups := updWhere (·.id == g) f s.groups }
/-- Thread TID of a group. -/
def Group.thread? (g : Group) (tid : Nat) : Option Thread := g.threads[tid]?
/-- Changes one thread. -/
def Group.modThread (g : Group) (tid : Nat) (f : Thread → Thread) : Group := { g with threads := g.threads.modify tid f }
/-- Strand aN of a thread. -/
def Thread.strand? (t : Thread) (n : Nat) : Option Strand := t.strands.find? (·.n == n)
/-- Changes one strand. -/
def Thread.modStrand (t : Thread) (n : Nat) (f : Strand → Strand) : Thread := { t with strands := updWhere (·.n == n) f t.strands }
/-- General register gN of a thread. -/
def Thread.greg (t : Thread) (g : Nat) : GReg := t.gregs.getD g .reset
/-- Writes the whole state of one general register; registers beyond the list stand at their reset state, as `Thread.greg` reads them. -/
def Thread.setGreg (t : Thread) (g : Nat) (r : GReg) : Thread :=
  { t with gregs := (t.gregs ++ List.replicate (g + 1 - t.gregs.length) GReg.reset).set g r }
/-- Changes one thread of a group. -/
def State.modThread (s : State) (g : GroupId) (tid : Nat) (f : Thread → Thread) : State := s.modGroup g (·.modThread tid f)
/-- Changes one strand of a thread of a group. -/
def State.modStrand (s : State) (g : GroupId) (tid n : Nat) (f : Strand → Strand) : State := s.modThread g tid (·.modStrand n f)
/-- A thread of a group. -/
def State.thread? (s : State) (g : GroupId) (tid : Nat) : Option Thread := (s.group? g).bind (·.thread? tid)
/-- A strand of a thread of a group. -/
def State.strand? (s : State) (g : GroupId) (tid n : Nat) : Option Strand := (s.thread? g tid).bind (·.strand? n)
/-- Changes a group's teller. -/
def State.modTeller (s : State) (g : GroupId) (f : Teller → Teller) : State := s.modGroup g fun g => { g with teller := f g.teller }
/-- Element `j`. -/
def Strand.elem (st : Strand) (j : Nat) : Word := st.e.getD j 0
/-- Writes elements. -/
def setElems (e : List Word) (ws : List (Nat × Word)) : List Word := ws.foldl (fun e w => e.set w.1 w.2) e
/-- Cluster N mod 8 of strand aN (R15). -/
def clusterOf (n : Nat) : Nat := n % 8
/-- CREW of a TID (R10). -/
def crewOf (tid : Nat) : Nat := tid / 16
/-- LANE of a TID (R10). -/
def laneOf (tid : Nat) : Nat := tid % 16
/-- TURN of a thread (R10). -/
def Group.turnOf (g : Group) (tid : Nat) : Nat := g.turns.getD (crewOf tid) 0
/-- The strand can still issue: live, in a thread that has not exited (R20). -/
def Thread.running (t : Thread) (n : Nat) : Bool :=
  !t.retired && !t.exited && (match t.strand? n with | some st => st.state == .live | none => false)
/-- The strand has ended, parked on an earlier access of its or not (R20, R219). -/
def Strand.ended (st : Strand) : Bool := st.state == .finished || st.over_
/-- The strand of that number has finished, or its thread has (R128). -/
def Thread.finished (t : Thread) (n : Nat) : Bool :=
  t.retired || t.exited || (match t.strand? n with | some st => st.ended | none => true)

/-! ## Columns, cores, contexts -/

/-- A placed column. -/
def State.column? (s : State) (c : ColId) : Option Column := s.columns.find? (·.id == c)
/-- Changes a placed column. -/
def State.modColumn (s : State) (c : ColId) (f : Column → Column) : State := { s with columns := updWhere (·.id == c) f s.columns }
/-- A column's stop, when it is stopping (R374). -/
def State.stopOf (s : State) (c : ColId) : Option Stop := (s.column? c).bind (·.stop)
/-- A core. -/
def State.coreAt (s : State) (c : Nat) : Core := s.cores.getD c .reset
/-- Changes a core. -/
def State.modCore (s : State) (c : Nat) (f : Core → Core) : State := { s with cores := s.cores.modify c f }
/-- Stopped for debug, or stalled by its trace in lossless mode: a stopped cycle (R400, R403). -/
def Core.standsStill (k : Core) : Bool := k.stopped || !k.traceQ.isEmpty
/-- The core is held: it stands still, or the device is quiesced (R384, R400, R403). -/
def State.coreHeld (s : State) (core : Nat) : Bool := (s.coreAt core).standsStill || s.quiesce.running

/-- The device has not come up: it is in recovery, where most registers are not there, or has no power (R418). -/
def State.recovery (s : State) : Bool := s.fw.step != 5
/-- A context. -/
def State.ctxAt (s : State) (c : Nat) : Ctx := s.ctxs.getD c .none
/-- Changes a context. -/
def State.modCtx (s : State) (c : Nat) (f : Ctx → Ctx) : State := { s with ctxs := s.ctxs.modify c f }
/-- The context of an ASID (R411). -/
def State.ctxOfAsid? (s : State) (asid : Nat) : Option Nat := s.ctxs.findIdx? fun c => c.exist && c.asid == asid
/-- A launch not yet complete. -/
def State.launch? (s : State) (n : Nat) : Option Launch := s.launches.find? (·.seq == n)
/-- Changes a launch. -/
def State.modLaunch (s : State) (n : Nat) (f : Launch → Launch) : State := { s with launches := updWhere (·.seq == n) f s.launches }
/-- A command. -/
def State.cmd? (s : State) (id : Nat) : Option Cmd := s.cmds.find? (·.id == id)
/-- The number that the words of a command stand for: word w holds bits [32w + 31 : 32w] (R286). -/
def wordsNat : List Word → Nat
  | [] => 0
  | w :: ws => w.toNat + 2 ^ 32 * wordsNat ws
/-- Bits `[lo + n - 1 : lo]` of a command. -/
def cmdField (ws : List Word) (lo n : Nat) : Nat := bits (wordsNat ws) lo n
/-- A field of a command read as two's complement. -/
def cmdSigned (ws : List Word) (lo n : Nat) : Int := (BitVec.ofNat n (cmdField ws lo n)).toInt
/-- KIND of a command (R286). -/
def Cmd.kind (c : Cmd) : Nat := cmdField c.words 4 4
/-- Changes a command. -/
def State.modCmd (s : State) (id : Nat) (f : Cmd → Cmd) : State := { s with cmds := updWhere (·.id == id) f s.cmds }
/-- An access in flight. -/
def State.acc? (s : State) (id : Nat) : Option Acc := s.accs.find? (·.id == id)
/-- Changes an access. -/
def State.modAcc (s : State) (id : Nat) (f : Acc → Acc) : State := { s with accs := updWhere (·.id == id) f s.accs }
/-- The threads whose accumulator aN a MATRIX command writes, were they to lend it: those of its crews whose strand N exists (R303). -/
def Cmd.selects (c : Cmd) (tid n : Nat) : Bool :=
  c.kind == 2 && cmdField c.words 32 4 == n && (cmdField c.words 64 32).testBit (crewOf tid)
/-- The running MATRIX command that claims a lend of aN: the earliest started of its group that selects the thread (R303). -/
def State.claimant? (s : State) (g : GroupId) (tid n : Nat) : Option Cmd :=
  (s.cmds.filter fun c => c.gid == g && c.st == .started && !c.finished && c.selects tid n).foldl (fun best c =>
    match best with
    | none => some c
    | some b => if c.start < b.start then some c else best) none
/-- Claims every unclaimed lend of a group that a running command selects (R303). -/
def State.claimLends (s : State) (g : GroupId) : State :=
  s.modGroup g fun x =>
    let claim (t : Thread) (st : Strand) : Strand :=
      if st.own == .offered then (match s.claimant? g t.tid st.n with | some c => { st with own := .claimed c.id } | none => st) else st
    let threads := x.threads.map fun t => { t with strands := t.strands.map (claim t) }
    { x with threads := threads }
/-- Sends a message outside. -/
def State.send (s : State) (o : Output) : State := { s with out := s.out ++ [o] }
/-- Sends an MSI-X message, or, while its vector is masked, leaves it pending, once for any number (R412). -/
def State.notify (s : State) (vector : Nat) : State :=
  if s.mgmt.msixOpen.contains vector then s.send (.msix vector)
  else { s with mgmt := { s.mgmt with msixPend := vector :: s.mgmt.msixPend.filter (· != vector) } }

/-! ## Free values (log 5) -/

/-- The next `n` free bytes, and the state that has drawn them. -/
def State.drawBytes (s : State) (n : Nat) : List Byte × State :=
  ((List.range n).map fun i => Config.freeByte (s.freeN + i), { s with freeN := s.freeN + n })
/-- The next free word, and the state that has drawn it. -/
def State.drawWord (s : State) : Word × State := (Config.freeWord s.freeN, { s with freeN := s.freeN + 1 })

/-! ## Taking a trap (R367 to R370) -/

/-- A trap of a strand at an instruction. -/
def Trap.ofStrand (cls code : Nat) (g : GroupId) (tid n : Nat) (pc : Addr) : Trap :=
  { cls := cls, code := code, stage := g.stage, teller := false, engine := false, late := false, tid := tid, strand := n, pc := pc,
    va := 0, atIssue := true }
/-- A trap of a teller at an instruction. -/
def Trap.ofTeller (cls code : Nat) (g : GroupId) (pc : Addr) (va : Addr := 0) : Trap :=
  { cls := cls, code := code, stage := g.stage, teller := true, engine := false, late := false, tid := 0, strand := 0, pc := pc,
    va := va, atIssue := true }
/-- A trap of an engine command. -/
def Trap.ofEngine (cls code : Nat) (g : GroupId) : Trap :=
  { cls := cls, code := code, stage := g.stage, teller := false, engine := true, late := false, tid := 0, strand := 0, pc := 0,
    va := 0, atIssue := false }

/-- The order of R369 on one vector cycle: tellers, then threads by stage, TID and strand, then engine commands. -/
def Trap.rank (t : Trap) : Nat :=
  if t.teller then t.stage else if t.engine then 2 ^ 20 + t.stage else 4 + (t.stage * 512 + t.tid) * 16 + t.strand

/-- A column's stop once `t` is raised on vector cycle `cyc` (R369): the first trap is the record's, except that of two traps of
one cycle the one that ranks first is; a later fault is kept for a further notice, and one of the same cycle whose agent stands at its
instruction rises again when its strand is resumed. The Bool says whether `seq` is taken. -/
def Stop.raise (stop : Option Stop) (t : Trap) (seq : Word) (time cyc : Nat) : Stop × Bool :=
  match stop with
  | none =>
    ({ reason := .trap, begun := false, trap := some t, trapSeq := seq, time := time, cycle := cyc, later := [], cmd := none, slot := none, noticed := [], told := [] }, true)
  | some st =>
    match st.trap with
    | none => ({ st with reason := .trap, trap := some t, trapSeq := seq, cycle := cyc }, true)
    | some t0 =>
      if st.cycle == cyc then
        let first := if decide (t.rank < t0.rank) then t else t0
        let other := if decide (t.rank < t0.rank) then t0 else t
        if other.atIssue then ({ st with trap := some first }, false)
        else ({ st with trap := some first, later := st.later ++ [(other, seq)] }, true)
      else ({ st with later := st.later ++ [(t, seq)] }, true)

/-- Raises a trap in a group: its column stops, and the trap takes the next TRAPSEQ of the context (R368 to R370). -/
def State.takeTrap (s : State) (g : GroupId) (t : Trap) : State :=
  match s.column? g.column with
  | none => s
  | some c =>
    let (stop, taken) := Stop.raise c.stop t (s.ctxAt c.ctx).trapSeq s.time (s.cycle c.core)
    let s := s.modColumn c.id fun c => { c with stop := some stop }
    if taken then s.modCtx c.ctx fun x => { x with trapSeq := x.trapSeq + 1 } else s

/-- Asks for a column's stop for a reason other than a trap (R374). -/
def State.askStop (s : State) (c : ColId) (r : StopReason) : State :=
  s.modColumn c fun c =>
    match c.stop with
    | none =>
      { c with stop := some { reason := r, begun := false, trap := none, trapSeq := 0, time := s.time, cycle := s.cycle c.core,
                              later := [], cmd := none, slot := none, noticed := [], told := [] } }
    | some _ => c

end Sys2Proof.Machine
end

