-- ==== Sys2Proof/Machine/Table.lean ====
section
/-! DEFINITION. Page tables, walks and TLBs: 10_memory R206, R208, R213 to R218, 17_coherence R342. -/

namespace Sys2Proof.Machine

/-! ## The home of a line (R206) -/

/-- F of a line number (R206). -/
def homeHash (line : Nat) : Nat := ((bits line 0 16 ^^^ bits line 16 16) ^^^ bits line 32 16) ^^^ bits line 48 2
/-- The home slice of a line number, 0 to 287 (R206). -/
def homeSlice (line : Nat) : Nat := homeHash line * 288 / 2 ^ 16
/-- The controller that translates a VA (R213). -/
def controllerOf (va : Nat) : Nat := bits va 7 5 ^^^ bits va 12 5

/-! ## Entries (R215) -/

/-- What an access needs of a leaf: RD, WR, EX (R216). -/
structure Want where
  rd : Bool := false
  wr : Bool := false
  ex : Bool := false
  deriving DecidableEq, Repr

/-- A load. -/
def Want.load : Want := { rd := true }
/-- A store. -/
def Want.store : Want := { wr := true }
/-- An atomic needs RD and WR (R216). -/
def Want.atomic : Want := { rd := true, wr := true }
/-- A fetch. -/
def Want.fetch : Want := { ex := true }
/-- Whether a permission grants what is wanted. -/
def Perm.allows (p : Perm) (w : Want) : Bool := (!w.rd || p.rd) && (!w.wr || p.wr) && (!w.ex || p.ex)

/-- TYPE of an entry (R215). -/
def pageTypeOf (c : Nat) : PageType := if c = 0 then .local else if c = 1 then .host else if c = 2 then .remote else .wstore

/-- A leaf as a walk found it: what lines copy, the page's first VA and size, the entry's own address and its word. -/
structure Leaf where
  perm : Perm
  glob : Bool
  mig : Nat
  base : Nat
  bits : Nat
  place : Place
  at_ : Nat
  raw : Nat
  deriving DecidableEq, Repr

/-- Where a walk ends. -/
inductive Walk where
  | leaf (l : Leaf)
  | fault (cause : Nat)
  | absent (pa : Nat)
  deriving DecidableEq, Repr

/-- Log2 of the size that a leaf of level `k` maps (R215). -/
def leafBits (k : Nat) (c64 : Bool) : Nat := if k = 2 then 30 else if k = 1 then 21 else if c64 then 16 else 12

/-- An entry with V = 1 that is a bad entry at level `k` (R216 cause 3, R208). -/
def badEntry (k e : Nat) : Bool :=
  let leaf := e.testBit 4
  let frame := bits e 12 40
  let ty := pageTypeOf (bits e 8 2)
  if bits e 60 4 ≠ 0 then true
  else if leaf then
    decide (3 ≤ k) || (e.testBit 5 && k ≠ 0) || bits e 10 2 == 3 || frame % 2 ^ (leafBits k (e.testBit 5) - 12) ≠ 0
      || (ty == .wstore && decide (5 < bits (frame * 4096) 31 3)) || (ty == .remote && frame ≠ 0) || (ty != .remote && bits e 52 8 ≠ 0)
  else k == 0 || e ≠ 1 + 4096 * frame

/-- The leaf an entry of level `k` holds (R208, R213, R215). Of a WSTORE page the address bits above [33], of which R208 says nothing, are
dropped (DESIGN CHOICE, log 151). -/
def leafOf (asid va k addr e : Nat) : Leaf :=
  let pa := bits e 12 40 * 4096
  let n := leafBits k (e.testBit 5)
  let base := va / 2 ^ n * 2 ^ n
  let ty := pageTypeOf (bits e 8 2)
  { perm := { rd := e.testBit 1, wr := e.testBit 2, ex := e.testBit 3, swm := e.testBit 7, typ := ty }, glob := e.testBit 6,
    mig := bits e 10 2, base := base, bits := n, at_ := addr, raw := e,
    place := match ty with
      | .local => .lpddr pa
      | .host => .host pa
      | .wstore => .wstore (pa % 2 ^ 34)
      | .remote => .remote (bits e 52 8) asid base }

/-- The walk from a table of level `k` (R215, R216 causes 2 and 3), with the table entries it has read: each its level and the table it
names. -/
def walkPath (m : List Host.Cell) (asid va : Nat) : Nat → Nat → Walk × List (Nat × Nat)
  | k, table =>
    let addr := table + 8 * bits va (12 + 9 * k) 9
    if Config.lpddrBytes < addr + 8 then (.absent addr, [])
    else
      let e := leNat (Cells.gets m addr 8)
      if !e.testBit 0 then (.fault 2, [])
      else if badEntry k e then (.fault 3, [])
      else if e.testBit 4 then (.leaf (leafOf asid va k addr e), [])
      else match k with
        | 0 => (.fault 3, [])
        | k + 1 =>
          let next := bits e 12 40 * 4096
          let r := walkPath m asid va k next
          (r.1, (k + 1, next) :: r.2)
/-- Where a walk from a table of level `k` ends. -/
def walkFrom (m : List Host.Cell) (asid va k table : Nat) : Walk := (walkPath m asid va k table).1

/-! ## Walk caches (R214) -/

/-- The VA prefix that a table entry of level `k` maps. -/
def walkPrefix (k va : Nat) : Nat := va / 2 ^ (12 + 9 * k)
/-- The walk-cache entry of a controller for a level. -/
def State.walkEntry? (s : State) (ctrl asid va k : Nat) : Option WalkEntry :=
  s.walks.find? fun e => e.ctrl == ctrl && e.asid == asid && e.level == k && e.pre == walkPrefix k va
/-- Where a walk starts: the table that the deepest cached entry names, else the root (R214). -/
def State.walkStart (s : State) (asid va root : Nat) : Nat × Nat :=
  match [1, 2, 3, 4].findSome? (s.walkEntry? (controllerOf va) asid va) with
  | some e => (e.level - 1, e.table)
  | none => (4, root)

/-- The software-managed region that covers a VA of a context (R342). -/
def State.swmAt? (s : State) (ctx va : Nat) : Option SwmRegion := s.swm.find? fun r => r.ctx == ctx && r.base / 2 ^ 21 == va / 2 ^ 21

/-- The owning chip faults accesses to this page of its memory (R216 cause 6). -/
def State.remoteFaults (s : State) (p : Place) : Bool :=
  match p with | .remote chip asid va => s.remoteBad.contains (chip, asid, va / 4096) | _ => false

/-- A walk for an access, its causes in the order of R216, with cause 7 for a core outside a region's owner mask (R342); `core` is
none for an engine, a teller or a host access. -/
def State.walk (s : State) (ctx va : Nat) (w : Want) (core : Option Nat) : Walk :=
  if 2 ^ 57 ≤ va then .fault 1
  else
    let c := s.ctxAt ctx
    let start := s.walkStart c.asid va c.root
    match walkFrom s.mems.lpddr c.asid va start.1 start.2 with
    | .leaf l =>
      let region := s.swmAt? ctx va
      if !l.perm.allows w then .fault 4
      else if l.perm.swm != region.isSome then .fault 5
      else if s.remoteFaults (l.place.add (va - l.base)) then .fault 6
      else
        match region, core with
        | some r, some k => if r.owners.contains k then .leaf l else .fault 7
        | _, _ => .leaf l
    | other => other

/-- Where a VA lies under a leaf. -/
def Leaf.placeAt (l : Leaf) (va : Nat) : Place := l.place.add (va - l.base)
/-- The tag of a VA's line under a leaf (R212). -/
def Leaf.key (l : Leaf) (asid va : Nat) : LineKey := { line := va / 128, asid := if l.glob then none else some asid }

/-! ## TLBs (R213, R214) -/

/-- A tag covers a request of an ASID: equal, or a global one (R212). -/
def tagMatch (t : Option Nat) (asid : Nat) : Bool := match t with | none => true | some a => a == asid
/-- The entry a TLB holds for a VA. -/
def State.tlb? (s : State) (ctrl asid va : Nat) : Option TlbEntry :=
  s.tlb.find? fun e => e.ctrl == ctrl && va / 2 ^ e.bits == e.base / 2 ^ e.bits && tagMatch e.asid asid
/-- Where a VA lies under an entry. -/
def TlbEntry.placeAt (e : TlbEntry) (va : Nat) : Place := e.place.add (va - e.base)
/-- The tag of a VA's line under an entry. -/
def TlbEntry.key (e : TlbEntry) (va : Nat) : LineKey := { line := va / 128, asid := e.asid }

/-- The element with the least stamp. -/
def oldestBy {α : Type} (stamp : α → Nat) : List α → Option α
  | [] => none
  | x :: xs =>
    match oldestBy stamp xs with
    | none => some x
    | some y => if stamp y < stamp x then some y else some x

/-- The TLB set of a page: of 256, by the low bits of its page number (R214, log 10). -/
def tlbSet (base bits : Nat) : Nat := base / 2 ^ bits % 256
/-- Installs a leaf in the TLB beside a VA's controller; of 8 ways of a set the least recently used leaves (R214). -/
def State.tlbFill (s : State) (asid va : Nat) (l : Leaf) : State :=
  let c := controllerOf va
  let e : TlbEntry :=
    { ctrl := c, base := l.base, bits := l.bits, asid := if l.glob then none else some asid, perm := l.perm, place := l.place,
      mig := l.mig, stamp := s.stamp }
  let rest := s.tlb.filter fun x => !(x.ctrl == c && va / 2 ^ x.bits == x.base / 2 ^ x.bits && x.asid == e.asid)
  let mine := rest.filter fun x => x.ctrl == c && tlbSet x.base x.bits == tlbSet l.base l.bits
  let rest := if mine.length < 8 then rest else
    match oldestBy (·.stamp) mine with
    | none => rest
    | some v => rest.erase v
  { s with tlb := e :: rest, stamp := s.stamp + 1 }

/-- The TLB entry that serves a VA is now the most recently used of its set (R214). -/
def State.tlbUse (s : State) (asid va : Nat) : State :=
  match s.tlb? (controllerOf va) asid va with
  | none => s
  | some e => { s with tlb := updWhere (· == e) (fun e => { e with stamp := s.stamp }) s.tlb, stamp := s.stamp + 1 }

/-- One table entry enters a walk cache: of 256 entries the least recently used leaves (R214). -/
def State.walkNote (s : State) (asid va k table : Nat) : State :=
  let c := controllerOf va
  let e : WalkEntry := { ctrl := c, asid := asid, level := k, pre := walkPrefix k va, table := table, stamp := s.stamp }
  let rest := s.walks.filter fun x => !(x.ctrl == c && x.asid == asid && x.level == k && x.pre == e.pre)
  let mine := rest.filter (·.ctrl == c)
  let rest := if mine.length < 256 then rest else
    match oldestBy (·.stamp) mine with
    | none => rest
    | some v => rest.erase v
  { s with walks := e :: rest, stamp := s.stamp + 1 }
/-- The table entries that a walk reads or finds in its walk cache are there afterwards, the most recently used (R214). -/
def State.walkFill (s : State) (ctx va : Nat) : State :=
  let c := s.ctxAt ctx
  let start := s.walkStart c.asid va c.root
  let hit := if start.1 = 4 then [] else [(start.1 + 1, start.2)]
  (hit ++ (walkPath s.mems.lpddr c.asid va start.1 start.2).2).foldl (fun s p => s.walkNote c.asid va p.1 p.2) s

/-- A completed walk: its table entries are in the walk cache, its leaf in the TLB (R214). -/
def State.walked (s : State) (ctx va : Nat) (l : Leaf) : State := (s.walkFill ctx va).tlbFill (s.ctxAt ctx).asid va l

/-- The 4 KiB pages of a VA range overlap an entry's page. -/
def TlbEntry.overlaps (e : TlbEntry) (base len : Nat) : Bool := decide (e.base < base + len ∧ base < e.base + 2 ^ e.bits)

/-- What a walk-cache entry maps overlaps a VA range. -/
def WalkEntry.overlaps (e : WalkEntry) (base len : Nat) : Bool :=
  let size := 2 ^ (12 + 9 * e.level)
  decide (e.pre * size < base + len ∧ base < (e.pre + 1) * size)
/-- Invalidates a range in all 32 TLBs, for the tags that `p` selects, and in all walk caches (R214, R218). -/
def State.tlbDrop (s : State) (base len : Nat) (p : Option Nat → Bool) : State :=
  { s with tlb := s.tlb.filter (fun e => !(e.overlaps base len && p e.asid)),
           walks := s.walks.filter fun e => !(e.overlaps base len && p (some e.asid)) }

end Sys2Proof.Machine
end

