-- ==== Sys2Proof/Machine/Lines.lean ====
section
/-! DEFINITION. Cached lines and their directory, the half-line bridge: 10_memory R205, R207, R217; 17_coherence R338 to R342, R348,
R354 to R356. -/

namespace Sys2Proof.Machine

/-! ## Looking lines up (R205, R207, R212) -/

/-- The L1 line of a core that holds a line number for an ASID. -/
def State.l1? (s : State) (core asid line : Nat) : Option L1Line :=
  s.l1.find? fun l => l.core == core && l.key.line == line && tagMatch l.key.asid asid
/-- The L2 line that holds a line number for an ASID. Where software breaks R212's rules on aliases, this line and the caches' others are what
reads return, as they stand (DESIGN CHOICE, log 152). -/
def State.l2? (s : State) (asid line : Nat) : Option L2Line := s.l2.find? fun l => l.key.line == line && tagMatch l.key.asid asid
/-- The L2 line of a tag. -/
def State.l2Key? (s : State) (k : LineKey) : Option L2Line := s.l2.find? (·.key == k)
/-- Changes the L2 line of a tag. -/
def State.modL2 (s : State) (k : LineKey) (f : L2Line → L2Line) : State := { s with l2 := updWhere (·.key == k) f s.l2 }
/-- Changes an L1 line. -/
def State.modL1 (s : State) (core : Nat) (k : LineKey) (f : L1Line → L1Line) : State :=
  { s with l1 := updWhere (fun l => l.core == core && l.key == k) f s.l1 }
/-- A cloud copy: its version tag is a freeze's, not a shadow pair's (R348). -/
def isCloud (v : Option VTag) : Bool := match v with | some t => !t.shadow | none => false
/-- The directory records this L1 line: it is neither a cloud copy nor of a software-managed region (R338). -/
def L1Line.tracked (l : L1Line) : Bool := !isCloud l.vtag && !l.perm.swm
/-- The L1 lines of a tag that the directory records. -/
def State.copies (s : State) (k : LineKey) : List L1Line := s.l1.filter fun l => l.key == k && l.tracked

/-! ## Writing back -/

/-- Merges dirty bytes into the home's copy, or into memory when no slice holds the line (R342). -/
def State.mergeHome (s : State) (k : LineKey) (p : Place) (mask : BitVec 128) (data : Line) : State :=
  match s.l2Key? k with
  | some _ => s.modL2 k fun l => { l with data := lineMerge mask data l.data, dirty := true }
  | none => { s with mems := s.mems.write p (lineBytes (lineMerge mask data (lineOf (s.mems.read p 128)))) }

/-- Writes an L1 line's dirty bytes back to its home; the line itself stays as it is. -/
def State.writeBackL1 (s : State) (l : L1Line) : State := if l.dirty = 0 then s else s.mergeHome l.key l.place l.dirty l.data

/-! ## The half-line bridge's entries (R354) -/

/-- The two halves of a line at a host physical address. -/
def halvesOf (hpa : Nat) : List Nat := [hpa / 128 * 128, hpa / 128 * 128 + 64]
/-- The bridge's entry for a half. -/
def State.half? (s : State) (hpa : Nat) : Option BridgeHalf := s.bridge.find? (·.hpa == hpa)
/-- Changes the bridge's entry for a half. -/
def State.modHalf (s : State) (hpa : Nat) (f : BridgeHalf → BridgeHalf) : State :=
  { s with bridge := updWhere (·.hpa == hpa) f s.bridge }
/-- A device write changes bytes of a line of host memory: the halves it touches become M (R354). -/
def State.dirtyHalves (s : State) (hpa off n : Nat) : State :=
  let touched (h : BridgeHalf) : Bool :=
    (h.hpa == hpa / 128 * 128 && decide (off < 64)) || (h.hpa == hpa / 128 * 128 + 64 && decide (64 < off + n))
  { s with bridge := updWhere touched (fun h => { h with st := .m }) s.bridge }
/-- Both halves of a line are E or M, so that an L1 may hold it in E or M (R354). -/
def State.halvesOwned (s : State) (hpa : Nat) : Bool :=
  (halvesOf hpa).all fun a => match s.half? a with | some h => h.inLine && (h.st == .e || h.st == .m) | none => false
/-- The line of host memory may be written: both its halves are E or M (R354). -/
def State.writable (s : State) (p : Place) : Bool := match p with | .host hpa => s.halvesOwned hpa | _ => true

/-- Bytes of the home's copy change. -/
def State.putL2 (s : State) (k : LineKey) (off : Nat) (bs : List Byte) : State :=
  let s := s.modL2 k fun l => { l with data := lineWrite l.data off bs, dirty := true }
  match (s.l2Key? k).map (fun l => l.place) with
  | some (Place.host hpa) => s.dirtyHalves hpa off bs.length
  | _ => s

/-! ## Stores that an L1 holds in S or O (R241, R340) -/

/-- An atomic or reduction (R236). -/
def Acc.isRmw (a : Acc) : Bool := match a.kind with | .rmw _ _ _ => true | _ => false
/-- A store whose bytes its core's L1 holds while a line of it is S or O there: performed at group scope, its upgrade not yet granted (R241,
R340). -/
def Acc.inL1 (a : Acc) : Bool := a.st == .performed 1
/-- The single-copy atomic units of an access, as offset and length: the whole of an atomic or of an aligned access of up to 8 bytes,
the words of another vector access at a multiple of 4, the bytes of any other (R227). -/
def Acc.unitList (a : Acc) : List (Nat × Nat) :=
  if a.isRmw ∨ (a.size ≤ 8 ∧ a.va.toNat % a.size = 0) then [(0, a.size)]
  else
    let k := if a.vec ∧ a.va.toNat % 4 = 0 then 4 else 1
    (List.range ((a.size + k - 1) / k)).map fun i => (k * i, min k (a.size - k * i))
/-- The units not performed yet. -/
def Acc.unitsLeft (a : Acc) : List (Nat × Nat) := a.unitList.filter fun u => !a.units.any (·.1 == u.1)
/-- Some of the access touches a line number. -/
def Acc.onLine (a : Acc) (line : Nat) : Bool := decide (a.va.toNat / 128 ≤ line ∧ line ≤ (a.va.toNat + a.size - 1) / 128)
/-- The store lies in L1 lines of a tag and its upgrade is owed. -/
def Acc.heldOn (a : Acc) (k : LineKey) : Bool := a.inL1 && tagMatch k.asid a.asid && a.onLine k.line
/-- The units of a store on a line that are not performed at its home. -/
def Acc.unitsOn (a : Acc) (line : Nat) : List (Nat × Nat) := a.unitsLeft.filter fun u => (a.va.toNat + u.1) / 128 == line
/-- A unit of a store is written at its home. -/
def State.putUnit (s : State) (a : Acc) (k : LineKey) (bs : List Byte) (u : Nat × Nat) : State :=
  s.putL2 k ((a.va.toNat + u.1) % 128) ((bs.drop u.1).take u.2)
/-- Units are performed; once all are, a store that an L1 held is performed at device scope (R340). -/
def Acc.doUnits (a : Acc) (us : List (Nat × Nat)) : Acc :=
  let b := { a with units := us.map (fun (u : Nat × Nat) => (u.1, [])) ++ a.units }
  if b.unitsLeft.isEmpty then { b with st := .performed 2 } else b
/-- The stores that L1s hold over a line are performed at its home, no L1 having the line any more (R340). -/
def State.settleLine (s : State) (k : LineKey) : State :=
  (s.accs.filter (·.heldOn k)).foldl (fun s a =>
    match a.kind with
    | .store bs =>
      let us := a.unitsOn k.line
      (us.foldl (fun s u => s.putUnit a k bs u) s).modAcc a.id (·.doUnits us)
    | _ => s) s

/-- Takes every recorded L1 copy of a line back to the home and drops it: recall and invalidate. The stores that those L1s held over it
are performed there: their upgrades came first (R339, R340). -/
def State.homeTake (s : State) (k : LineKey) : State :=
  let s := (s.copies k).foldl State.writeBackL1 s
  ({ s with l1 := s.l1.filter fun l => !(l.key == k && l.tracked) }.modL2 k fun l => { l with dir := .i, sharers := [] }).settleLine k

/-- Brings the home's copy up to date for a read by an engine, the collective engine or a code store (R339): the owner writes back
and keeps the line. -/
def State.homeClean (s : State) (k : LineKey) : State :=
  match s.l2Key? k with
  | none => s
  | some h =>
    let s := (s.copies k).foldl State.writeBackL1 s
    let next : CState := match h.dir with | .o => .s | _ => .e
    let owns (l : L1Line) : Bool := l.key == k && l.tracked && (l.st == .m || l.st == .o)
    let s := { s with l1 := updWhere owns (fun l => { l with dirty := 0, st := next }) s.l1 }
    s.modL2 k fun l =>
      match l.dir with
      | .o => { l with dir := .s, sharers := if l.sharers.contains l.owner then l.sharers else l.owner :: l.sharers }
      | .m => { l with dir := .e }
      | _ => l

/-- The L1 line of a core with a tag. -/
def State.l1Key? (s : State) (core : Nat) (k : LineKey) : Option L1Line := s.l1.find? fun l => l.core == core && l.key == k
/-- Some store of a core lies in its L1 line of a tag, its upgrade owed. -/
def State.heldStores (s : State) (core : Nat) (k : LineKey) : Bool := s.accs.any fun a => a.core == core && a.heldOn k
/-- A line of an L1 is dropped: dirty data goes home, and the home is told (R339, R342). -/
def State.dropL1 (s : State) (v : L1Line) : State :=
  let s := s.writeBackL1 v
  let s := { s with l1 := s.l1.filter fun l => !(l.core == v.core && l.key == v.key) }
  if !v.tracked then s
  else s.modL2 v.key fun h =>
    match h.dir with
    | .e | .m => { h with dir := .i, sharers := [] }
    | .o =>
      if h.owner == v.core then { h with dir := if h.sharers.isEmpty then .i else .s }
      else { h with sharers := h.sharers.filter (· != v.core) }
    | .s => let rest := h.sharers.filter (· != v.core); { h with sharers := rest, dir := if rest.isEmpty then .i else .s }
    | .i => h
/-- An L1 line leaves its L1 (R339, R342); one that holds a store in S or O is upgraded first, so that the store is performed at its home
(R340). -/
def State.evictL1 (s : State) (v : L1Line) : State :=
  let s := if s.heldStores v.core v.key then s.homeTake v.key else s
  match s.l1Key? v.core v.key with
  | none => s
  | some v => s.dropL1 v
/-- The stores that a core's L1 holds over a line in S or O are performed at its home, for an agent of the core that reads there (R332,
R340). -/
def State.settleFor (s : State) (core asid line : Nat) : State :=
  match s.l1? core asid line with
  | some v => if s.heldStores core v.key then s.homeTake v.key else s
  | none => s

/-! ## The L1 (R205) -/

/-- The L1 set of a line: VA[13:7]. -/
def l1Set (line : Nat) : Nat := line % 128

/-- Puts a line into its core's L1: in a full set the least recently used unmarked way leaves, else the least recently used marked
way; a fifth keep fill of a set is filled unmarked (R205). -/
def State.fillL1 (s : State) (n : L1Line) : State :=
  let others (s : State) := s.l1.filter fun l => l.core == n.core && l1Set l.key.line == l1Set n.key.line && l.key != n.key
  let set := others s
  let s := if set.length < 8 then s else
    match (oldestBy (·.stamp) (set.filter fun l => !l.keep)).orElse fun _ => oldestBy (·.stamp) set with
    | some v => s.evictL1 v
    | none => s
  let keep := n.keep && decide (((others s).filter (·.keep)).length < 4)
  { s with l1 := { n with keep := keep, stamp := s.stamp } :: s.l1.filter (fun l => !(l.core == n.core && l.key == n.key)),
           stamp := s.stamp + 1 }

/-- Marks a line as just used, and as kept when the access asks for it (R205). -/
def State.useL1 (s : State) (core : Nat) (k : LineKey) (keep : Bool) : State :=
  let marked := (s.l1.filter fun l => l.core == core && l1Set l.key.line == l1Set k.line && l.keep).length
  let s' := s.modL1 core k fun l => { l with stamp := s.stamp, keep := l.keep || (keep && decide (marked < 4)) }
  { s' with stamp := s.stamp + 1 }

/-! ## The half-line bridge (R354 to R356) -/

/-- D2H request codes of R351, in its order: RdShared, RdOwn, RdCurr, ItoMWr, DirtyEvict, CleanEvict. -/
def d2hRdShared : Nat := 0
def d2hRdOwn : Nat := 1
def d2hRdCurr : Nat := 2
def d2hItoMWr : Nat := 3
def d2hDirtyEvict : Nat := 4
def d2hCleanEvict : Nat := 5

/-- A half returns to the host: DirtyEvict with its data when M, else CleanEvict (R355). -/
def State.evictHalf (s : State) (h : BridgeHalf) (data : List Byte) : State :=
  let s := { s with bridge := s.bridge.filter (·.hpa != h.hpa) }
  if h.st == .m then ({ s with mems := s.mems.write (.host h.hpa) data }).send (.d2h d2hDirtyEvict h.hpa data)
  else if h.st == .i then s else s.send (.d2h d2hCleanEvict h.hpa [])

/-- The halves of a line return to the host with the home's bytes, and leave the bridge. -/
def State.returnHalves (s : State) (hpa : Nat) (data : Line) : State :=
  (halvesOf hpa).foldl (fun s a =>
    match s.half? a with
    | some b => if b.inLine then s.evictHalf b (((lineBytes data).drop (a % 128)).take 64) else s
    | none => s) s

/-! ## The L2 (R207, R339) -/

/-- An L2 line leaves its slice: L1 copies are invalidated, dirty data goes to memory, and the halves of a host line return to the
host (R339, R355). -/
def State.evictL2 (s : State) (k : LineKey) : State :=
  let s := s.homeTake k
  match s.l2Key? k with
  | none => s
  | some h =>
    let s := { s with l2 := s.l2.filter (·.key != k) }
    match h.place with
    | .host hpa => s.returnHalves hpa h.data
    | p => if h.dirty then { s with mems := s.mems.write p (lineBytes h.data) } else s

/-- Drops every line that `p` selects from every code store, L1 and L2, after writing back its dirty bytes (R218, R224, R344, R353). -/
def State.dropLines (s : State) (p : LineKey → PageType → Option VTag → Bool) : State :=
  let s := { s with code := s.code.filter fun l => !p l.key l.typ l.vtag }
  let s := (s.l1.filter fun l => p l.key l.perm.typ l.vtag).foldl State.evictL1 s
  ((s.l2.filter fun l => p l.key l.perm.typ l.vtag).map (·.key)).foldl State.evictL2 s

/-- A line number lies in a range of VA. -/
def lineIn (base len line : Nat) : Bool := decide (base / 128 ≤ line ∧ line * 128 < base + len)

/-- The slice of a line and its set there: 8,192 sets of 16 ways (R207, log 10). -/
def l2Set (line : Nat) : Nat × Nat := (homeSlice line, line % 8192)

/-- Puts a line into its home slice as memory holds it, with an empty directory entry; of 16 ways of a set that are full the least
recently filled is evicted (R207, R217, R348, log 10). -/
def State.fillL2 (s : State) (k : LineKey) (p : Place) (perm : Perm) (v : Option VTag) (data : Line) : State :=
  let set := s.l2.filter fun l => l.key != k && l2Set l.key.line == l2Set k.line
  let s := if set.length < 16 then s else match set.getLast? with | some v => s.evictL2 v.key | none => s
  { s with l2 := { key := k, data := data, dirty := false, dir := .i, owner := 0, sharers := [], perm := perm, place := p, vtag := v }
      :: s.l2.filter (·.key != k) }

/-! ## Grants (R339, R342, R348) -/

/-- An L1 line made from a home's copy. -/
def L2Line.forL1 (h : L2Line) (core : Nat) (st : CState) (keep : Bool) : L1Line :=
  { core := core, key := h.key, data := h.data, dirty := 0, st := st, perm := h.perm, place := h.place, vtag := h.vtag, keep := keep,
    stamp := 0 }

/-- The home serves an L1 read miss (R339). A cloud copy and a line of a software-managed region have no directory entry (R342,
R348); a host line is granted E only when both its halves are owned (R354). -/
def State.grantRead (s : State) (core : Nat) (k : LineKey) (keep : Bool) : State :=
  match s.l2Key? k with
  | none => s
  | some h =>
    if isCloud h.vtag then s.fillL1 (h.forL1 core .s keep)
    else if h.perm.swm then s.fillL1 (h.forL1 core .e keep)
    else
      let mayOwn := match h.place with | .host hpa => s.halvesOwned hpa | _ => true
      match h.dir with
      | .i =>
        if mayOwn then (s.fillL1 (h.forL1 core .e keep)).modL2 k fun l => { l with dir := .e, owner := core, sharers := [] }
        else (s.fillL1 (h.forL1 core .s keep)).modL2 k fun l => { l with dir := .s, sharers := [core] }
      | .s => (s.fillL1 (h.forL1 core .s keep)).modL2 k fun l => { l with sharers := core :: l.sharers.filter (· != core) }
      | .e | .m | .o =>
        match (s.copies k).find? (·.core == h.owner) with
        | none => (s.fillL1 (h.forL1 core .s keep)).modL2 k fun l => { l with dir := .s, sharers := [core] }
        | some o =>
          let s := s.fillL1 { h.forL1 core .s keep with data := o.data }
          if o.st == .e then
            (s.modL1 o.core k fun l => { l with st := .s }).modL2 k fun l => { l with dir := .s, sharers := [core, o.core] }
          else
            (s.modL1 o.core k fun l => { l with st := .o }).modL2 k fun l =>
              { l with dir := .o, owner := o.core, sharers := core :: l.sharers.filter (· != core) }

/-- The home serves a write miss or an upgrade: every other copy is taken back and the line is granted M, which keeps its mark; a line
of a software-managed region has no directory entry (R205, R339, R342). -/
def State.grantWrite (s : State) (core : Nat) (k : LineKey) (keep : Bool) : State :=
  let keep := keep || s.l1.any fun l => l.core == core && l.key == k && l.keep
  let s := s.homeTake k
  match s.l2Key? k with
  | none => s
  | some h => if h.perm.swm then s.fillL1 (h.forL1 core .e keep) else (s.fillL1 (h.forL1 core .m keep)).modL2 k fun l => { l with dir := .m, owner := core, sharers := [] }

/-- The bytes an L1 line holds change; they become dirty, and the line M (R338, R342). -/
def State.writeL1 (s : State) (core : Nat) (k : LineKey) (off : Nat) (bs : List Byte) : State :=
  let s := s.modL1 core k fun l =>
    { l with data := lineWrite l.data off bs, dirty := l.dirty ||| byteMask off bs.length, st := if l.perm.swm then l.st else .m }
  match (s.l1.find? fun l => l.core == core && l.key == k).map (fun l => l.place) with
  | some (Place.host hpa) => s.dirtyHalves hpa off bs.length
  | _ => s

/-- A home's copy is written by an atomic, an engine, or a store that fills no L1 line (R339): recorded copies are taken back first. -/
def State.writeL2 (s : State) (k : LineKey) (off : Nat) (bs : List Byte) : State := (s.homeTake k).putL2 k off bs

end Sys2Proof.Machine
end

