-- ==== Sys2Proof/Machine/Agent.lean ====
section
/-! DEFINITION. Accesses made at the homes by agents without an L1 (tellers, engines, the device itself), the freeze and shadow checks,
the rings and the value log: 10_memory R213, R216, R217, R222; 17_coherence R339, R346 to R349; 14_engines R312; 22_retire_debug R397,
R398, R402; 23_host_pod R412. -/

namespace Sys2Proof.Machine

/-! ## Frozen ranges (R346 to R349, R421) -/

/-- The freezes of an ASID whose range covers a line (R346). -/
def State.freezesOver (s : State) (asid line : Nat) : List Freeze :=
  s.freezes.filter fun f => f.asid == asid && decide (f.vpn ≤ line / 32 ∧ line / 32 < f.vpn + f.pages)
/-- The home of the line holds the mark of some freeze: a write there faults with cause 1 (R336). -/
def State.frozenLine (s : State) (asid line : Nat) : Bool :=
  (s.freezesOver asid line).any fun f => f.marked.contains (homeSlice line)
/-- A freeze under which the line is filled as a cloud copy: active, or freezing with this home's mark in place (R347, R348). -/
def Freeze.serves (f : Freeze) (line : Nat) : Bool := f.st == .active || (f.st == .freezing && f.marked.contains (homeSlice line))
/-- The tag of a cloud copy: the id of the innermost serving freeze (R348). -/
def State.cloudTag (s : State) (asid line : Nat) : Option VTag :=
  (oldestBy (·.pages) ((s.freezesOver asid line).filter (·.serves line))).map fun f => { shadow := false, id := f.id }
/-- Reads of the line are served by its home without allocation: a thaw covers it and no other active freeze does (R349). -/
def State.noAlloc (s : State) (asid line : Nat) : Bool :=
  (s.freezesOver asid line).any (fun f => f.st == .dropping || f.st == .unmarking) && (s.cloudTag asid line).isNone

/-! ## Shadow pairs (R312) -/

/-- A VA lies in a range of pages. -/
def inPages (base pages va : Nat) : Bool := decide (base ≤ va ∧ va < base + pages * 4096)
/-- The open pair of a context whose DST holds a VA. -/
def State.pairOfDst? (s : State) (ctx va : Nat) : Option Shadow := s.shadows.find? fun p => p.ctx == ctx && inPages p.dst p.pages va
/-- The open pair of a context whose SHD holds a VA. -/
def State.pairOfShd? (s : State) (ctx va : Nat) : Option Shadow := s.shadows.find? fun p => p.ctx == ctx && inPages p.shd p.pages va
/-- The version tag a line takes at its fill: its pair's, or its innermost freeze's (R312, R348). -/
def State.fillTag (s : State) (ctx asid line : Nat) : Option VTag :=
  match (s.pairOfDst? ctx (line * 128)).orElse fun _ => s.pairOfShd? ctx (line * 128) with
  | some p => some { shadow := true, id := p.id }
  | none => s.cloudTag asid line

/-! ## Held requests -/

/-- The flip in progress covers a VA of an ASID (R353). -/
def State.flipCovers (s : State) (asid va : Nat) : Bool :=
  match s.flip with
  | none => false
  | some f => !f.flip.cmd.getLsbD 58 && f.flip.va.toNat / 4096 == va / 4096
      && (f.flip.cmd.getLsbD 41 || (f.flip.cmd.extractLsb' 42 16).toNat == asid)
/-- New requests to a VA are held: its region is being switched (R344), its page flips (R353), or its page moves and has reached step 4
(R224). -/
def State.heldVa (s : State) (ctx va : Nat) : Bool :=
  (match (s.ctxAt ctx).swmBusy with | some (_, base, _) => base / 2 ^ 21 == va / 2 ^ 21 | none => false)
    || s.flipCovers (s.ctxAt ctx).asid va
    || (match s.migration with | some m => m.switching && m.ctx == ctx && m.va / 2 ^ m.bits == va / 2 ^ m.bits | none => false)
/-- New flits may take a route: it is valid, its link is up, and the other end has not stopped its lane (R413, R414). -/
def State.routeOpen (s : State) (r : RouteEntry) : Bool := !r.cut && s.links.contains r.link && !s.linkStop.contains (r.link, r.lane)
/-- The open route of a (chip, lane) pair. -/
def State.route? (s : State) (chip lane : Nat) : Option RouteEntry :=
  s.podRoutes.find? fun r => r.chip == chip && r.lane == lane && s.routeOpen r
/-- A request of a VA's lane can travel to another chip now. -/
def State.routed (s : State) (chip va : Nat) : Bool := (s.route? chip (homeHash (va / 128) % 8)).isSome

/-- This device's chip id (R410). -/
def State.chip (s : State) : Nat := s.mgmt.chipid.toNat % 256
/-- COORD names this device the freeze coordinator (R346, R413). -/
def State.isCoord (s : State) : Bool := s.mgmt.coord == s.chip
/-- STATE of a freeze entry (R346). -/
def FrzState.code (x : FrzState) : Nat := match x with | .freezing => 1 | .active => 2 | .dropping => 3 | .unmarking => 4
/-- The state of an entry that is not free, from STATE. -/
def FrzState.ofCode (n : Nat) : FrzState := match n with | 1 => .freezing | 2 => .active | 3 => .dropping | _ => .unmarking

/-- The STOP bits that a link's flits carry: the lanes whose receive buffers are stopped here (R414). -/
def State.stopBits (s : State) (link : Nat) : BitVec 8 :=
  BitVec.ofNat 8 (bitSet ((List.range 8).filter fun k => s.linkRx.any fun x => x.link == link && x.lane == k && x.stop))
/-- The sequence number of a link's next flit. -/
def State.txNext (s : State) (link : Nat) : Nat := match s.txSeq.find? (·.1 == link) with | some x => x.2 | none => 0
/-- The flit that carries a message over a route (R414, log 101). -/
def State.flitOf (s : State) (r : RouteEntry) (m : PeerMsg) : Flit :=
  { link := r.link, lane := r.lane, seq := s.txNext r.link, crcOk := true, stops := s.stopBits r.link, msg := some m }
/-- The retry buffers with one more flit: the last 512 of its link stay (R414). -/
def keepFlit (fs : List (Nat × Flit)) (chip : Nat) (f : Flit) : List (Nat × Flit) :=
  let mine := fs.filter (·.2.link == f.link)
  (if mine.length < 512 then fs else match mine.head? with | some o => fs.erase o | none => fs) ++ [(chip, f)]
/-- A message to another chip on a lane: it leaves at once, or waits for a route and for its lane (R413, R414). -/
def State.sendPeer (s : State) (chip lane : Nat) (m : PeerMsg) : State :=
  match s.route? chip lane with
  | some r =>
    let f := s.flitOf r m
    { s with txSeq := (r.link, f.seq + 1) :: s.txSeq.filter (·.1 != r.link), retry := keepFlit s.retry chip f }.send (.toPeer chip f)
  | none => { s with heldOut := s.heldOut ++ [(chip, lane, m)] }
/-- A message to another chip, about a line number. -/
def State.toPeer (s : State) (chip line : Nat) (m : PeerMsg) : State := s.sendPeer chip (homeHash line % 8) m
/-- A request of this chip to the owner of an address. -/
def State.askPeer (s : State) (chip asid a : Nat) (k : RemoteKind) : State :=
  s.toPeer chip (a / 128) (.request { chip := s.chip, va := BitVec.ofNat 64 a, asid := asid, kind := k })

/-- A message of the freeze protocol to the coordinator (R346); all take one lane, so that they stay in order. -/
def State.toCoord (s : State) (m : PeerMsg) : State := s.toPeer s.mgmt.coord 0 m
/-- The coordinator sends an entry, or STATE 0 for one it frees, to every mirror (R346). -/
def State.tellMirrors (s : State) (f : Freeze) (st : Nat) : State :=
  s.peers.foldl (fun s p => s.toPeer p 0 (.frzEntry f.id f.asid f.vpn f.pages f.count st f.origin)) s
/-- A freeze's count falls at this device, by one or to 0: the coordinator tells its mirrors, and starts a thaw at 0; another device tells
the coordinator (R275, R346). -/
def State.lowerCount (s : State) (f : Freeze) (all : Bool) : State :=
  let n := if all then 0 else f.count - 1
  let s := { s with freezes := updWhere (·.id == f.id) (fun f => { f with count := n }) s.freezes }
  if s.isCoord then
    let s := s.tellMirrors { f with count := n } f.st.code
    if n = 0 ∧ !s.thawReqs.contains (f.asid, f.id) then { s with thawReqs := s.thawReqs ++ [(f.asid, f.id)] } else s
  else s.toCoord (.thaw f.asid f.id all)

/-! ## Translation (R213, R216, R217) -/

/-- Why an access is not served: a translation cause with its address, memory that does not exist, a write to a marked line, an access
to an unpublished shadow, a write to the weight store, host memory without CXLCACHE (R46), or a request that must wait. -/
inductive Denied where
  | walk (cause va : Nat)
  | absent (pa : Nat)
  | frozen (va : Nat)
  | shadow (va : Nat)
  | wstore (va : Nat)
  | unavailable (va : Nat)
  | held
  deriving DecidableEq, Repr

/-- Where a VA lies, as a translation gave it. -/
structure Xlat where
  perm : Perm
  place : Place
  key : LineKey
  deriving DecidableEq, Repr

/-- A core outside the owner mask of a software-managed region (R342). -/
def State.notOwner (s : State) (ctx va : Nat) (core : Option Nat) : Bool :=
  match s.swmAt? ctx va, core with
  | some r, some k => !r.owners.contains k
  | _, _ => false

/-- TIER of a hotness record (R222). -/
def tierOf (p : Place) : Nat := match p with | .wstore _ => 0 | .lpddr _ => 1 | .host _ => 2 | .remote _ _ _ => 3

/-- Translates a VA: the TLB beside its controller, or a walk when that has no entry or one that denies the access; after a denying
cached copy the walk ignores the TLB (R213, R217). -/
def State.translate (s : State) (ctx va : Nat) (w : Want) (core : Option Nat) (fresh : Bool := false) : Except Denied (Xlat × State) :=
  let asid := (s.ctxAt ctx).asid
  let viaWalk : Except Denied (Xlat × State) :=
    match s.walk ctx va w core with
    | .fault c => .error (.walk c va)
    | .absent pa => .error (.absent pa)
    | .leaf l =>
      match ((l.placeAt (va / 128 * 128)).absent 128) with
      | some pa => .error (.absent pa)
      | none => .ok ({ perm := l.perm, place := l.placeAt va, key := l.key asid va }, s.walked ctx va l)
  if 2 ^ 57 ≤ va then .error (.walk 1 va)
  else
    match s.tlb? (controllerOf va) asid va with
    | some e =>
      if !fresh && e.perm.allows w && !s.notOwner ctx va core && !s.remoteFaults (e.placeAt va) then
        .ok ({ perm := e.perm, place := e.placeAt va, key := e.key va }, s.tlbUse asid va)
      else viaWalk
    | none => viaWalk

/-- Where the bytes of an access are: a line of the L2, or memory itself. -/
inductive Site where
  | l2 (k : LineKey)
  | memory (p : Place)
  deriving DecidableEq, Repr

/-! ## Host lines (R354, R355) -/

/-- Asks the host for what the line lacks, one message for each half: RdShared for a half not held, RdOwn for one held in S or not
held when ownership is wanted; the answer is HOST_LINE_FILL. -/
def State.askHost (s : State) (r : HostReq) (hpa : Nat) : State :=
  let s := (halvesOf hpa).foldl (fun s h =>
    match s.half? h with
    | none => s.send (.d2h (if r.own then d2hRdOwn else d2hRdShared) h [])
    | some b => if r.own && b.st == .s then s.send (.d2h d2hRdOwn h []) else s) s
  { s with hostReqs := s.hostReqs ++ [r] }

/-- Evicts device lines while the bridge is full, the least recently filled first (R355). -/
def State.bridgeRoom (s : State) : State :=
  if s.bridge.length + 2 ≤ 2097152 then s
  else
    match oldestBy (·.stamp) (s.bridge.filter (·.inLine)) with
    | some h => s.evictL2 h.key
    | none => s

/-- The bridge holds both halves of a line, in E or M where they must be owned. -/
def State.hasHalves (s : State) (hpa : Nat) (own : Bool) : Bool :=
  (halvesOf hpa).all fun h => match s.half? h with | some b => !own || b.st != .s | none => false
/-- A request for the line is with the host. -/
def State.asked (s : State) (k : LineKey) : Bool := s.hostReqs.any (·.key == k)

/-- The host has answered: both halves are held in the line, shared or owned; a half that was in the bridge's buffer, or already in the
line, keeps its data and its state, except that S becomes E with ownership (R355). The line takes its version tag now (R348). A read's fill
under a thaw that no other active freeze covers is discarded, and its halves return to the host (R349). -/
def State.hostAnswer (s : State) (r : HostReq) (hpa : Nat) : State :=
  let s := s.bridgeRoom
  let gained : Dir := if r.own then .e else .s
  let half (s : State) (h : Nat) : BridgeHalf :=
    match s.half? h with
    | some b => { b with st := if r.own && b.st == .s then .e else b.st, key := r.key, inLine := true, stamp := s.stamp }
    | none => { hpa := h, st := gained, key := r.key, inLine := true, data := s.mems.read (.host h) 64, stamp := s.stamp }
  let hs := (halvesOf hpa).map (half s)
  let held := (s.l2Key? r.key).isSome
  let s := { s with bridge := s.bridge.filter (fun b => b.hpa / 128 != hpa / 128) ++ hs.map (fun b => { b with data := [] }),
                    hostReqs := s.hostReqs.filter (·.key != r.key), stamp := s.stamp + 1 }
  if held then s
  else
    if !r.own && s.noAlloc r.asid r.key.line then hs.foldl (fun s b => s.evictHalf b b.data) s
    else s.fillL2 r.key r.place r.perm (s.fillTag r.ctx r.asid r.key.line) (lineOf (hs.flatMap (·.data)))

/-- The home gets a host line for an agent without an L1, owned when it is to be written: the host answers at once (log 123). -/
def State.hostLine (s : State) (ctx : Nat) (key : LineKey) (p : Place) (perm : Perm) (hpa : Nat) (own : Bool) : State :=
  let r : HostReq := { key := key, ctx := ctx, asid := (s.ctxAt ctx).asid, own := own, place := p, perm := perm }
  (if s.hasHalves hpa own then s else s.askHost r hpa).hostAnswer r hpa

/-- Where a VA that no slice serves is served: memory, or, for host memory, a line filled through the bridge, owned before it is
written (R341, R354, R355); a request for a line that is in a transaction with the host waits (R340). -/
def State.missSite (s : State) (ctx va : Nat) (w : Want) (x : Xlat) : Except Denied (Site × Perm × State) :=
  match x.place with
  | .remote chip _ _ => if s.routed chip va then .ok (.memory x.place, x.perm, s) else .error .held
  | .host hpa =>
    if !w.wr && s.noAlloc (s.ctxAt ctx).asid (va / 128) then .ok (.memory x.place, x.perm, s)
    else if s.asked x.key then .error .held
    else
      let line : Place := .host (hpa / 128 * 128)
      .ok (.l2 x.key, x.perm, s.hostLine ctx x.key line x.perm hpa w.wr)
  | _ => .ok (.memory x.place, x.perm, s)

/-- Finds where a VA is served at its home: the L2 line when its copy of the leaf grants the access (R217), else as a miss. -/
def State.site (s : State) (ctx va : Nat) (w : Want) (core : Option Nat) : Except Denied (Site × Perm × State) :=
  if 2 ^ 57 ≤ va then .error (.walk 1 va)
  else if s.heldVa ctx va then .error .held
  else
    let asid := (s.ctxAt ctx).asid
    match s.l2? asid (va / 128) with
    | some h =>
      if s.asked h.key then .error .held
      else if h.perm.allows w && !s.notOwner ctx va core then
        match h.place with
        | .host hpa =>
          .ok (.l2 h.key, h.perm, if !w.wr || isCloud h.vtag || s.halvesOwned hpa then s else s.hostLine ctx h.key h.place h.perm hpa true)
        | _ => .ok (.l2 h.key, h.perm, s)
      else
        match (s.evictL2 h.key).translate ctx va w core true with
        | .error d => .error d
        | .ok (x, s) => s.missSite ctx va w x
    | none =>
      match s.translate ctx va w core with
      | .error d => .error d
      | .ok (x, s) => s.missSite ctx va w x

/-! ## Reads and writes at the homes (R339) -/

/-- A range of VA cut at line ends: address and length of each part. -/
def linePieces (va n : Nat) : List (Nat × Nat) :=
  if n = 0 then []
  else (List.range ((va + n - 1) / 128 - va / 128 + 1)).map fun i =>
    let a := if i = 0 then va else (va / 128 + i) * 128
    (a, min (va + n) ((va / 128 + i + 1) * 128) - a)

/-- Halves of host memory in the bridge's buffer that a range touches go back to the host, so that the port meets their data (R355). -/
def State.flushHalves (s : State) (hpa n : Nat) : State :=
  (s.bridge.filter fun b => !b.inLine && decide (b.hpa < hpa + n ∧ hpa < b.hpa + 64)).foldl (fun s b => s.evictHalf b b.data) s
/-- The 64-byte host lines that a range touches. -/
def hostLines (a n : Nat) : List Nat := (List.range ((a + n - 1) / 64 - a / 64 + 1)).map fun i => (a / 64 + i) * 64
/-- An uncached read at the CXL port (R351, R352): RdCurr for each host line. -/
def State.portRead (s : State) (a n : Nat) : State := (hostLines a n).foldl (fun s h => s.send (.d2h d2hRdCurr h [])) s
/-- An uncached write at the port, after the memory has taken it: ItoMWr for a whole host line, else RdOwn and DirtyEvict (R351, R352,
log 124). -/
def State.portWrite (s : State) (a n : Nat) (line : Nat → List Byte) : State :=
  (hostLines a n).foldl (fun s h =>
    if a ≤ h ∧ h + 64 ≤ a + n then s.send (.d2h d2hItoMWr h (line h))
    else (s.send (.d2h d2hRdOwn h [])).send (.d2h d2hDirtyEvict h (line h))) s
/-- The host address of a frame of device memory that is in host bias (R352, R358). -/
def State.biased? (s : State) (pa : Nat) : Option Nat := if s.bias.contains (pa / 4096) then some (s.mgmt.hdmBase + pa) else none

/-- Reads at a site: an L2 line is brought up to date first (R339); host memory and a page in host bias are read at the port. -/
def State.readSite (s : State) (x : Site) (va n : Nat) : List Byte × State :=
  match x with
  | .l2 k =>
    let s := s.homeClean k
    match s.l2Key? k with
    | some h => (((lineBytes h.data).drop (va % 128)).take n, s)
    | none => (List.replicate n 0, s)
  | .memory p =>
    match p with
    | .remote chip asid a =>
      (s.mems.read p n, s.askPeer chip asid a (.load n))
    | .host hpa => let s := s.flushHalves hpa n; (s.mems.read p n, s.portRead hpa n)
    | .lpddr pa => (s.mems.read p n, match s.biased? pa with | some a => s.portRead a n | none => s)
    | .wstore _ => (s.mems.read p n, s)

/-- Writes at a site: recorded copies are taken back first (R339); host memory and a page in host bias are written at the port. -/
def State.writeSite (s : State) (x : Site) (va : Nat) (bs : List Byte) : State :=
  match x with
  | .l2 k => s.writeL2 k (va % 128) bs
  | .memory p =>
    let s := match p with | .host hpa => s.flushHalves hpa bs.length | _ => s
    let s := { s with mems := s.mems.write p bs }
    match p with
    | .host hpa => s.portWrite hpa bs.length fun h => s.mems.read (.host h) 64
    | .lpddr pa =>
      match s.biased? pa with
      | some a => s.portWrite a bs.length fun h => s.mems.read (.lpddr (h - s.mgmt.hdmBase)) 64
      | none => s
    | .remote chip asid a => s.askPeer chip asid a (.store bs)
    | .wstore _ => s

/-- A read-modify-write at a site in one step: another chip's memory is changed by one request, which its home executes (R236). -/
def State.updateSite (s : State) (x : Site) (va n : Nat) (f : List Byte → List Byte) (kind : Option RemoteKind) : List Byte × State :=
  match x, kind with
  | .memory (.remote chip asid a), some k =>
    let old := s.mems.read (.remote chip asid a) n
    (old, { s with mems := s.mems.write (.remote chip asid a) (f old) }.askPeer chip asid a k)
  | x, _ => let r := s.readSite x va n; (r.1, r.2.writeSite x va (f r.1))

/-- How an agent's access is checked beyond translation (R210, R228 step 5, R312). -/
structure Rights where
  /-- Copies of a WSTORE_LOAD launch may write the weight store (R210). -/
  weights : Bool := false
  /-- Writes of the device's own, and copies into DST, may go to SHD (R312). -/
  shd : Bool := false
  core : Option Nat := none
  deriving DecidableEq, Repr

/-- The sites of every part of an access, in address order, each translated and checked before anything is performed (R228). What an L1 of
the access's own core holds over a part is performed at its home first (R332, log 140). -/
def State.sites (s : State) (ctx : Nat) (w : Want) (r : Rights) :
    List (Nat × Nat) → Except Denied (List (Site × Nat × Nat) × State)
  | [] => .ok ([], s)
  | (va, n) :: rest =>
    let s := match r.core with | some c => s.settleFor c (s.ctxAt ctx).asid (va / 128) | none => s
    match s.site ctx va w r.core with
    | .error d => .error d
    | .ok (x, perm, s) =>
      if perm.typ == .host && !Config.available 6 then .error (.unavailable va)
      else if w.wr && perm.typ == .wstore && !r.weights then .error (.wstore va)
      else if w.wr && s.frozenLine (s.ctxAt ctx).asid (va / 128) then .error (.frozen va)
      else if !r.shd && (s.pairOfShd? ctx va).isSome then .error (.shadow va)
      else
        match s.sites ctx w r rest with
        | .error d => .error d
        | .ok (xs, s) => .ok ((x, va, n) :: xs, s)

/-- Reads `n` bytes of a context's memory at the homes. -/
def State.vaRead (s : State) (ctx va n : Nat) (r : Rights := {}) : Except Denied (List Byte × State) :=
  match s.sites ctx .load r (linePieces va n) with
  | .error d => .error d
  | .ok (xs, s) =>
    .ok (xs.foldl (fun (acc : List Byte × State) x => let p := acc.2.readSite x.1 x.2.1 x.2.2; (acc.1 ++ p.1, p.2)) ([], s))

/-- Writes bytes of a context's memory at the homes. -/
def State.vaWrite (s : State) (ctx va : Nat) (bs : List Byte) (r : Rights := {}) : Except Denied State :=
  match s.sites ctx .store r (linePieces va bs.length) with
  | .error d => .error d
  | .ok (xs, s) => .ok (xs.foldl (fun s x => s.writeSite x.1 x.2.1 ((bs.drop (x.2.1 - va)).take x.2.2)) s)

/-- Reads and rewrites `n` aligned bytes of a context's memory as one indivisible step at the home (R237, R264); the result holds the
bytes read. -/
def State.vaUpdate (s : State) (ctx va n : Nat) (f : List Byte → List Byte) (kind : Option RemoteKind) (r : Rights := {}) :
    Except Denied (List Byte × State) :=
  match s.sites ctx .atomic r (linePieces va n) with
  | .error d => .error d
  | .ok (x :: _, s) => .ok (s.updateSite x.1 va n f kind)
  | .ok ([], s) => .ok ([], s)

/-! ## Rings (R412) -/

/-- Ring numbers: fault, hotness, trap, trace. -/
def ringFault : Nat := 0
def ringHot : Nat := 1
def ringTrap : Nat := 2
def ringTrace : Nat := 3

/-- A ring of a context. -/
def State.ringAt (s : State) (ctx ring : Nat) : Ring := (s.ctxAt ctx).rings.getD ring .reset
/-- Changes a ring of a context. -/
def State.modRing (s : State) (ctx ring : Nat) (f : Ring → Ring) : State :=
  s.modCtx ctx fun c => { c with rings := c.rings.modify ring f }
/-- LOG2N names a ring size (R412). -/
def Ring.enabled (r : Ring) : Bool := decide (4 ≤ r.log2n ∧ r.log2n ≤ 20)
/-- Full, or disabled, which is handled as full (R412). -/
def Ring.full (r : Ring) : Bool := !r.enabled || (r.prod - r.cons).toNat == 2 ^ r.log2n
/-- A saturating count one higher. -/
def satInc (w : Word) : Word := if w = 0xFFFFFFFF then w else w + 1
/-- One more record of a ring discarded (R412). -/
def State.ringLost (s : State) (ctx ring : Nat) : State := s.modRing ctx ring fun r => { r with lost := satInc r.lost }

/-- Records of a ring wait for their page (R344, R353). -/
def State.ringWaits (s : State) (ctx ring : Nat) : Bool :=
  s.heldRecs.any fun r => match r with | .ring c k _ => c == ctx && k == ring | _ => false

/-- Writes a record to a ring, then PROD, then sends the ring's message; none when the ring is full. A record whose page holds new
requests waits for it, and those after it with it (R344, R353); one whose place cannot be written is discarded (R412). -/
def State.ringPut (s : State) (ctx ring : Nat) (bytes : List Byte) : Option State :=
  let r := s.ringAt ctx ring
  if r.full then none
  else if s.ringWaits ctx ring || s.heldVa ctx (r.base.toNat + (r.prod.toNat % 2 ^ r.log2n) * bytes.length) then
    some { s with heldRecs := s.heldRecs ++ [.ring ctx ring bytes] }
  else
    let va := r.base.toNat + (r.prod.toNat % 2 ^ r.log2n) * bytes.length
    let typed : Bool := match s.translate ctx va .store none with | .ok (x, _) => x.perm.typ == .local || x.perm.typ == .host | .error _ => false
    match (if typed then s.vaWrite ctx va bytes { shd := true } else .error (.walk 0 va)) with
    | .error .held => some { s with heldRecs := s.heldRecs ++ [.ring ctx ring bytes] }
    | .error _ => some (s.ringLost ctx ring)
    | .ok s =>
      let s := s.modRing ctx ring fun r => { r with prod := r.prod + 1 }
      let vectors := (s.ctxAt ctx).vectors.toNat
      some (if ring = ringFault then s.notify (bits vectors 22 11)
            else if ring = ringTrap then s.notify (bits vectors 11 11) else s)

/-! ## The value log (R396 to R398) -/

/-- An agent that reads a non-deterministic value: column, stage, TID, strand (R397). -/
structure Reader where
  col : Nat
  stage : Nat
  tid : Nat
  strand : Nat
  deriving DecidableEq, Repr

/-- The agent of a teller (R397). -/
def GroupId.tellerReader (g : GroupId) : Reader := { col := g.col, stage := g.stage, tid := 0x1FF, strand := 0 }

/-- A flag bit of a launch block (R78). -/
def Launch.flag (l : Launch) (bit : Nat) : Bool := (numAt l.block 10 2).testBit (bit - 80)
/-- CAPTURE is set (R78). -/
def Launch.captures (l : Launch) : Bool := l.flag 80

/-- An entry of the value log (R397). -/
def logEntry (a : Reader) (src v : Nat) : List Byte :=
  leBytes 16 (packFields [(a.col, 32), (a.stage, 2), (a.tid, 9), (a.strand, 4), (src, 5), (0, 12), (v, 64)])

/-- Writes an entry of a launch's value log at a position; one that cannot be written sets CAPTRUNC (R397). -/
def State.putLog (s : State) (launch pos : Nat) (bytes : List Byte) : State :=
  match s.launch? launch with
  | none => s
  | some l =>
    match s.vaWrite l.ctx ((s.ctxAt l.ctx).capbase.toNat + pos) bytes { shd := true } with
    | .error .held => { s with heldRecs := s.heldRecs ++ [.log launch pos bytes] }
    | .error _ => s.modLaunch launch fun l => { l with capTrunc := true }
    | .ok s => s

/-- Appends an entry to a launch's value log; a log without room sets CAPTRUNC (R397). One whose page holds new requests waits for it
(R344, R353). -/
def State.logValue (s : State) (launch : Nat) (a : Reader) (src v : Nat) : State :=
  match s.launch? launch with
  | none => s
  | some l =>
    if !l.captures || l.capFail || !l.capDone then s
    else
      let c := s.ctxAt l.ctx
      if c.capsize.toNat < l.capPos + 16 then s.modLaunch launch fun l => { l with capTrunc := true }
      else
        let s := s.modLaunch launch fun l => { l with capPos := l.capPos + 16 }
        s.putLog launch l.capPos (logEntry a src v)

/-- Pushes a freed frame back to a migration stack of the system context: [31:0] COUNT, then the frames (R412). A stack whose page holds new
requests takes it once they go on. -/
def State.pushFrame (s : State) (va frame : Nat) : State :=
  let later : State := { s with heldRecs := s.heldRecs ++ [.frame va frame] }
  match s.vaRead 0 va 8 with
  | .error .held => later
  | .error _ => s
  | .ok (bs, t) =>
    let n := leNat bs % 2 ^ 32
    match t.vaWrite 0 (va + 8 * (n + 1)) (leBytes 8 frame) with
    | .error .held => later
    | .error _ => s
    | .ok t => match t.vaWrite 0 va (leBytes 4 (n + 1)) with | .ok s => s | .error .held => later | .error _ => s
/-- A table, a report or a dump of a context at a VA: it is written at once, or once its pages take requests; one that cannot be written is
lost. -/
def State.putBytes (s : State) (ctx va : Nat) (bytes : List Byte) (dump : Bool) : State :=
  match s.vaWrite ctx va bytes { shd := true } with
  | .ok s => s
  | .error .held =>
    { s with heldRecs := s.heldRecs ++ [.write ctx va bytes dump], mgmt := { s.mgmt with dumpBusy := s.mgmt.dumpBusy || dump } }
  | .error _ => s
/-- A table, a report or a dump is written (log 130). -/
def State.putTable (s : State) (ctx va : Nat) (bytes : List Byte) (dump : Bool) : Host.Outcome State Fault Refusal :=
  match s.vaWrite ctx va bytes { shd := true } with
  | .error (.absent pa) => .fault (.noSuchMemory pa)
  | _ => .next (s.putBytes ctx va bytes dump)
/-- An event of the device whose memory is held: it comes about once the memory goes on (R340, R344, R353). -/
def State.holdEvent (s : State) (e : LateEvent) : State := { s with heldRecs := s.heldRecs ++ [.event e] }

/-- A record that waited is written, or waits on where its page is still held; a fault or trap record that finds its ring full keeps
waiting (R219, R370), any other is lost. -/
def State.putHeld (s : State) (r : HeldRec) : State :=
  match r with
  | .ring ctx ring bytes =>
    match s.ringPut ctx ring bytes with
    | some s => s
    | none =>
      if ring = ringFault ∨ ring = ringTrap then { s with heldRecs := s.heldRecs ++ [.ring ctx ring bytes] } else s.ringLost ctx ring
  | .log launch pos bytes => s.putLog launch pos bytes
  | .frame va frame => s.pushFrame va frame
  | .write ctx va bytes dump => s.putBytes ctx va bytes dump
  | .event _ => s
/-- What waited for a page goes on, in order: records and frames are written, and events come next (R344, R353). -/
def State.releaseRecs (s : State) : State :=
  if s.heldRecs.isEmpty then s else
  let events := s.heldRecs.filterMap fun r => match r with | .event e => some (Turn.late e) | _ => none
  let s := s.heldRecs.foldl State.putHeld { s with heldRecs := [], mgmt := { s.mgmt with dumpBusy := false } }
  { s with agenda := events ++ s.agenda }

/-- Whether a source is replayed in a re-run (R398). -/
def replayed (src : Nat) : Bool := src == 1 || (decide (12 ≤ src ∧ src ≤ 18)) || src == 24

/-- What names an agent and a source in an entry: its bits [63:0], as a number (R397). -/
def logKey (a : Reader) (src : Nat) : Nat := leNat ((logEntry a src 0).take 8)
/-- The entries of a value log from a position on, `fuel` of them at most, each its bits [63:0] and its VALUE. A log ends at its first entry
of zeros, or at one that cannot be read (log 20). -/
def State.readLog (s : State) (ctx base : Nat) : Nat → Nat → Except Denied (List (Nat × Nat) × State)
  | 0, _ => .ok ([], s)
  | fuel + 1, pos =>
    match s.vaRead ctx (base + pos) 16 { shd := true } with
    | .error .held => .error .held
    | .error _ => .ok ([], s)
    | .ok (bs, t) =>
      if bs.all (· == 0) then .ok ([], t)
      else
        match t.readLog ctx base fuel (pos + 16) with
        | .error d => .error d
        | .ok (es, u) => .ok ((numAt bs 0 8, numAt bs 8 8) :: es, u)
/-- More entries than memory can hold that are not zero. -/
def State.logFuel (s : State) : Nat :=
  s.mems.lpddr.length + s.mems.host.length + s.mems.remote.length + s.mems.wstore.length + 8 * (s.l1.length + s.l2.length + s.bridge.length) + 1

/-- A non-deterministic read: in a re-run the agent's next logged value of the source, or the live one with RDIVERGE where a replayed read
finds none; a live result that differs from its entry sets it too. What is read is logged under CAPTURE (R397, R398). -/
def State.readValue (s : State) (launch : Nat) (a : Reader) (src live : Nat) : Nat × State :=
  match s.launch? launch with
  | none => (live, s)
  | some l =>
    match l.replay with
    | none => (live, s.logValue launch a src live)
    | some es =>
      match es.find? (·.1 == logKey a src) with
      | none => (live, (s.modLaunch launch fun l => { l with rDiverge := l.rDiverge || replayed src }).logValue launch a src live)
      | some e =>
        let s := s.modLaunch launch fun l =>
          { l with replay := some (es.erase e), rDiverge := l.rDiverge || (e.2 != live && !replayed src) }
        let got := if replayed src then e.2 else live
        (got, s.logValue launch a src got)

/-! ## Trace records (R402, R403) -/

/-- The event trace is on for a launch of a context: TRACE_EVT and TRCCTL.EN (R402, R403). -/
def State.traced (s : State) (g : GroupId) (ctx : Nat) : Bool :=
  (s.ctxAt ctx).trcctl.getLsbD 0 && (match s.launch? g.launch with | some l => l.flag 84 | none => false)

/-- A trace record of a group, on its way to the ring (R402). -/
def State.trace (s : State) (g : Group) (ev id crew : Nat) (teller : Bool) (mask : Nat) (pc : Addr) : State :=
  if !s.traced g.id g.ctx then s
  else
    let bytes := leBytes 16 (packFields [(ev, 2), (id, 4), (crew, 5), (g.id.stage, 2), (0, 2), (teller.toNat, 1), (mask, 16),
      (g.id.col, 32), (if ev = 3 then 0 else pc.toNat, 32), (g.cycle, 32)])
    s.modCore g.core fun k => { k with traceQ := k.traceQ ++ [(g.ctx, bytes)] }

/-- Writes a core's trace records to their rings, in order; a full ring loses a record, or in lossless mode of the system context
keeps it and those after it, which holds the core (R402, R403). -/
def State.flushTrace (s : State) (core : Nat) : List (Nat × List Byte) → State
  | [] => s.modCore core fun k => { k with traceQ := [] }
  | (ctx, bytes) :: rest =>
    match s.ringPut ctx ringTrace bytes with
    | some s => s.flushTrace core rest
    | none =>
      if ctx = 0 ∧ (s.ctxAt 0).trcctl.getLsbD 1 then s.modCore core fun k => { k with traceQ := (ctx, bytes) :: rest }
      else (s.ringLost ctx ringTrace).flushTrace core rest

/-- A mask of TIDs' lanes in a crew. -/
def laneMask (crew : Nat) (tids : List Nat) : Nat := (tids.filter fun t => crewOf t == crew).foldl (fun m t => m ||| 2 ^ laneOf t) 0

/-! ## Hotness samples (R222) -/

/-- The migration engine counts a sample of a page, named by its first 4 KiB, in a table of 1,024 entries (R223). -/
def State.migSample (s : State) (ctx page : Nat) : State :=
  if s.migCount.any (·.1 == (ctx, page)) then
    { s with migCount := updWhere (·.1 == (ctx, page)) (fun x => (x.1, x.2 + 1)) s.migCount }
  else if 1024 ≤ s.migCount.length then s
  else { s with migCount := ((ctx, page), 1) :: s.migCount }

/-- Counts a translated request of a context, and writes one in N to the hotness ring; a full ring loses it (R222). `reader` is the
agent of a launch that the request served. -/
def State.hotSample (s : State) (ctx va core typ : Nat) (p : Place) (launch : Nat) (reader : Option Reader) : State :=
  let c := controllerOf va
  let cfg := (s.ctxAt ctx).hotcfg.toNat
  let logN := bits cfg 1 5
  let count := (s.ctxAt ctx).hotCount.getD c 0 + 1
  let s := s.modCtx ctx fun x => { x with hotCount := x.hotCount.set c count }
  if cfg % 2 = 0 ∨ logN < 8 ∨ 20 < logN ∨ count % 2 ^ logN ≠ 0 then s
  else
    let lo := packFields [(va / 128, 50), (core, 8), (typ, 4), (tierOf p, 2)]
    let page := match s.tlb? c (s.ctxAt ctx).asid va with | some e => e.base / 4096 | none => va / 4096
    let s := s.migSample ctx page
    let s := match s.ringPut ctx ringHot (leBytes 16 (lo + 2 ^ 64 * (s.time % 2 ^ 64))) with
      | some s => s
      | none => s.ringLost ctx ringHot
    match reader with
    | some a => s.logValue launch a 27 lo
    | none => s

/-- Where the bytes of a part lie. -/
def State.placeOf (s : State) (x : Site × Nat × Nat) : Option Place :=
  match x.1 with
  | .memory p => some p
  | .l2 k => (s.l2Key? k).map fun h => h.place.add (x.2.1 % 128)
/-- The L2 holds the line of a VA with a copy of the leaf that grants the access, so that nothing is translated (R213, R217). -/
def State.l2Serves (s : State) (ctx va : Nat) (w : Want) (core : Option Nat) : Bool :=
  match s.l2? (s.ctxAt ctx).asid (va / 128) with | some h => h.perm.allows w && !s.notOwner ctx va core | none => false
/-- Hotness samples of the parts of an access that missed in the L2 of the state `pre`: made for a core, recorded as that of `label`, for
the agent of a launch, if any (R222). -/
def State.sampleSites (s pre : State) (ctx label typ : Nat) (w : Want) (core : Option Nat) (who : Option (Nat × Reader))
    (xs : List (Site × Nat × Nat)) : State :=
  xs.foldl (fun s x =>
    match pre.l2Serves ctx x.2.1 w core, s.placeOf x with
    | false, some p => s.hotSample ctx x.2.1 label typ p ((who.map (·.1)).getD 0) (who.map (·.2))
    | _, _ => s) s

end Sys2Proof.Machine
end

