-- ==== Sys2Proof/Machine/Numbers.lean ====
section
/-! DEFINITION. Number formats, exact values, rounding, encoding and `form_result`: 07_numbers R136 to R151. -/

namespace Sys2Proof.Machine

/-- An exact value: (-1)^neg × mag × 2^exp, an infinity, or NaN (R147). -/
inductive XVal where
  | nan
  | inf (neg : Bool)
  | fin (neg : Bool) (mag : Nat) (exp : Int)
  deriving DecidableEq, Repr

/-- A format: W, UNS, E, BIAS, SPEC (R136) and the extra value (R140, R142). -/
structure Fmt where
  w : Nat
  uns : Bool := false
  e : Nat
  bias : Int
  spec : Nat
  xv : Option (Bool × Nat × Int) := Option.none
  deriving DecidableEq, Repr

/-- Mantissa bits (R136). -/
def Fmt.m (f : Fmt) : Nat := if f.uns then f.w - f.e else f.w - 1 - f.e

/-- R137. -/
def fp32 : Fmt := { w := 32, e := 8, bias := 127, spec := 2 }
/-- R137. -/
def fp16 : Fmt := { w := 16, e := 5, bias := 15, spec := 2 }
/-- R137. -/
def bf16 : Fmt := { w := 16, e := 8, bias := 127, spec := 2 }
/-- R137. -/
def e4m3 : Fmt := { w := 8, e := 4, bias := 7, spec := 1 }
/-- R137. -/
def e5m2 : Fmt := { w := 8, e := 5, bias := 15, spec := 2 }
/-- R137. -/
def e2m1 : Fmt := { w := 4, e := 2, bias := 1, spec := 0 }

/-- A format register's word read as a format (R140). -/
def Fmt.ofReg (r : Word) : Fmt :=
  { w := (r.extractLsb' 0 4).toNat, e := (r.extractLsb' 4 3).toNat, uns := r.getLsbD 7, bias := (r.extractLsb' 8 8).toInt,
    spec := (r.extractLsb' 16 2).toNat,
    xv := if r.getLsbD 18 then
        some (r.getLsbD 26, 8 + (r.extractLsb' 19 3).toNat, ((r.extractLsb' 22 4).toNat : Int) - 10)
      else Option.none }

/-- Whether a format-register word is legal (R141). -/
def fmtLegal (r : Word) : Bool :=
  let f := Fmt.ofReg r
  let body := if f.uns then f.w else f.w - 1
  decide (2 ≤ f.w ∧ f.w ≤ 8) && decide (f.e + 1 ≤ f.w) && f.spec != 3 && (f.spec != 1 || decide (2 ≤ body))
    && (f.spec != 2 || decide (2 ≤ f.e ∧ 1 ≤ f.m)) && (!r.getLsbD 18 || (decide (f.w ≤ 4) && !f.uns))
    && (r.getLsbD 18 || r.extractLsb' 19 8 == 0) && r.extractLsb' 27 5 == 0

/-- The reset word of a format register (R140). -/
def fmtReset : Word := 0x00000124

/-- The container width of a programmable narrow format (R139). -/
def Fmt.container (f : Fmt) : Nat := if f.w ≤ 2 then 2 else if f.w ≤ 4 then 4 else 8

/-- The value of a code, special codes and the extra value included (R136, R142). -/
def Fmt.value (f : Fmt) (code : Nat) : XVal :=
  let code := code % 2 ^ f.w
  let neg := !f.uns && code.testBit (f.w - 1)
  let body := if f.uns then code else code % 2 ^ (f.w - 1)
  let ex := body / 2 ^ f.m
  let man := body % 2 ^ f.m
  let ones := if f.uns then 2 ^ f.w - 1 else 2 ^ (f.w - 1) - 1
  if f.spec = 1 ∧ body = ones then .nan
  else if f.spec = 2 ∧ ex = 2 ^ f.e - 1 then (if man = 0 then .inf neg else .nan)
  else
    match f.xv with
    | some (s, mg, xe) => if neg ∧ body = 0 then .fin s mg xe
        else if ex = 0 then .fin neg man (1 - f.bias - f.m) else .fin neg (2 ^ f.m + man) (ex - f.bias - f.m)
    | Option.none =>
        if ex = 0 then .fin neg man (1 - f.bias - f.m) else .fin neg (2 ^ f.m + man) (ex - f.bias - f.m)

/-! ## Magnitudes -/

/-- floor(log2) of a non-zero magnitude. -/
def topOf (mag : Nat) (exp : Int) : Int := (mag.log2 : Int) + exp

/-- mag × 2^exp rounded down to a multiple of 2^q: the multiple, and how the rest compares with half of 2^q (`none`: no rest). -/
def cutAt (mag : Nat) (exp q : Int) : Nat × Option Ordering :=
  if q ≤ exp then (mag * 2 ^ (exp - q).toNat, Option.none)
  else
    let d := (q - exp).toNat
    if mag = 0 then (0, Option.none)
    else if mag.log2 + 1 < d then (0, some .lt)
    else
      let r := mag % 2 ^ d
      (mag / 2 ^ d, if r = 0 then Option.none else some (compare (2 * r) (2 ^ d)))

/-- Compare two magnitudes. -/
def cmpMag (m1 : Nat) (e1 : Int) (m2 : Nat) (e2 : Int) : Ordering :=
  if m1 = 0 then (if m2 = 0 then .eq else .lt)
  else if m2 = 0 then .gt
  else
    match compare (topOf m1 e1) (topOf m2 e2) with
    | .eq => let e := min e1 e2; compare (m1 * 2 ^ (e1 - e).toNat) (m2 * 2 ^ (e2 - e).toNat)
    | o => o

/-- A rounding candidate's magnitude, whether bit 0 of its code (of its M in the grid) is set, and whether it lies in G (R144). -/
structure Cand where
  mag : Nat
  exp : Int
  odd : Bool
  grid : Bool
  deriving DecidableEq, Repr

/-- Zero, which every format has. -/
def Cand.zero : Cand := ⟨0, 0, false, false⟩
/-- Compare two candidates by magnitude. -/
def Cand.cmp (a b : Cand) : Ordering := cmpMag a.mag a.exp b.mag b.exp

/-- Every finite code of sign `neg`, the extra value last, so that an equal code stands before it (R142). -/
def Fmt.finite (f : Fmt) (neg : Bool) : List Cand :=
  let half := if f.uns then 2 ^ f.w else 2 ^ (f.w - 1)
  let codes := (List.range half).filterMap fun b =>
    match ({ f with xv := Option.none } : Fmt).value b with
    | .fin _ mg x => some (⟨mg, x, b % 2 == 1, false⟩ : Cand)
    | _ => Option.none
  match f.xv with
  | some (s, mg, x) => if s == neg then codes ++ [⟨mg, x, false, false⟩] else codes
  | Option.none => codes

/-- The largest finite magnitude of sign `neg`, MAX_s of R144. -/
def Fmt.maxMag (f : Fmt) (neg : Bool) : Cand :=
  if 8 < f.w then ⟨2 ^ (f.m + 1) - 1, (2 ^ f.e : Int) - 2 - f.bias - f.m, true, false⟩
  else (f.finite neg).foldl (fun best c => if c.cmp best == .gt then c else best) .zero

/-- The first exponent of the grid, max(2^E − 1, 1) − BIAS (R144). -/
def Fmt.gridFirst (f : Fmt) : Int := max ((2 ^ f.e : Int) - 1) 1 - f.bias

/-- The largest grid magnitude (2^m + M) × 2^(k − BIAS − m) not above a magnitude, zero when there is none (R144). -/
def Fmt.gridFloor (f : Fmt) (mag : Nat) (exp : Int) : Cand :=
  let t := topOf mag exp
  if mag = 0 ∨ t < f.gridFirst then .zero
  else let (n, _) := cutAt mag exp (t - f.m); ⟨n, t - f.m, n % 2 == 1 && f.m != 0, true⟩

/-- The smallest grid magnitude above a magnitude (R144). -/
def Fmt.gridAbove (f : Fmt) (mag : Nat) (exp : Int) : Cand :=
  let t := topOf mag exp
  if mag = 0 ∨ t < f.gridFirst then ⟨2 ^ f.m, f.gridFirst - f.m, false, true⟩
  else let (n, _) := cutAt mag exp (t - f.m); ⟨n + 1, t - f.m, n % 2 == 0 && f.m != 0, true⟩

/-- The candidates next to a magnitude, at or below it and at or above it (R144), in a format of more than 8 bits: multiples of
the unit of its binade, in G beyond MAX. -/
def Fmt.wideNear (f : Fmt) (neg : Bool) (mag : Nat) (exp : Int) : Cand × Cand :=
  let q := max (topOf mag exp) (1 - f.bias) - f.m
  let (n, rest) := cutAt mag exp q
  let mx := f.maxMag neg
  let mk (k : Nat) : Cand := ⟨k, q, k % 2 == 1, cmpMag k q mx.mag mx.exp == .gt⟩
  (mk n, if rest.isNone then mk n else mk (n + 1))

/-- The same in a format of at most 8 bits, whose codes are listed. -/
def Fmt.narrowNear (f : Fmt) (neg : Bool) (mag : Nat) (exp : Int) : Cand × Cand :=
  let cs := f.finite neg
  let mx := f.maxMag neg
  let lo := cs.foldl (fun best c => if cmpMag c.mag c.exp mag exp != .gt && c.cmp best == .gt then c else best) .zero
  if cmpMag mag exp mx.mag mx.exp == .gt then
    let g := f.gridFloor mag exp
    let lo := if g.cmp lo == .gt then g else lo
    (lo, if cmpMag lo.mag lo.exp mag exp == .eq then lo else f.gridAbove mag exp)
  else
    (lo, cs.foldl (fun best c => if cmpMag c.mag c.exp mag exp != .lt && c.cmp best == .lt then c else best) mx)

/-- The candidates next to a magnitude (R144). -/
def Fmt.near (f : Fmt) (neg : Bool) (mag : Nat) (exp : Int) : Cand × Cand :=
  if 8 < f.w then f.wideNear neg mag exp else f.narrowNear neg mag exp

/-- RNE between two neighbours (R144): the nearer; on a tie the one with bit 0 clear; else the smaller. -/
def nearest (mag : Nat) (exp : Int) (lo hi : Cand) : Cand :=
  if lo.cmp hi == .eq then lo
  else
    -- 2x against lo + hi
    let e := min exp (min lo.exp hi.exp)
    let x2 := if topOf mag exp + 70 < topOf hi.mag hi.exp then 0 else 2 * mag * 2 ^ (exp - e).toNat
    let e := if topOf mag exp + 70 < topOf hi.mag hi.exp then min lo.exp hi.exp else e
    let sum := lo.mag * 2 ^ (lo.exp - e).toNat + hi.mag * 2 ^ (hi.exp - e).toNat
    match compare x2 sum with
    | .lt => lo
    | .gt => hi
    | .eq => if lo.odd && !hi.odd then hi else lo

/-- What `round_fmt` answers: the value, its overflow or invalid flag, and whether it differs from the exact value. -/
structure Rounded where
  v : XVal
  flags : Flags := {}
  inexact : Bool := false
  deriving DecidableEq, Repr

/-- `round_fmt(x, F, rm)` (R144). -/
def roundFmt (x : XVal) (f : Fmt) (rm : RMode) : Rounded :=
  match x with
  | .nan => { v := .nan }
  | .inf neg => if f.uns && neg then { v := .fin false 0 0, flags := .invalid } else { v := .inf neg }
  | .fin neg mag exp =>
    if mag = 0 then { v := .fin (neg && !f.uns) 0 0 }
    else if f.uns && neg then { v := .fin false 0 0, flags := .invalid, inexact := true }
    else
      let (lo, hi) := f.near neg mag exp
      let c := match rm with
        | .rne => nearest mag exp lo hi
        | .rtz => lo
        | .rdn => if neg then hi else lo
        | .rup => if neg then lo else hi
      if c.grid then
        let mx := f.maxMag neg
        let toInf := match rm with | .rne => true | .rtz => false | .rdn => neg | .rup => !neg
        { v := if toInf then .inf neg else .fin neg mx.mag mx.exp, flags := { of := true }, inexact := true }
      else { v := .fin neg c.mag c.exp, inexact := cmpMag c.mag c.exp mag exp != .eq }

/-- `round_int(x, rm)` of a finite value (R144). -/
def roundInt (neg : Bool) (mag : Nat) (exp : Int) (rm : RMode) : Int :=
  let (n, rest) := cutAt mag exp 0
  let up : Bool := match rest with
    | Option.none => false
    | some o => match rm with
      | .rne => o == .gt || (o == .eq && n % 2 == 1)
      | .rtz => false
      | .rdn => neg
      | .rup => !neg
  let k : Int := if up then n + 1 else n
  if neg then -k else k

/-! ## Codes -/

/-- The code of a zero of either sign; a format with the extra value or without sign has +0 only (R145). -/
def Fmt.zeroCode (f : Fmt) (neg : Bool) : Nat := if neg && !f.uns && f.xv.isNone then 2 ^ (f.w - 1) else 0

/-- The code of a finite value of a wide format. -/
def Fmt.wideCode (f : Fmt) (neg : Bool) (mag : Nat) (exp : Int) : Nat :=
  let t := topOf mag exp
  let s := if neg then 2 ^ (f.w - 1) else 0
  if t < 1 - f.bias then s + (cutAt mag exp (1 - f.bias - f.m)).1
  else s + (t + f.bias).toNat * 2 ^ f.m + ((cutAt mag exp (t - f.m)).1 - 2 ^ f.m)

/-- The code of a finite value of a narrow format: a code of that value other than the extra value's where there is one. ABS or NEG
can turn a value of a format with an extra value, or without sign, into one it has no code for; the spec states no code then, and
the code is free (log 5). -/
def Fmt.narrowCode (f : Fmt) (neg : Bool) (mag : Nat) (exp : Int) : Nat :=
  let plain : Fmt := { f with xv := Option.none }
  let free := (Config.freeCode neg mag exp).toNat % 2 ^ f.w
  let is (c : Nat) : Bool := match plain.value c with
    | .fin n m e => n == neg && cmpMag m e mag exp == .eq
    | _ => false
  match (List.range (2 ^ f.w)).find? is with
  | some c => c
  | Option.none =>
    match f.xv with
    | some (s, m, e) => if s == neg && cmpMag m e mag exp == .eq then 2 ^ (f.w - 1) else free
    | Option.none => free

/-- The code of a finite value of the format (R145). -/
def Fmt.code (f : Fmt) (neg : Bool) (mag : Nat) (exp : Int) : Nat :=
  if mag = 0 then f.zeroCode neg else if 8 < f.w then f.wideCode neg mag exp else f.narrowCode neg mag exp

/-- The canonical NaN's code; code 0 for SPEC 0 (R145). -/
def Fmt.nanCode (f : Fmt) : Nat :=
  if f.spec = 1 then (if f.uns then 2 ^ f.w - 1 else 2 ^ (f.w - 1) - 1)
  else if f.spec = 2 then (2 ^ f.e - 1) * 2 ^ f.m + 2 ^ (f.m - 1)
  else 0

/-- FP32 and BF16 flush (R145). -/
def Fmt.flushes (f : Fmt) : Bool := f.w == 32 || (f.w == 16 && f.e == 8)

/-- Whether the rounded value `r` of a non-zero exact value is tiny under R145: flushed, or inexact below the smallest normal; −∞ that
a format without sign rounded to +0 is such a value (R144). -/
def Fmt.tiny (f : Fmt) (x : XVal) (r : Rounded) : Bool :=
  match x, r.v with
  | .fin _ xm _, .fin _ m e =>
    if xm = 0 then false
    else if f.flushes then cmpMag m e 1 (1 - f.bias) == .lt
    else if f.e = 0 then m == 0
    else r.inexact && cmpMag m e 1 (1 - f.bias) == .lt
  | .inf _, .fin _ m _ => m == 0
  | _, _ => false

/-- `encode(v, F)` (R145) of the value `v` that the rounding `r` of `x` became. −∞ that NEG makes in a format with infinities and without
sign has no code that the spec states: it is free (log 5). -/
def encodeFmt (f : Fmt) (x : XVal) (r : Rounded) (v : XVal) : Nat × Flags :=
  let tiny := f.tiny x r
  let uf : Flags := { uf := tiny }
  match v with
  | .nan => (f.nanCode, if f.spec = 0 then .invalid else {})
  | .inf neg =>
    if f.spec = 2 then
      (if f.uns && neg then (Config.freeCode true 0 0).toNat % 2 ^ f.w
        else (if neg then 2 ^ (f.w - 1) else 0) + (2 ^ f.e - 1) * 2 ^ f.m, {})
    else if f.spec = 1 then (f.nanCode, .invalid)
    else let mx := f.maxMag neg; (f.code neg mx.mag mx.exp, { of := true })
  | .fin neg m e => if tiny && f.flushes then (f.zeroCode neg, uf) else (f.code neg m e, uf)

/-- |v| (R147). -/
def XVal.absIf (b : Bool) (v : XVal) : XVal :=
  if b then match v with | .nan => .nan | .inf _ => .inf false | .fin _ m e => .fin false m e else v
/-- −v (R147). -/
def XVal.negIf (b : Bool) (v : XVal) : XVal :=
  if b then match v with | .nan => .nan | .inf n => .inf (!n) | .fin n m e => .fin (!n) m e else v
/-- x × 2^(4s) (R147). -/
def XVal.scale (s : BitVec 6) : XVal → XVal
  | .fin n m e => .fin n m (e + 4 * s.toInt)
  | v => v
/-- x × 2^k. -/
def XVal.scaleBy (k : Int) : XVal → XVal
  | .fin n m e => .fin n m (e + k)
  | v => v

/-- The bound 1 or −1 of the clamp, or the value of the format nearest to it toward zero, or +0 (R147). -/
def Fmt.unit (f : Fmt) (neg : Bool) : XVal :=
  if f.uns && neg then .fin false 0 0
  else
    let c := (f.near neg 1 0).1
    let mx := f.maxMag neg
    let c := if c.grid then mx else c
    if c.mag = 0 then .fin false 0 0 else .fin neg c.mag c.exp

/-- `satm` for a float format (R147). -/
def Fmt.satm (f : Fmt) (m : SatMode) (v : XVal) : XVal :=
  match m with
  | .none => v
  | .sat => match v with | .inf neg => let mx := f.maxMag neg; .fin neg mx.mag mx.exp | v => v
  | .clamp01 =>
    match v with
    | .nan => .fin false 0 0
    | .inf neg => if neg then .fin false 0 0 else f.unit false
    | .fin neg mg e => if neg || mg == 0 then .fin false 0 0 else if cmpMag mg e 1 0 == .gt then f.unit false else v
  | .clampSym =>
    match v with
    | .nan => .fin false 0 0
    | .inf neg => f.unit neg
    | .fin neg mg e => if cmpMag mg e 1 0 == .gt then f.unit neg else v

/-- `form_result(x, F, mod)` for a float format (R147): the code and the flags. -/
def formFloat (x : XVal) (f : Fmt) (md : Modifier) : Nat × Flags :=
  let x := x.scale md.scale
  let r := roundFmt x f md.rm
  let v := f.satm md.satm ((r.v.absIf md.abs).negIf md.neg)
  let (c, fl) := encodeFmt f x r v
  (c, r.flags.or fl)

/-- The clamp for an integer format with range [lo, hi] (R147). -/
def satmInt (m : SatMode) (lo hi v : Int) : Int :=
  match m with
  | .none => v
  | .sat => max lo (min hi v)
  | .clamp01 => max 0 (min 1 v)
  | .clampSym => max (max lo (-1)) (min 1 v)

/-- `form_result` of an exact integer into s32: the clamp, then the value modulo 2^32 (R147, R157). -/
def formS32 (v : Int) (m : SatMode) : Word := BitVec.ofInt 32 (satmInt m (-2147483648) 2147483647 v)

/-! ## Exact arithmetic (R158, R159) -/

/-- An exact result and the flags of forming it. -/
abbrev XRes := XVal × Flags

/-- FP32 pattern to exact value. -/
def f32 (p : Word) : XVal := fp32.value p.toNat

/-- NaN. -/
def XVal.isNan : XVal → Bool
  | .nan => true
  | _ => false
/-- ±0. -/
def XVal.isZero : XVal → Bool
  | .fin _ m _ => m == 0
  | _ => false
/-- The sign bit. -/
def XVal.neg : XVal → Bool
  | .nan => false
  | .inf n => n
  | .fin n _ _ => n
/-- The value with its sign changed. -/
def XVal.flip (v : XVal) : XVal := v.negIf true

/-- The exact product (R159). -/
def XVal.mul (a b : XVal) : XRes :=
  match a, b with
  | .nan, _ | _, .nan => (.nan, {})
  | .inf n, .inf k => (.inf (n ^^ k), {})
  | .inf n, .fin k m _ => if m = 0 then (.nan, .invalid) else (.inf (n ^^ k), {})
  | .fin k m _, .inf n => if m = 0 then (.nan, .invalid) else (.inf (n ^^ k), {})
  | .fin n m e, .fin k p q => (.fin (n ^^ k) (m * p) (e + q), {})

/-- The exact sum of finite values; a zero sum of non-zero terms, or of zeros of both signs, is −0 under RDN only (R159). -/
def addFin (n1 : Bool) (m1 : Nat) (e1 : Int) (n2 : Bool) (m2 : Nat) (e2 : Int) (rm : RMode) : XVal :=
  if m1 = 0 ∧ m2 = 0 then .fin (if n1 == n2 then n1 else rm == .rdn) 0 0
  else if m1 = 0 then .fin n2 m2 e2
  else if m2 = 0 then .fin n1 m1 e1
  else
    let e := min e1 e2
    let i1 : Int := m1 * 2 ^ (e1 - e).toNat
    let i2 : Int := m2 * 2 ^ (e2 - e).toNat
    let s := (if n1 then -i1 else i1) + (if n2 then -i2 else i2)
    if s = 0 then .fin (rm == .rdn) 0 0 else .fin (decide (s < 0)) s.natAbs e

/-- The exact sum (R159). -/
def XVal.add (a b : XVal) (rm : RMode) : XRes :=
  match a, b with
  | .nan, _ | _, .nan => (.nan, {})
  | .inf n, .inf k => if n == k then (.inf n, {}) else (.nan, .invalid)
  | .inf n, .fin _ _ _ => (.inf n, {})
  | .fin _ _ _, .inf n => (.inf n, {})
  | .fin n1 m1 e1, .fin n2 m2 e2 => (addFin n1 m1 e1 n2 m2 e2 rm, {})

/-- A term so far below the other that only its sign and its being non-zero can matter is drawn up to 2^64 below the other's last
place: every rounding of the sum is the same, and the sum stays short. -/
def drawUp (m : Nat) (e : Int) (otherExp : Int) : Nat × Int :=
  if m ≠ 0 ∧ topOf m e < otherExp - 64 then (1, otherExp - 64) else (m, e)

/-- a + x × 2^k for any 32-bit k (R158, `fsacc`). -/
def XVal.addScaled (a x : XVal) (k : Int) (rm : RMode) : XRes :=
  match a, x with
  | .fin n1 m1 e1, .fin n2 m2 e2 =>
    let (p, q) := drawUp m1 e1 (e2 + k)
    let (r, s) := drawUp m2 (e2 + k) e1
    (addFin n1 (if m2 = 0 then m1 else p) (if m2 = 0 then e1 else q) n2 (if m1 = 0 then m2 else r) (if m1 = 0 then e2 + k else s) rm, {})
  | _, _ => a.add x rm

/-- a + x × b with one rounding to come; a NaN operand decides before an invalid product (R159). -/
def XVal.fma (a x b : XVal) (rm : RMode) : XRes :=
  if a.isNan || x.isNan || b.isNan then (.nan, {})
  else
    let (p, fl) := x.mul b
    if p.isNan then (p, fl) else a.add p rm

/-- Compare two values that are not NaN, with −0 equal to +0. -/
def XVal.cmp (a b : XVal) : Ordering :=
  let rank (v : XVal) : Int := match v with
    | .inf true => -2
    | .fin n m _ => if m = 0 then 0 else if n then -1 else 1
    | .inf false => 2
    | .nan => 3
  match compare (rank a) (rank b) with
  | .eq => match a, b with
    | .fin true m e, .fin true p q => cmpMag p q m e
    | .fin _ m e, .fin _ p q => cmpMag m e p q
    | _, _ => .eq
  | o => o

/-- a below b with −0 below +0, for values that are not NaN (R160, R175). -/
def XVal.before (a b : XVal) : Bool :=
  match a.cmp b with
  | .lt => true
  | .gt => false
  | .eq => a.neg && !b.neg

/-- round_f32 of a sum under RNE, written as FP32: one addition of `rsum`, `csum` and the FP32 atomics (R144, R145, R159). -/
def addF32 (a b : Word) : Word × Flags :=
  let (x, fl) := (f32 a).add (f32 b) .rne
  let (c, f2) := formFloat x fp32 .zero
  (BitVec.ofNat 32 c, fl.or f2)

end Sys2Proof.Machine
end

