-- ==== Sys2Proof/Machine/Special.lean ====
section
/-! DEFINITION. The interpolated special functions, their knots and the seeds: 08_arith R168 to R174. -/

namespace Sys2Proof.Machine

/-! ## Knot tables, in units of 2^-30 -/

/-- The 65 knots of 2^z on [0, 1), round_f32 (R168, R169). -/
def ex2Knots : List Nat :=
  [1073741824, 1085434112, 1097253760, 1109202048, 1121280384, 1133490432, 1145833344, 1158310528, 1170923776, 1183674240, 1196563712]
  ++ [1209593344, 1222764928, 1236080000, 1249540096, 1263146624, 1276901376, 1290806016, 1304861952, 1319070976, 1333434624, 1347954816]
  ++ [1362633088, 1377471232, 1392470912, 1407633920, 1422962048, 1438457088, 1454120832, 1469955200, 1485961984, 1502142976, 1518500224]
  ++ [1535035648, 1551751040, 1568648576, 1585730048, 1602997504, 1620452992, 1638098560, 1655936256, 1673968256, 1692196608, 1710623360]
  ++ [1729250816, 1748081152, 1767116544, 1786359168, 1805811328, 1825475328, 1845353472, 1865448064, 1885761408, 1906295936, 1927054208]
  ++ [1948038400, 1969251200, 1990694912, 2012372224, 2034285440, 2056437376, 2078830464, 2101467520, 2124350976, 2147483648]

/-- The 33 knots of 2^z on [0, 1), 20 significant bits, Giurath 320 mode (R173). -/
def ex2CompatKnots : List Nat :=
  [1073741824, 1097252864, 1121280000, 1145833472, 1170923520, 1196564480, 1222764544, 1249540096, 1276901376, 1304862720, 1333434368]
  ++ [1362632704, 1392470016, 1422962688, 1454120960, 1485961216, 1518499840, 1551751168, 1585729536, 1620453376, 1655937024, 1692196864]
  ++ [1729251328, 1767116800, 1805811712, 1845352448, 1885761536, 1927053312, 1969250304, 2012372992, 2056437760, 2101467136, 2147483648]

/-- The 65 knots of log2 m on [1, 2), round_f32 (R168, R169). -/
def lg2Knots : List Nat :=
  [0, 24017256, 47667824, 70962728, 93912512, 116527248, 138816576, 160789744, 182455584, 203822576, 224898832]
  ++ [245692192, 266210144, 286459872, 306448288, 326182080, 345667648, 364911168, 383918528, 402695520, 421247616, 439580160]
  ++ [457698304, 475606944, 493310944, 510814880, 528123232, 545240320, 562170368, 578917376, 595485248, 611877824, 628098688]
  ++ [644151488, 660039680, 675766528, 691335296, 706749184, 722011200, 737124352, 752091392, 766915264, 781598656, 796144128]
  ++ [810554304, 824831616, 838978624, 852997568, 866890752, 880660480, 894308864, 907838016, 921250048, 934547008, 947730752]
  ++ [960803264, 973766336, 986621888, 999371584, 1012017216, 1024560512, 1037003008, 1049346304, 1061592128, 1073741824]

/-- The 33 knots of log2 m on [1, 2), 20 significant bits, Giurath 320 mode (R173). -/
def lg2CompatKnots : List Nat :=
  [0, 47667840, 93912448, 138816512, 182455552, 224898816, 266210048, 306448384, 345667584, 383918592, 421247488]
  ++ [457698304, 493310976, 528123392, 562170880, 595485696, 628099072, 660039680, 691335168, 722011136, 752091136, 781598720]
  ++ [810554368, 838978560, 866890752, 894308352, 921249792, 947730432, 973766656, 999371776, 1024560128, 1049346048, 1073741824]

/-- The 65 knots of sin(πz) on [0, 0.5], round_f32 (R168, R169). -/
def sinKnots : List Nat :=
  [0, 26350944, 52686016, 78989352, 105245104, 131437464, 157550640, 183568928, 209476640, 235258160, 260897984]
  ++ [286380640, 311690784, 336813216, 361732736, 386434368, 410903200, 435124544, 459083776, 482766496, 506158400, 529245408]
  ++ [552013632, 574449344, 596539008, 618269312, 639627264, 660599872, 681174592, 701339008, 721080960, 740388544, 759250112]
  ++ [777654400, 795590208, 813046784, 830013632, 846480512, 862437504, 877875008, 892783680, 907154624, 920979072, 934248768]
  ++ [946955776, 959092288, 970651136, 981625280, 992008064, 1001793408, 1010975232, 1019548096, 1027506880, 1034846656, 1041563136]
  ++ [1047652160, 1053110144, 1057933824, 1062120192, 1065666816, 1068571456, 1070832448, 1072448448, 1073418432, 1073741824]

/-- The 33 knots of sin(πz) on [0, 0.5], 20 significant bits, Giurath 320 mode (R173). -/
def sinCompatKnots : List Nat :=
  [0, 52686016, 105245056, 157550592, 209476608, 260898048, 311690752, 361732608, 410903040, 459083776, 506158592]
  ++ [552013824, 596539392, 639627264, 681175040, 721081344, 759249920, 795590656, 830013440, 862437376, 892783616, 920979456]
  ++ [946955264, 970650624, 992008192, 1010975744, 1027507200, 1041562624, 1053110272, 1062120448, 1068571648, 1072448512, 1073741824]

/-- The 65 knots of tanh z on [0, 8), round_f32 (R168, R169). -/
def tanhKnots : List Nat :=
  [0, 133523016, 262979408, 384783328, 496194528, 595496896, 681985984, 755812864, 817755520, 868980416, 910837632]
  ++ [944706752, 971895552, 993582912, 1010794304, 1024398272, 1035116736, 1043540416, 1050147520, 1055321792, 1059369024, 1062531712]
  ++ [1065001280, 1066928512, 1068431936, 1069604224, 1070518080, 1071230336, 1071785344, 1072217792, 1072554752, 1072817216, 1073021696]
  ++ [1073180928, 1073304960, 1073401600, 1073476864, 1073535424, 1073581120, 1073616640, 1073644352, 1073665920, 1073682688, 1073695744]
  ++ [1073705984, 1073713920, 1073720064, 1073724864, 1073728640, 1073731520, 1073733824, 1073735616, 1073736960, 1073738048, 1073738880]
  ++ [1073739520, 1073740032, 1073740416, 1073740736, 1073740992, 1073741184, 1073741312, 1073741440, 1073741504, 1073741568]

/-- The 33 knots of tanh z on [0, 8), 20 significant bits, Giurath 320 mode (R173). -/
def tanhCompatKnots : List Nat :=
  [0, 262979328, 496194560, 681986048, 817755136, 910837760, 971895808, 1010794496, 1035116544, 1050147840, 1059368960]
  ++ [1065000960, 1068432384, 1070518272, 1071784960, 1072555008, 1073021952, 1073304576, 1073476608, 1073581056, 1073644544, 1073682432]
  ++ [1073705984, 1073720320, 1073728512, 1073733632, 1073736704, 1073738752, 1073739776, 1073740800, 1073740800, 1073741824, 1073741824]

/-- Integer square root, bit by bit from bit `k`. -/
def isqrt : Nat → Nat → Nat → Nat
  | 0, _, acc => acc
  | k + 1, n, acc => isqrt k n (if (acc + 2 ^ k) * (acc + 2 ^ k) ≤ n then acc + 2 ^ k else acc)

/-- p/q, in [1/2, 1], rounded by RNE to `bits` significant bits, in units of 2^-30. -/
def roundRatio (bits p q : Nat) : Nat :=
  if p = q then 2 ^ 30
  else
    let n := p * 2 ^ bits / q
    let r := p * 2 ^ bits % q
    (if 2 * r > q ∨ (2 * r = q ∧ n % 2 = 1) then n + 1 else n) * 2 ^ (30 - bits)

/-- √(p/q), in [1/2, 1], rounded by RNE to `bits` significant bits, in units of 2^-30. -/
def roundRoot (bits p q : Nat) : Nat :=
  if p = q then 2 ^ 30
  else
    let n := isqrt (bits + 1) (p * 4 ^ bits / q) 0
    let mid := (2 * n + 1) * (2 * n + 1) * q
    (if mid < 4 * p * 4 ^ bits ∨ (mid = 4 * p * 4 ^ bits ∧ n % 2 = 1) then n + 1 else n) * 2 ^ (30 - bits)

/-- Segments of a table: 64, or 32 in Giurath 320 mode (R169, R173). -/
def segs (compat : Bool) : Nat := if compat then 32 else 64
/-- Significant bits of a knot (R168, R173). -/
def knotBits (compat : Bool) : Nat := if compat then 20 else 24

/-- Knot i of 1/m on [1, 2) (R169). -/
def rcpKnot (compat : Bool) (i : Nat) : Nat := roundRatio (knotBits compat) (segs compat) (segs compat + i)
/-- Knot i of 1/√m on [1, 2), table P (R169). -/
def rsqKnotP (compat : Bool) (i : Nat) : Nat := roundRoot (knotBits compat) (segs compat) (segs compat + i)
/-- Knot i of 1/√m on [2, 4), table Q (R169). -/
def rsqKnotQ (compat : Bool) (i : Nat) : Nat := roundRoot (knotBits compat) (segs compat) (2 * segs compat + 2 * i)
/-- Knot i of 2^z. -/
def ex2Knot (compat : Bool) (i : Nat) : Nat := (if compat then ex2CompatKnots else ex2Knots).getD i 0
/-- Knot i of log2. -/
def lg2Knot (compat : Bool) (i : Nat) : Nat := (if compat then lg2CompatKnots else lg2Knots).getD i 0
/-- Knot i of sin(πz). -/
def sinKnot (compat : Bool) (i : Nat) : Nat := (if compat then sinCompatKnots else sinKnots).getD i 0
/-- Knot i of tanh. -/
def tanhKnot (compat : Bool) (i : Nat) : Nat := (if compat then tanhCompatKnots else tanhKnots).getD i 0

/-- `interp` (R168): from floor(u × 2^17), the interpolant in units of 2^-47. -/
def interp (knot : Nat → Nat) (n u17 : Nat) : Nat :=
  let i := min (u17 / 2 ^ 17) (n - 1)
  let t : Int := u17 - i * 2 ^ 17
  ((knot i : Int) * 2 ^ 17 + t * ((knot (i + 1) : Int) - (knot i : Int))).toNat

/-- floor((m − 1) × n × 2^17) of a magnitude's significand m in [1, 2): where it lies in a table over one octave. -/
def octave (mag n : Nat) : Nat := (mag - 2 ^ mag.log2) * n * 2 ^ 17 / 2 ^ mag.log2

/-- floor(b × 2^s), and whether anything was dropped. -/
def floorAt (neg : Bool) (mag : Nat) (exp : Int) (s : Nat) : Int × Bool :=
  let (n, rest) := cutAt mag exp (-s)
  let inex := rest.isSome
  (if neg then -(n : Int) - (if inex then 1 else 0) else n, inex)

/-- The 2^(segment bits + 17) of a mode: units of one whole table interval. -/
def unitBits (compat : Bool) : Nat := if compat then 22 else 23

/-- 1.0 as an exact value. -/
def XVal.one (neg : Bool) : XVal := .fin neg 1 0
/-- A product of a sign and an interpolant in units of 2^-47. -/
def ofInterp (neg : Bool) (i : Nat) : XVal := .fin neg i (-47)

/-- rcp (R169, R170). -/
def rcpExact (compat : Bool) (b : XVal) : XRes :=
  match b with
  | .nan => (.nan, {})
  | .inf n => (.fin n 0 0, {})
  | .fin n mag exp =>
    if mag = 0 then (.inf n, .divZero)
    else ((ofInterp n (interp (rcpKnot compat) (segs compat) (octave mag (segs compat)))).scaleBy (-topOf mag exp), {})

/-- rsq (R169, R170). -/
def rsqExact (compat : Bool) (b : XVal) : XRes :=
  match b with
  | .nan => (.nan, {})
  | .inf n => if n then (.nan, .invalid) else (.fin false 0 0, {})
  | .fin n mag exp =>
    if mag = 0 then (.inf n, .divZero)
    else if n then (.nan, .invalid)
    else
      let t := topOf mag exp
      let knot := if t % 2 = 0 then rsqKnotP compat else rsqKnotQ compat
      ((ofInterp false (interp knot (segs compat) (octave mag (segs compat)))).scaleBy (-(t / 2)), {})

/-- ex2 (R169, R170). -/
def ex2Exact (compat : Bool) (b : XVal) : XRes :=
  match b with
  | .nan => (.nan, {})
  | .inf n => (if n then .fin false 0 0 else .inf false, {})
  | .fin n mag exp =>
    let (f, _) := floorAt n mag exp (unitBits compat)
    let unit : Int := 2 ^ unitBits compat
    ((ofInterp false (interp (ex2Knot compat) (segs compat) (f % unit).toNat)).scaleBy (f / unit), {})

/-- lg2 (R169, R170). -/
def lg2Exact (compat : Bool) (b : XVal) : XRes :=
  match b with
  | .nan => (.nan, {})
  | .inf n => if n then (.nan, .invalid) else (.inf false, {})
  | .fin n mag exp =>
    if mag = 0 then (.inf true, .divZero)
    else if n then (.nan, .invalid)
    else
      let s : Int := topOf mag exp * 2 ^ 47 + interp (lg2Knot compat) (segs compat) (octave mag (segs compat))
      (.fin (decide (s < 0)) s.natAbs (-47), {})

/-- σ × I(q) of R169 for a finite argument; the sign of a zero result is the caller's. -/
def sinFinite (compat : Bool) (n : Bool) (mag : Nat) (exp : Int) : Bool × Nat :=
  let half : Int := 2 ^ unitBits compat
  let (f, inex) := floorAt n mag exp (unitBits compat + 1)
  let q := f % (4 * half)
  let minus := decide (2 * half ≤ q)
  let q := if minus then q - 2 * half else q
  let q := if half < q ∨ (q = half ∧ inex) then 2 * half - q - (if inex then 1 else 0) else q
  (minus, interp (sinKnot compat) (segs compat) q.toNat)

/-- sinpi (R169, R170). -/
def sinpiExact (compat : Bool) (b : XVal) : XRes :=
  match b with
  | .nan => (.nan, {})
  | .inf _ => (.nan, .invalid)
  | .fin n mag exp =>
    let (minus, i) := sinFinite compat n mag exp
    (ofInterp (if i = 0 then n else minus) i, {})

/-- cospi (R169, R170). -/
def cospiExact (compat : Bool) (b : XVal) : XRes :=
  match b with
  | .nan => (.nan, {})
  | .inf _ => (.nan, .invalid)
  | .fin n mag exp =>
    match addFin n mag exp false 1 (-1) .rne with
    | .fin n mag exp =>
      let (minus, i) := sinFinite compat n mag exp
      (ofInterp (if i = 0 then false else minus) i, {})
    | _ => (.nan, {})

/-- I(|z|) of tanh, or 1 for |z| ≥ 8, in units of 2^-47 (R169). -/
def tanhMag (compat : Bool) (mag : Nat) (exp : Int) : Nat :=
  if cmpMag mag exp 8 0 != .lt then 2 ^ 47
  else interp (tanhKnot compat) (segs compat) (floorAt false mag exp (unitBits compat - 3)).1.toNat

/-- tanh (R169, R170). -/
def tanhExact (compat : Bool) (b : XVal) : XRes :=
  match b with
  | .nan => (.nan, {})
  | .inf n => (.one n, {})
  | .fin n mag exp => if mag = 0 then (b, {}) else (ofInterp n (tanhMag compat mag exp), {})

/-- sigm (R169, R170). The sum 1 + T that is exactly zero is −0 under RDN (R144). -/
def sigmExact (compat : Bool) (rm : RMode) (b : XVal) : XRes :=
  match b with
  | .nan => (.nan, {})
  | .inf n => (if n then .fin false 0 0 else .one false, {})
  | .fin n mag exp =>
    let t := tanhMag compat mag (exp - 1)
    let u := if n then 2 ^ 47 - t else 2 ^ 47 + t
    (.fin (u == 0 && rm == .rdn) u (-48), {})

/-- rcpsd (R171, R173). -/
def rcpsdExact (compat : Bool) (b : XVal) : XRes :=
  match b with
  | .nan => (.nan, {})
  | .inf n => (.fin n 0 0, {})
  | .fin n mag exp =>
    if mag = 0 then (.inf n, .divZero)
    else
      let k := 2 * segs compat
      let i := octave mag k / 2 ^ 17
      ((XVal.fin n (roundRatio 9 (2 * k) (2 * k + 2 * i + 1)) (-30)).scaleBy (-topOf mag exp), {})

/-- rsqsd (R171, R173). -/
def rsqsdExact (compat : Bool) (b : XVal) : XRes :=
  match b with
  | .nan => (.nan, {})
  | .inf n => if n then (.nan, .invalid) else (.fin false 0 0, {})
  | .fin n mag exp =>
    if mag = 0 then (.inf n, .divZero)
    else if n then (.nan, .invalid)
    else
      let t := topOf mag exp
      let k := segs compat
      let i := octave mag k / 2 ^ 17
      let y := if t % 2 = 0 then roundRoot 9 (2 * k) (2 * k + 2 * i + 1) else roundRoot 9 k (2 * k + 2 * i + 1)
      ((XVal.fin false y (-30)).scaleBy (-(t / 2)), {})

end Sys2Proof.Machine
end

