-- ==== Sys2Proof/Machine/Arith.lean ====
section
/-! DEFINITION. What one element of an E-class instruction becomes: 08_arith R155 to R177, 09_flow R180, as functions of the
patterns read at issue. -/

namespace Sys2Proof.Machine

/-- What one element's computation reads on the issue cycle: the modifier word, the format register the instruction names, the
special-function mode, the AM flag, e[D], e[X], B, and the number of the destination element. -/
structure ElemIn where
  md : Modifier := .zero
  nf : Word := 0
  compat : Bool := false
  am : Bool := false
  a : Word := 0
  x : Word := 0
  b : Word := 0
  ix : Nat := 0
  deriving DecidableEq, Repr

/-- An element's new pattern and the flags it sets. -/
abbrev ElemOut := Word × Flags

namespace Arith

/-- A pattern that sets no flag (R146, R155). -/
def plain (w : Word) : ElemOut := (w, {})
/-- 1 or 0. -/
def bool (p : Bool) : ElemOut := plain (if p then 1 else 0)
/-- An exact integer: clamped under SATM, else modulo 2^32 (R157). -/
def int (i : ElemIn) (v : Int) : ElemOut := plain (formS32 v i.md.satm)
/-- `form_result` of an exact value into FP32 (R147, R158). -/
def float (i : ElemIn) (r : XRes) : ElemOut :=
  let (c, fl) := formFloat r.1 fp32 i.md
  (BitVec.ofNat 32 c, r.2.or fl)
/-- The shift count b[4:0] (R155). -/
def count (b : Word) : Nat := b.toNat % 32

/-! ## Integer (R155 to R157) -/

def add (i : ElemIn) : ElemOut := int i (i.a.toInt + i.b.toInt)
def sub (i : ElemIn) : ElemOut := int i (i.a.toInt - i.b.toInt)
def rsub (i : ElemIn) : ElemOut := int i (i.b.toInt - i.a.toInt)
def mul (i : ElemIn) : ElemOut := int i (i.a.toInt * i.b.toInt)
def mulhs (i : ElemIn) : ElemOut := plain (BitVec.ofInt 32 (i.a.toInt * i.b.toInt / 2 ^ 32))
def mulhn (i : ElemIn) : ElemOut := plain (BitVec.ofNat 32 (i.a.toNat * i.b.toNat / 2 ^ 32))
def mad (i : ElemIn) : ElemOut := int i (i.a.toInt + i.x.toInt * i.b.toInt)
def mins (i : ElemIn) : ElemOut := plain (if i.a.toInt ≤ i.b.toInt then i.a else i.b)
def maxs (i : ElemIn) : ElemOut := plain (if i.a.toInt ≤ i.b.toInt then i.b else i.a)
def minn (i : ElemIn) : ElemOut := plain (if i.a.toNat ≤ i.b.toNat then i.a else i.b)
def maxn (i : ElemIn) : ElemOut := plain (if i.a.toNat ≤ i.b.toNat then i.b else i.a)
def and (i : ElemIn) : ElemOut := plain (i.a &&& i.b)
def or (i : ElemIn) : ElemOut := plain (i.a ||| i.b)
def xor (i : ElemIn) : ElemOut := plain (i.a ^^^ i.b)
def andn (i : ElemIn) : ElemOut := plain (i.a &&& ~~~i.b)
def shl (i : ElemIn) : ElemOut := plain (i.a <<< count i.b)
def shrn (i : ElemIn) : ElemOut := plain (i.a >>> count i.b)
def shrs (i : ElemIn) : ElemOut := plain (i.a.sshiftRight (count i.b))
def rol (i : ElemIn) : ElemOut := plain (i.a.rotateLeft (count i.b))
def popc (i : ElemIn) : ElemOut := plain (BitVec.ofNat 32 ((List.range 32).countP i.b.getLsbD))
def clz (i : ElemIn) : ElemOut := plain (if i.b = 0 then 32 else BitVec.ofNat 32 (31 - i.b.toNat.log2))
def brev (i : ElemIn) : ElemOut := plain i.b.reverse
/-- The position p and length n of a field (R156). -/
def field (b : Word) : Nat × Nat := (b.toNat % 32, min (b.toNat / 256 % 64) 32)
def bfxn (i : ElemIn) : ElemOut :=
  let (p, n) := field i.b
  plain (BitVec.ofNat 32 (i.a.toNat / 2 ^ p % 2 ^ n))
def bfxs (i : ElemIn) : ElemOut :=
  let (p, n) := field i.b
  let f := (i.a.toInt / 2 ^ p % 2 ^ n).toNat
  plain (if 0 < n ∧ f.testBit (n - 1) then BitVec.ofInt 32 ((f : Int) - 2 ^ n) else BitVec.ofNat 32 f)
def bfi (i : ElemIn) : ElemOut :=
  let (p, n) := field i.b
  let mask : Word := BitVec.ofNat 32 ((2 ^ n - 1) * 2 ^ p)
  plain ((i.a &&& ~~~mask) ||| ((i.x <<< p) &&& mask))
def lea (i : ElemIn) : ElemOut := int i (i.x.toInt + 4 * i.b.toInt)
def ceq (i : ElemIn) : ElemOut := bool (i.a == i.b)
def cne (i : ElemIn) : ElemOut := bool (i.a != i.b)
def clts (i : ElemIn) : ElemOut := bool (i.a.slt i.b)
def cles (i : ElemIn) : ElemOut := bool (i.a.sle i.b)
def cltn (i : ElemIn) : ElemOut := bool (i.a.ult i.b)
def clen (i : ElemIn) : ElemOut := bool (i.a.ule i.b)

/-! ## FP32 (R158 to R162) -/

def fadd (i : ElemIn) : ElemOut := float i ((f32 i.a).add (f32 i.b) i.md.rm)
def fsub (i : ElemIn) : ElemOut := float i ((f32 i.a).add (f32 i.b).flip i.md.rm)
def fmul (i : ElemIn) : ElemOut := float i ((f32 i.a).mul (f32 i.b))
def ffma (i : ElemIn) : ElemOut := float i ((f32 i.a).fma (f32 i.x) (f32 i.b) i.md.rm)
def ffms (i : ElemIn) : ElemOut := float i ((f32 i.a).fma (f32 i.x).flip (f32 i.b) i.md.rm)
def fnma (i : ElemIn) : ElemOut := float i ((f32 i.a).flip.fma (f32 i.x) (f32 i.b) i.md.rm)
def fsacc (i : ElemIn) : ElemOut := float i ((f32 i.a).addScaled (f32 i.x) i.b.toInt i.md.rm)

/-- The smaller or larger of two values that are not NaN, −0 below +0 (R160). -/
def pick (larger : Bool) (a b : XVal) : XVal := if a.before b == larger then b else a
/-- fmin, fmax: NaN when either is NaN (R160). -/
def minMax (larger : Bool) (i : ElemIn) : ElemOut :=
  let (a, b) := (f32 i.a, f32 i.b)
  float i (if a.isNan || b.isNan then .nan else pick larger a b, {})
/-- fminnm, fmaxnm: a single NaN yields the other operand (R160). -/
def minMaxNum (larger : Bool) (i : ElemIn) : ElemOut :=
  let (a, b) := (f32 i.a, f32 i.b)
  float i (if a.isNan then b else if b.isNan then a else pick larger a b, {})
def fmin (i : ElemIn) : ElemOut := minMax false i
def fmax (i : ElemIn) : ElemOut := minMax true i
def fminnm (i : ElemIn) : ElemOut := minMaxNum false i
def fmaxnm (i : ElemIn) : ElemOut := minMaxNum true i
/-- A comparison of FP32 values, false when either is NaN (R161). -/
def compareF (p : Ordering → Bool) (i : ElemIn) : ElemOut :=
  let (a, b) := (f32 i.a, f32 i.b)
  bool (!a.isNan && !b.isNan && p (a.cmp b))
def fceq (i : ElemIn) : ElemOut := compareF (· == .eq) i
def fclt (i : ElemIn) : ElemOut := compareF (· == .lt) i
def fcle (i : ElemIn) : ElemOut := compareF (· != .gt) i
def fcun (i : ElemIn) : ElemOut := bool ((f32 i.a).isNan || (f32 i.b).isNan)
def fsel (i : ElemIn) : ElemOut := plain (if i.x = 0 then i.a else i.b)
def fcpsgn (i : ElemIn) : ElemOut := plain ((i.a &&& 0x7FFFFFFF) ||| (i.b &&& 0x80000000))

/-- The integer nearest b in a mode's direction, keeping the sign of b when it is zero (R162). -/
def integral (rm : RMode) (v : XVal) : XVal :=
  match v with
  | .fin n m e => let k := roundInt n m e rm; .fin n k.natAbs 0
  | v => v
/-- An integral value passes the sign modifiers and the clamp of `form_result`, which rounds it exactly (R147, R154, R162). -/
def toIntegral (rm : RMode) (i : ElemIn) : ElemOut := float i (integral rm (f32 i.b), {})
def ffloor (i : ElemIn) : ElemOut := toIntegral .rdn i
def fceil (i : ElemIn) : ElemOut := toIntegral .rup i
def ftrunc (i : ElemIn) : ElemOut := toIntegral .rtz i
def frnd (i : ElemIn) : ElemOut := toIntegral i.md.rm i

/-! ## Packed pairs (R163) -/

/-- A rule applied to each 16-bit half, the flags of both ORed. -/
def halves (f : Fmt) (rule : XVal → XVal → XVal → XRes) (i : ElemIn) : ElemOut :=
  let half (h : Nat) : Nat × Flags :=
    let v (w : Word) : XVal := f.value (w.toNat / 2 ^ (16 * h) % 2 ^ 16)
    let r := rule (v i.a) (v i.x) (v i.b)
    let (c, fl) := formFloat r.1 f i.md
    (c, r.2.or fl)
  let (lo, fl) := half 0
  let (hi, fh) := half 1
  (BitVec.ofNat 32 (lo + 2 ^ 16 * hi), fl.or fh)
def hadd2 (i : ElemIn) : ElemOut := halves fp16 (fun a _ b => a.add b i.md.rm) i
def hmul2 (i : ElemIn) : ElemOut := halves fp16 (fun a _ b => a.mul b) i
def hfma2 (i : ElemIn) : ElemOut := halves fp16 (fun a x b => a.fma x b i.md.rm) i
def badd2 (i : ElemIn) : ElemOut := halves bf16 (fun a _ b => a.add b i.md.rm) i
def bmul2 (i : ElemIn) : ElemOut := halves bf16 (fun a _ b => a.mul b) i
def bfma2 (i : ElemIn) : ElemOut := halves bf16 (fun a x b => a.fma x b i.md.rm) i

/-! ## Conversions (R164 to R167) -/

/-- An integer as an exact value. -/
def ofInt (v : Int) : XVal := .fin (decide (v < 0)) v.natAbs 0
/-- A narrow code, bits above the format ignored, into FP32. -/
def widen (f : Fmt) (i : ElemIn) : ElemOut := float i (f.value i.b.toNat, {})
/-- FP32 into a narrow code in the low bits (R139). -/
def narrow (f : Fmt) (i : ElemIn) : ElemOut :=
  let (c, fl) := formFloat (f32 i.b) f i.md
  (BitVec.ofNat 32 c, fl)
/-- `cvt.s32.f32` and `cvt.n32.f32` (R165), with the range of T. -/
def toInt (lo hi : Int) (i : ElemIn) : ElemOut :=
  let signs (v : Int) : Int := let v : Int := if i.md.abs then (v.natAbs : Int) else v; if i.md.neg then -v else v
  let finish (v : Int) (out : Bool) : ElemOut := (BitVec.ofInt 32 (satmInt i.md.satm lo hi v), { nv := out })
  match (f32 i.b).scale i.md.scale with
  | .nan => (0, .invalid)
  | .inf n => finish (if (n && !i.md.abs) ^^ i.md.neg then lo else hi) true
  | .fin n m e =>
    let big := decide (m ≠ 0 ∧ 40 ≤ topOf m e)
    let v := if big then (if n then -(2 ^ 40) else 2 ^ 40) else roundInt n m e i.md.rm
    let v := signs v
    if v < lo then finish lo true else if hi < v then finish hi true else finish v false
def cvtF32S32 (i : ElemIn) : ElemOut := float i (ofInt i.b.toInt, {})
def cvtF32N32 (i : ElemIn) : ElemOut := float i (ofInt i.b.toNat, {})
def cvtS32F32 (i : ElemIn) : ElemOut := toInt (-2147483648) 2147483647 i
def cvtN32F32 (i : ElemIn) : ElemOut := toInt 0 4294967295 i
def cvtF32F16 (i : ElemIn) : ElemOut := widen fp16 i
def cvtF16F32 (i : ElemIn) : ElemOut := narrow fp16 i
def cvtF32Bf16 (i : ElemIn) : ElemOut := widen bf16 i
def cvtBf16F32 (i : ElemIn) : ElemOut := narrow bf16 i
def cvtF32E4m3 (i : ElemIn) : ElemOut := widen e4m3 i
def cvtE4m3F32 (i : ElemIn) : ElemOut := narrow e4m3 i
def cvtF32E5m2 (i : ElemIn) : ElemOut := widen e5m2 i
def cvtE5m2F32 (i : ElemIn) : ElemOut := narrow e5m2 i
def cvtF32Nf (i : ElemIn) : ElemOut := widen (Fmt.ofReg i.nf) i
def cvtNfF32 (i : ElemIn) : ElemOut := narrow (Fmt.ofReg i.nf) i
def pack4 (i : ElemIn) : ElemOut :=
  let (c, fl) := formFloat (f32 i.b) e2m1 i.md
  (BitVec.ofNat 32 (i.a.toNat / 16 + 2 ^ 28 * c), fl)
def unpk4 (i : ElemIn) : ElemOut := float i (e2m1.value (i.x.toNat / 2 ^ (4 * (i.b.toNat % 8))), {})

/-! ## Special functions (R168 to R171, R177) -/

def rcpsd (i : ElemIn) : ElemOut := float i (rcpsdExact i.compat (f32 i.b))
def rsqsd (i : ElemIn) : ElemOut := float i (rsqsdExact i.compat (f32 i.b))
def rcp (i : ElemIn) : ElemOut := float i (rcpExact i.compat (f32 i.b))
def rsq (i : ElemIn) : ElemOut := float i (rsqExact i.compat (f32 i.b))
def ex2 (i : ElemIn) : ElemOut := float i (ex2Exact i.compat (f32 i.b))
def lg2 (i : ElemIn) : ElemOut := float i (lg2Exact i.compat (f32 i.b))
def sinpi (i : ElemIn) : ElemOut := float i (sinpiExact i.compat (f32 i.b))
def cospi (i : ElemIn) : ElemOut := float i (cospiExact i.compat (f32 i.b))
def tanh (i : ElemIn) : ElemOut := float i (tanhExact i.compat (f32 i.b))
def sigm (i : ElemIn) : ElemOut := float i (sigmExact i.compat i.md.rm (f32 i.b))
/-- 2^(a − b); exactly +0 without a flag when AM is set (R177). -/
def ex2m (i : ElemIn) : ElemOut :=
  if i.am then plain 0
  else
    let (d, fl) := (f32 i.a).add (f32 i.b).flip .rne
    let (y, f2) := ex2Exact i.compat d
    float i (y, fl.or f2)

/-! ## Rows and lanes (R175, R190) -/

/-- The largest pattern of a list, NaN if any is NaN, −0 below +0 (R175). -/
def rowMax (s : List Word) : Word :=
  if s.any fun w => (f32 w).isNan then 0x7FC00000
  else match s with
    | [] => 0
    | w :: rest => rest.foldl (fun best w => if (f32 best).before (f32 w) then w else best) w
/-- One level of the fixed tree: pairs (2k, 2k + 1) (R175). -/
def pairs : List Word → List Word × Flags
  | a :: b :: rest =>
    let (s, f) := addF32 a b
    let (t, g) := pairs rest
    (s :: t, f.or g)
  | s => (s, {})
/-- `levels` levels of the tree. -/
def tree : Nat → List Word → List Word × Flags
  | 0, s => (s, {})
  | k + 1, s =>
    let (t, f) := pairs s
    let (u, g) := tree k t
    (u, f.or g)
/-- The tree sum of 16 or 32 values (R175). -/
def rowSum (s : List Word) : Word × Flags :=
  let (t, f) := tree (if s.length = 32 then 5 else 4) s
  (t.headD 0, f)

end Arith

end Sys2Proof.Machine
end

