-- ==== Sys2Proof/Machine/Operands.lean ====
section
/-! DEFINITION. Operand forms and issue: what an instruction needs before it issues (06_issue R123, R124), what holds a strand back,
and what every issue does (R19, R24 to R27, R37, R109, R114, R116). -/

namespace Sys2Proof

/-! ## What an instruction uses -/

/-- A condition of its own that an instruction waits for (R123). -/
inductive WaitFor where
  | nothing
  | lend
  | crew
  | blk
  | fence (level : Nat)
  | ifence
  | group                 -- sexp, sarr, evpost: R248, R249
  | arrive (b : Nat)      -- bara, bars, barx
  | swait (ge : Bool) (d : Nat)
  deriving DecidableEq, Repr

/-- What an instruction uses: its pipe, whether it touches its accumulator (R124), the general register it reads (R24), the one it
names (R19), whether that is a `put`'s, the decision queue, a barrier, and what it waits for. -/
structure Use where
  elem : Bool := false
  touch : Bool := false
  read : Option Nat := none
  name : Option Nat := none
  put : Bool := false
  dq : Bool := false
  bar : Option Nat := none
  wait : WaitFor := .nothing
  deriving DecidableEq, Repr

/-- The S form (R99, R100). -/
def shortUse (sop x : Nat) : Use :=
  if sop ≤ 0x0F ∨ (0x18 ≤ sop ∧ sop ≤ 0x22) ∨ (0x31 ≤ sop ∧ sop ≤ 0x35) then { elem := true, touch := true, read := some x, name := some x }
  else if sop ≤ 0x17 then { elem := true, touch := true }
  else if sop ≤ 0x24 then { elem := true, touch := true, name := some x, put := true }
  else if sop ≤ 0x2A then { touch := true, read := some x, name := some x }
  else if sop = 0x2C ∨ sop = 0x2D then { touch := true }
  else if sop = 0x2E then { wait := .blk }
  else if sop = 0x36 then { elem := true, name := some x }
  else {}

/-- The E class (R102, R179): `put` and `drop` name a register they do not read, `clr`, `sread` and `lend` none. -/
def eUse (op : Nat) (f : EFields) : Use :=
  let g := f.g.toNat
  if op = 0x62 then { elem := true, touch := true, name := some g, put := true }
  else if op = 0x63 then { elem := true, name := some g }
  else if op = 0x66 ∨ op = 0x6C then { elem := true, touch := true }
  else if op = 0x6D then { elem := true, touch := true, wait := .lend }
  else
    { elem := true, touch := true, read := if f.b = .gpr then some g else none, name := if f.b = .gpr then some g else none,
      dq := decide (f.b = .dq), wait := if op = 0x5C ∨ op = 0x5D ∨ (0x67 ≤ op ∧ op ≤ 0x6B) then .crew else .nothing }

/-- The memory class (R105): `pf` and `cwb` touch no accumulator (R234, R322). -/
def memUse (op g : Nat) : Use := { touch := decide (op ≠ 0x7A ∧ op ≠ 0x8B), read := some g, name := some g }

/-- fence and the branch, sync and system classes (R106, R107). -/
def plainUse (op g imm : Nat) : Use :=
  if op = 0x8A then { wait := .fence (imm / 2048 + 1) }
  else if op = 0x91 ∨ op = 0x92 then { read := some g, name := some g }
  else if op = 0x93 ∨ op = 0x94 then { touch := true, read := some g, name := some g }
  else if op = 0x96 ∨ op = 0x9A ∨ op = 0xB2 then { touch := true }
  else if op = 0x98 then { wait := .blk }
  else if op = 0xA0 ∨ op = 0xA2 ∨ op = 0xA3 then { bar := some (imm / 512), wait := .arrive (imm / 512) }
  else if op = 0xA1 then { bar := some (imm / 512) }
  else if op = 0xA4 ∨ op = 0xA5 then { touch := true, read := some g, name := some g, wait := .group }
  else if op = 0xA6 then { touch := true, read := some g, name := some g, wait := .swait (imm % 2 = 1) (imm / 32 % 32) }
  else if op = 0xA7 then { wait := .group }
  else if op = 0xB1 then { wait := .ifence }
  else {}

/-- What a form uses. -/
def Form.use : Form → Use
  | .short sop x _ => shortUse sop.toNat x.toNat
  | .e op f => eUse op.toNat f
  | .mem op f => memUse op.toNat f.g.toNat
  | .atom _ _ f => { touch := true, read := some f.g.toNat, name := some f.g.toNat }
  | .plain op g _ imm => plainUse op.toNat g.toNat imm.toNat
  | .far op g _ _ => plainUse op.toNat g.toNat 0

/-- Parcels of a form (R98, R101). -/
def Form.size : Form → Nat
  | .short _ _ _ => 1
  | .e _ f => 2 + (if f.mods.isSome then 2 else 0) + (match f.b with | .lit _ => 2 | _ => 0)
  | .mem _ f => if f.addr.isSome then 4 else 2
  | .atom _ _ f => if f.addr.isSome then 4 else 2
  | .plain _ _ _ _ => 2
  | .far _ _ _ _ => 4

/-- W of a form (R114). -/
def Form.stall : Form → Nat
  | .short _ _ w => w.toNat
  | .e _ f => f.w.toNat
  | .mem _ f => f.w.toNat
  | .atom _ _ f => f.w.toNat
  | .plain _ _ w _ => w.toNat
  | .far _ _ w _ => w.toNat

/-- Cycles a pipe is busy: the occupancy of R131; one slot for the access pipe (R132). -/
def Form.occupancy : Form → Nat
  | .e op f =>
    match f.dst with
    | .one _ _ => 4
    | .win wn _ => if op = 0x5A#8 ∨ op = 0x5B#8 then 8 else match wn with | .all => 16 | _ => 8
  | _ => 4

/-- The elements of a window (R102). -/
def Win.elems : Win → List Nat
  | .lo => List.range 16
  | .hi => (List.range 16).map (· + 16)
  | .all => List.range 32

/-- The element XSH selects for `j` (R102). -/
def xsh (swap : Bool) (j : Nat) : Nat := if swap then j ^^^ 16 else j

/-- The destinations of an E-class instruction, each with the element it reads as X, or as B when BS = 01 (R102). -/
def Dst.pairs : Dst → List (Nat × Nat)
  | .one d x => [(d.toNat, x.toNat)]
  | .win wn swap => wn.elems.map fun j => (j, xsh swap j)

end Sys2Proof

namespace Sys2Proof.Machine

/-! ## Fetch (R93, R94, R97) -/

/-- The code-store line of a core that holds a line number for an ASID (R93). -/
def State.codeLine? (s : State) (core asid line : Nat) : Option CodeLine :=
  s.code.find? fun l => l.core == core && l.key.line == line && tagMatch l.key.asid asid

/-- The parcels of bytes. -/
def parcelsOf (bs : List Byte) : List (BitVec 16) := (chunks 2 (bs.length / 2) bs).map fun p => BitVec.ofNat 16 (leNat p)

/-- What stands at a program counter: the number of a line that is not held, no instruction, or a form. -/
inductive Fetched where
  | missing (line : Nat)
  | bad
  | form (f : Form)
  deriving DecidableEq, Repr

/-- Fetch at a strand's program counter, from both lines of a straddling instruction (R94, R97). -/
def State.fetch (s : State) (core asid : Nat) (pc : Addr) : Fetched :=
  let line := pc.toNat / 128
  match s.codeLine? core asid line with
  | none => .missing line
  | some l =>
    let first := parcelsOf ((lineBytes l.data).drop (pc.toNat % 128))
    match Form.read first with
    | .ok (f, _) => .form f
    | .error .truncated =>
      match s.codeLine? core asid (line + 1) with
      | none => .missing (line + 1)
      | some m =>
        match Form.read (first ++ parcelsOf (lineBytes m.data)) with
        | .ok (f, _) => .form f
        | .error _ => .bad
    | .error _ => .bad

/-! ## What holds a strand back (R123) -/

/-- The stall reasons of R123, in its order. -/
inductive Stall where
  | fetch | count | absent | coins | lent | memory | dq | crew | barrier | sync | parked | drain
  deriving DecidableEq, Repr

/-- One thread of a bundle, as it stands before the issue. -/
structure Lane where
  gid : GroupId
  tid : Nat
  g : Group
  t : Thread
  st : Strand
  deriving DecidableEq, Repr

/-- The thread, its group and its strand aN. -/
def State.lane? (s : State) (n : Nat) (m : GroupId × Nat) : Option Lane :=
  match s.group? m.1 with
  | none => none
  | some g =>
    match g.thread? m.2 with
    | none => none
    | some t =>
      match t.strand? n with
      | none => none
      | some st => some { gid := m.1, tid := m.2, g := g, t := t, st := st }

/-- How far an access is performed: 0 not yet, then group, device, system (R241). -/
def Acc.level (a : Acc) : Nat := match a.st with | .performed l => l | _ => 0
/-- A prefetch, which no fence counts (R234, R241). -/
def Acc.isPrefetch (a : Acc) : Bool := match a.kind with | .prefetch _ => true | _ => false
/-- The access precedes, in strand order, the point that `know` describes (R28). -/
def Acc.precedes (a : Acc) (know : List Nat) : Bool := decide (a.seq < know.getD a.n 0)
/-- The accesses of a thread that precede a point in strand order and that fences count (R241). -/
def State.before (s : State) (g : GroupId) (tid : Nat) (know : List Nat) : List Acc :=
  s.accs.filter fun a => a.gid == g && a.tid == tid && !a.isPrefetch && a.precedes know
/-- The accesses named have been performed at a level. -/
def State.doneAt (s : State) (ids : List Nat) (level : Nat) : Bool :=
  ids.isEmpty || s.accs.all fun a => !ids.contains a.id || decide (level ≤ a.level)
/-- Every access that precedes a point of a thread in strand order, or by a barrier, has been performed at a level (R241, R244). -/
def State.settled (s : State) (g : GroupId) (tid : Nat) (know after : List Nat) (level : Nat) : Bool :=
  (s.before g tid know).all (fun a => decide (level ≤ a.level)) && s.doneAt after level
/-- Those of the accesses named that are not performed at system scope yet. -/
def State.stillOpen (s : State) (ids : List Nat) : List Nat :=
  if ids.isEmpty then [] else ids.filter fun i => s.accs.any fun a => a.id == i && decide (a.level < 3)
/-- Those of the accesses before a point that are not performed at system scope yet: what a release there orders (R244, R303, R326). -/
def State.unsettled (s : State) (g : GroupId) (tid : Nat) (know after : List Nat) : List Nat :=
  (s.accs.filter fun a => decide (a.level < 3) &&
    (after.contains a.id || (a.gid == g && a.tid == tid && !a.isPrefetch && a.precedes know))).map (·.id)
/-- Stores of a column that its core's L1 holds and their homes do not: an acquire of the column by a sync word or an event puts them
before what follows (R241, R248, R249, R326, log 140). -/
def State.heldInL1 (s : State) (col : ColId) : List Nat :=
  (s.accs.filter fun a => a.inL1 && a.gid.column == col).map (·.id)
/-- An acquire by a strand of a column: what its core's L1 holds precedes what the strand does next (R241, R248, log 140). -/
def State.acquire (s : State) (g : GroupId) (tid n : Nat) : State :=
  s.modStrand g tid n fun st => { st with after := st.after ++ s.heldInL1 g.column }
/-- What a fence of level `k` releases beside the accesses of its own thread, which it has waited for: those that barriers put before it
and that are not performed at `k` yet (R241, R325). -/
def State.fencedBy (s : State) (after : List Nat) (k : Nat) : List (Nat × Nat) :=
  (after.filter fun i => s.accs.any fun a => a.id == i && decide (a.level < k)).map fun i => (i, k)
/-- `ifence` counts stores, atomics and reductions alone (R199). -/
def Acc.writes (a : Acc) : Bool := match a.kind with | .store _ => true | .rmw _ _ _ => true | _ => false
/-- An acquire of the strand that is not performed yet: nothing issues after it (R233). -/
def Acc.acquiring (a : Acc) : Bool := (a.order == .acquire || a.order == .acqRel) && a.level == 0

/-- Strand order as the instruction would see it once it has read its register (R28). -/
def Lane.know (l : Lane) (u : Use) : List Nat :=
  match u.read with
  | some g => joinKnow l.st.know (l.t.greg g).know
  | none => l.st.know

/-- What barriers have put before the instruction once it has read its register (R28, R244). -/
def Lane.after (l : Lane) (u : Use) : List Nat :=
  match u.read with
  | some g => l.st.after ++ (l.t.greg g).after
  | none => l.st.after
/-- What fences have released before the instruction once it has read its register (R28, R241). -/
def Lane.fenced (l : Lane) (u : Use) : List (Nat × Nat) :=
  match u.read with
  | some g => l.st.fenced ++ (l.t.greg g).fenced
  | none => l.st.fenced
/-- The general register an instruction reads, when its kernel has it: any other traps at issue (R19). -/
def Lane.reads (l : Lane) (u : Use) : Option Nat := u.read.filter fun g => decide (g < l.g.kernel.ngpr)

/-- GEN of a sync word (R245). -/
def State.syncGen (s : State) (g : Group) (off : Nat) : Word := wordOf (s.mems.scratchRead g.core (g.wbase + off % 2 ^ 32 + 8) 4)
/-- The condition of `swait` and `swait.ge` (R247). -/
def swaitHolds (ge : Bool) (gen v : Word) : Bool := if ge then decide ((gen - v).toNat < 2 ^ 31) else gen != v
/-- A window offset at which a sync word is legal, so that `swait` has something to wait on (R226, R227). -/
def syncOk (g : Group) (off : Word) : Bool := off.toNat % 16 == 0 && decide (off.toNat + 16 ≤ g.wsize)

/-- A write that is ordered before the instruction and not performed yet lies in GEN of the sync word it reads (R30, R244, R247). -/
def State.genPending (s : State) (l : Lane) (u : Use) (off : Nat) : Bool :=
  s.accs.any fun a => a.writes && a.seg7 && a.gid == l.gid && a.level == 0
    && ((a.tid == l.tid && a.precedes (l.know u)) || (l.after u).contains a.id)
    && decide (a.va.toNat < off + 12 ∧ off + 8 < a.va.toNat + a.size)

/-- A group's column has been stopped before this cycle, or the device is quiesced: nothing of it issues (R368, R374, R384). -/
def State.drains (s : State) (core : Nat) (g : GroupId) : Bool :=
  s.quiesce.running || match s.stopOf g.column with
  | some st => st.begun || st.cycle != s.cycle core
  | none => false

/-- A fault record that the stage wrote has found its ring full: the stage is held until the host frees a slot (R219). -/
def State.stageHeld (s : State) (g : GroupId) : Bool :=
  s.faults.any fun f => !f.written && f.col == g.column && f.stage == g.stage

/-- The conditions of R123 that concern one strand alone and that `u` fails; fetch, crews and `blk` stand apart. A `lend` that waits for
results in flight alone (R186) is charged with memory pending, where R123 and R404 have no reason for it (DESIGN CHOICE, log 30). -/
def State.ownHolds (s : State) (core : Nat) (l : Lane) (u : Use) : List Stall :=
  let c := s.cycle core
  let know := l.know u
  let after := l.after u
  (if l.st.ready ≤ c then [] else [.count]) ++
  (match l.reads u with
    | some g => let r := l.t.greg g; if r.p && decide (r.visible ≤ c) then [] else [.absent]
    | none => []) ++
  (match u.name with
    | some g => let r := l.t.greg g; if u.put && r.p && !(r.c == 0 && r.w == l.st.n) then [.coins] else []
    | none => []) ++
  (if u.touch && l.st.own != .strand then [.lent] else []) ++
  (if (u.touch && (l.st.varPend.isSome || l.st.pend.any (·.var)))
      || s.accs.any (fun a => a.gid == l.gid && a.tid == l.tid && a.n == l.st.n && a.acquiring)
      || (match u.wait with
          | .fence k => !s.settled l.gid l.tid know [] k
          | .ifence => !((s.before l.gid l.tid know).all fun a => !a.writes || decide (2 ≤ a.level))
          | .group => !s.settled l.gid l.tid know after 1
          | .lend => !l.st.pend.isEmpty
          | _ => false) then [.memory] else []) ++
  (if u.dq && l.g.kernel.dqd != 0 && l.st.cursor == l.g.dqNext then [.dq] else []) ++
  (if l.st.sleep.isSome || (match u.wait with
      | .arrive b => match l.g.bars[b]? with | some x => x.arrived.contains l.tid && !x.left.contains l.tid | none => false
      | _ => false) then [.barrier] else []) ++
  (match u.wait, l.reads u with
    | .swait ge d, some g =>
      let r := l.t.greg g
      let off := r.val
      if r.p && decide (r.visible ≤ c) && syncOk l.g off
          && (s.genPending l u off.toNat || !swaitHolds ge (s.syncGen l.g off.toNat) (l.st.elem d)) then [.sync] else []
    | _, _ => []) ++
  (if (match l.st.state with | .parked _ => true | _ => false) || s.stageHeld l.gid then [.parked] else []) ++
  (if s.drains core l.gid then [.drain] else [])

/-- Every lane of a thread's crew (R11). -/
def State.crewLanes (s : State) (l : Lane) : List Lane :=
  (List.range 16).filterMap fun i => s.lane? l.st.n (l.gid, crewOf l.tid * 16 + i)

/-- The crew is complete for a crew instruction: each live thread whose strand has not finished stands at the same PC (R128). -/
def State.crewComplete (s : State) (l : Lane) : Bool :=
  (s.crewLanes l).all fun m => m.t.finished m.st.n || m.st.pc == l.st.pc
/-- A crew-mate of a complete crew is itself held: the whole crew issues once every thread of it is eligible (R187). -/
def State.mateHeld (s : State) (core : Nat) (l : Lane) (u : Use) : Bool :=
  (s.crewLanes l).any fun m => m.tid != l.tid && !m.t.finished m.st.n && !(s.ownHolds core m u).isEmpty

/-- The hold of R130: a live crew-mate, not finished or parked, stands in the same strand at a lower PC. -/
def State.blkHeld (s : State) (l : Lane) : Bool :=
  !l.st.promoted && (s.crewLanes l).any fun m => m.t.running m.st.n && decide (m.st.pc.toNat < l.st.pc.toNat)

/-- Every condition of R123 that a fetched instruction fails. -/
def State.holds (s : State) (core : Nat) (l : Lane) (u : Use) : List Stall :=
  s.ownHolds core l u ++
  (match u.wait with
    | .crew => if !s.crewComplete l || ((s.ownHolds core l u).isEmpty && s.mateHeld core l u) then [.crew] else []
    | .blk => if s.blkHeld l then [.crew] else []
    | _ => [])

/-! ## Issue -/

/-- Why a thread's instruction does not issue: class, code and address of its trap (R367). -/
structure Cause where
  cls : Nat
  code : Nat
  va : Addr := 0
  deriving DecidableEq, Repr

/-- An illegal instruction (R109). -/
def Cause.illegal : Cause := { cls := 1, code := 0 }
/-- A decision-queue entry reclaimed (R37). -/
def Cause.reclaimed : Cause := { cls := 1, code := 1 }

/-- Raises a trap at the instruction of one thread. -/
def State.refuse (s : State) (l : Lane) (c : Cause) : State :=
  s.takeTrap l.gid { Trap.ofStrand c.cls c.code l.gid l.tid l.st.n l.st.pc with va := c.va }

/-- The decision-queue entry at a strand's cursor (R37). -/
def Lane.dqEntry? (l : Lane) : Option DqEntry := l.g.dq.find? (·.seq == l.st.cursor)
/-- The entry at which a thread stands has fewer readers left than threads of the bundle stand at it, or is freed (R37). -/
def dqReclaimed (lanes : List Lane) (l : Lane) : Bool :=
  match l.dqEntry? with
  | none => true
  | some e => decide (e.readers < (lanes.filter fun m => m.gid == l.gid && m.st.cursor == l.st.cursor).length)

/-- What the kernel makes illegal for a whole bundle (R19, R37, R109, R243). -/
def illegalIn (u : Use) (k : Kernel) : Bool :=
  (match u.name with | some g => decide (k.ngpr ≤ g) | none => false) || (u.dq && k.dqd == 0)
    || (match u.bar with | some b => decide (k.nbar ≤ b) | none => false)

/-- A fixed-latency result of the accumulator has not landed (R116). -/
def Strand.unlanded (st : Strand) : Bool := st.pend.any fun p => !p.var

/-- A strand after an issue on cycle `c`: the next PC, the stall count of R114, and a wait of 0 (R127). -/
def Strand.issued (st : Strand) (c w : Nat) (pc : Addr) : Strand :=
  { st with pc := pc, ready := c + w + 1, wait := 0, promoted := false, issuedAt := c + 1 }

/-- A thread that has read a general register: one coin less, absent after the last; a sticky one spends nothing (R23, R24). -/
def Thread.spend (t : Thread) (g : Nat) : Thread :=
  let r := t.greg g
  if r.c = 0 then t else t.setGreg g (if r.c = 1 then { r with p := false, c := 0 } else { r with c := r.c - 1 })

/-- A group whose decision queue one thread has read at `seq`: the entry is freed at its last reader (R36, R37). -/
def Group.dqRead (g : Group) (seq : Word) : Group :=
  { g with dq := (updWhere (·.seq == seq) (fun e => { e with readers := e.readers - 1 }) g.dq).filter (·.readers != 0) }

/-- What the issue of one thread does whatever its instruction: strand order and the coin (R24, R25, R28), the decision queue (R37),
the next instruction, the stall count. -/
def State.issueLane (s : State) (c : Nat) (f : Form) (l : Lane) : State :=
  let u := f.use
  let s := s.modThread l.gid l.tid fun t =>
    let t := match u.read with | some g => t.spend g | none => t
    t.modStrand l.st.n fun st =>
      let st := st.issued c f.stall (st.pc + BitVec.ofNat 64 (2 * f.size))
      { st with know := l.know u, after := l.after u, fenced := l.fenced u, cursor := if u.dq then st.cursor + 1 else st.cursor }
  if u.dq then s.modGroup l.gid (·.dqRead l.st.cursor) else s

/-- The pipe of a cluster is taken until `c + occupancy` (R131, R132). -/
def State.busyPipe (s : State) (core n : Nat) (f : Form) (until_ : Nat) : State :=
  s.modCore core fun k =>
    if f.use.elem then { k with elemBusy := k.elemBusy.set (clusterOf n) until_ }
    else { k with accBusy := k.accBusy.set (clusterOf n) until_ }

/-- The threads of the current bundle that can issue an instruction of this form now: running, at the bundle's PC, held by nothing. -/
def State.ready (s : State) (f : Form) : List Lane :=
  match s.cur with
  | some (.bundle core n pc members) =>
    (members.filterMap (s.lane? n)).filter fun l => l.t.running n && l.st.pc == pc && (s.holds core l f.use).isEmpty
  | _ => []

/-- The core the current bundle runs on. -/
def State.curCore (s : State) : Nat := match s.cur with | some (.bundle core _ _ _) => core | _ => 0

/-- The strand number of the current bundle. -/
def State.curStrand (s : State) : Nat := match s.cur with | some (.bundle _ n _ _) => n | _ => 0

/-- Why one thread's instruction does not issue although the bundle may (R116), before the instruction's own causes. -/
def checkCause (u : Use) (l : Lane) : Option Cause :=
  if l.g.check && u.touch && l.st.unlanded then some { cls := 2, code := 0 } else none

/-- The trace's account of a bundle (R402): for each crew of each group in it, reconvergence when its lanes strictly include those of
the last bundle of that crew and strand, which it then replaces. -/
def State.traceBundle (s : State) (lanes : List Lane) : State :=
  (lanes.filter fun l => (lanes.find? fun m => m.gid == l.gid && crewOf m.tid == crewOf l.tid) == some l).foldl (fun s l =>
    let crew := crewOf l.tid
    let now := laneMask crew ((lanes.filter (·.gid == l.gid)).map (·.tid))
    let last := (l.g.masks.find? (·.1 == (crew, l.st.n))).map (·.2)
    let s := match last with
      | some m => if m ≠ now ∧ m &&& now = m then s.trace l.g 1 l.st.n crew false now l.st.pc else s
      | none => s
    s.modGroup l.gid fun g => { g with masks := ((crew, l.st.n), now) :: g.masks.filter (·.1 != (crew, l.st.n)) }) s

/-- The traps of the threads that have a cause (R368). -/
def State.refuseAll (s : State) (why : Lane → Option Cause) (lanes : List Lane) : State :=
  lanes.foldl (fun s l => match why l with | some c => s.refuse l c | none => s) s

/-- The issue of an instruction for the current bundle. Illegal in its kernel or against the decision queue, it issues for no thread
and each takes the trap (R37, R109); a thread with a cause of its own takes that trap; for the rest, the issue of R114 and then
`act`, which sees the cycle and the threads as they stood before. -/
def State.issueWith (s : State) (f : Form) (cause : Lane → Option Cause) (act : Nat → List Lane → State → State) : State :=
  let lanes := s.ready f
  match lanes with
  | [] => s
  | l :: _ =>
    if illegalIn f.use l.g.kernel then lanes.foldl (fun s l => s.refuse l .illegal) s
    else if f.use.dq && lanes.any (dqReclaimed lanes) then lanes.foldl (fun s l => s.refuse l .reclaimed) s
    else
      let why (l : Lane) : Option Cause := (checkCause f.use l).orElse fun _ => cause l
      let s := s.refuseAll why lanes
      let go := lanes.filter fun l => (why l).isNone
      let c := s.cycle s.curCore
      let s := go.foldl (fun s l => s.issueLane c f l) s
      let s := if go.isEmpty then s else s.busyPipe s.curCore s.curStrand f (c + f.occupancy)
      act c go (s.traceBundle go)

/-- No cause of its own. -/
def noCause (_ : Lane) : Option Cause := none

/-! ## Operand B and windows (R102, R152) -/

/-- B for the element `src` (R152). -/
def Lane.operand (l : Lane) (g : BitVec 6) (b : BSrc) (src : Nat) : Word :=
  match b with
  | .gpr => (l.t.greg g.toNat).val
  | .elem => l.st.elem src
  | .lit v => v
  | .dq => match l.dqEntry? with | some e => e.value | none => 0

/-- The format registers and the special-function mode that an instruction of cycle `c` reads: on the cycle of a change, the old
ones (R143). -/
def Group.nfAt (g : Group) (c k : Nat) : Word := (if g.fmtAt == c then g.nfOld else g.nf).getD k fmtReset
/-- The special-function mode likewise (R174, R143). -/
def Group.sfAt (g : Group) (c : Nat) : Bool := if g.fmtAt == c then g.sfOld else g.sfmode

/-- What the computation of one element reads (R155, R166, R177). -/
def Lane.elemIn (l : Lane) (c : Nat) (f : EFields) (dx : Nat × Nat) : ElemIn :=
  { md := f.mods.getD .zero, nf := l.g.nfAt c (f.g.toNat % 8), compat := l.g.sfAt c, am := l.st.flags.am, a := l.st.elem dx.1,
    x := l.st.elem dx.2, b := l.operand f.g f.b dx.2, ix := dx.1 }

/-- When an E-class result lands (R131): L cycles after issue, or after the occupancy of a window. -/
def landsAt (c lat : Nat) (d : Dst) : Nat :=
  match d with
  | .one _ _ => c + lat
  | .win .all _ => c + 16 + lat
  | .win _ _ => c + 8 + lat

/-- A result in flight for one thread's strand (R115). -/
def State.pushPend (s : State) (l : Lane) (p : Pend) : State :=
  s.modStrand l.gid l.tid l.st.n fun st => { st with pend := st.pend ++ [p] }

/-- The results of an elementwise instruction for one thread: the new elements, and the flags of all of them (R131, R149). -/
def Lane.results (l : Lane) (c : Nat) (f : EFields) (rule : ElemIn → ElemOut) : List (Nat × Word) × Flags :=
  let outs := f.dst.pairs.map fun dx => (dx.1, rule (l.elemIn c f dx))
  (outs.map fun o => (o.1, o.2.1), outs.foldl (fun fl o => fl.or o.2.2) {})

/-- An elementwise instruction: each destination receives `rule` of what is read on the issue cycle, `lat` cycles later (R102, R115,
R131). -/
def elementwise (fm : Form) (f : EFields) (lat : Nat) (rule : ElemIn → ElemOut) (s : State) : Out :=
  .next (s.issueWith fm noCause fun c lanes s =>
    lanes.foldl (fun s l =>
      let r := l.results c f rule
      s.pushPend l { due := landsAt c lat f.dst, writes := r.1, flags := r.2, var := false, pc := l.st.pc }) s)

/-- An E-class instruction in its long form. -/
def eLong (op : BitVec 8) (f : EFields) (lat : Nat) (rule : ElemIn → ElemOut) (s : State) : Out :=
  elementwise (.e op f) f lat rule s

/-- The long form's fields that an S form with a register stands for: M 0, V 0, D 0, X 1, BS 00 (R99). -/
def shortG (g : BitVec 6) (w : BitVec 3) : EFields := { mods := none, g := g, w := w, b := .gpr, dst := .one 0 1 }
/-- The same with an immediate: the literal word holds sext(X6, 6) (R99). -/
def shortI (i : BitVec 6) (w : BitVec 3) : EFields := { mods := none, g := 0, w := w, b := .lit (i.signExtend 32), dst := .one 0 1 }

end Sys2Proof.Machine
end

