-- ==== Sys2Proof/Machine/Branch.lean ====
section
/-! DEFINITION. Branches and calls, ending and stopping: 09_flow R192 to R197, 22_retire_debug R400, R402. -/

namespace Sys2Proof.Machine

/-- The target of a branch: PC + 2 × offset (R106, R192). -/
def Lane.target (l : Lane) (offset : Int) : Addr := l.st.pc + BitVec.ofInt 64 (2 * offset)

/-- The trace's account of a branch bundle, its lanes at their next PCs (R402): a divergence for each crew whose lanes leave with
different ones. -/
def State.traceBranch (s : State) (lanes : List Lane) (target : Lane → Option Addr) : State :=
  (lanes.filter fun l => (lanes.find? fun m => m.gid == l.gid && crewOf m.tid == crewOf l.tid) == some l).foldl (fun s l =>
    let crew := lanes.filter fun m => m.gid == l.gid && crewOf m.tid == crewOf l.tid
    let next (m : Lane) : Option Addr := (s.strand? m.gid m.tid m.st.n).map (·.pc)
    if crew.all fun m => next m == next l then s
    else s.trace l.g 0 l.st.n (crewOf l.tid) false (laneMask (crewOf l.tid) ((crew.filter fun m => (target m).isSome).map (·.tid))) l.st.pc) s

/-- A branch: each thread goes to its own target, or to the next instruction; `upd` is what else becomes of its strand (R130, R192,
R193). -/
def branch (fm : Form) (cause : Lane → Option Cause) (target : Lane → Option Addr) (upd : Lane → Strand → Strand) (s : State) : Out :=
  .next (s.issueWith fm cause fun _ lanes s =>
    (lanes.foldl (fun s l =>
      s.modStrand l.gid l.tid l.st.n fun st =>
        let st := upd l st
        match target l with
        | some pc => { st with pc := pc }
        | none => st) s).traceBranch lanes target)

/-- Nothing else becomes of the strand. -/
def keepStrand (_ : Lane) (st : Strand) : Strand := st

/-- A conditional branch by an offset. -/
def branchIf (fm : Form) (offset : Int) (taken : Lane → Bool) (s : State) : Out :=
  branch fm noCause (fun l => if taken l then some (l.target offset) else none) keepStrand s

/-- Taken without a condition. -/
def always (_ : Lane) : Bool := true
/-- g = 0 (R192). -/
def gZero (g : BitVec 6) (l : Lane) : Bool := (l.t.greg g.toNat).val == 0
/-- Pattern of e[g[4:0]] = 0 (R192). -/
def eZero (g : BitVec 6) (l : Lane) : Bool := l.st.elem ((l.t.greg g.toNat).val.toNat % 32) == 0
/-- Pattern of e0 = 0, for the short forms (R99). -/
def e0Zero (l : Lane) : Bool := l.st.elem 0 == 0

/-- BRA (R192): Unconditional branch by a 13-bit parcel offset. -/
def execBra (w : BitVec 3) (o : BitVec 13) (s : State) : Out := branchIf (.plain 0x90#8 0 w o) o.toInt always s
/-- BRA_LONG (R106): Unconditional branch with a 32-bit literal offset. -/
def execBraLong (w : BitVec 3) (o : BitVec 32) (s : State) : Out := branchIf (.far 0x90#8 0 w o) o.toInt always s
/-- BZ (R192): Branch when general register g is zero. -/
def execBz (g : BitVec 6) (w : BitVec 3) (o : BitVec 13) (s : State) : Out := branchIf (.plain 0x91#8 g w o) o.toInt (gZero g) s
/-- BZ_LONG (R106): bz with a literal offset. -/
def execBzLong (g : BitVec 6) (w : BitVec 3) (o : BitVec 32) (s : State) : Out := branchIf (.far 0x91#8 g w o) o.toInt (gZero g) s
/-- BNZ (R192): Branch when g is non-zero. -/
def execBnz (g : BitVec 6) (w : BitVec 3) (o : BitVec 13) (s : State) : Out :=
  branchIf (.plain 0x92#8 g w o) o.toInt (fun l => !gZero g l) s
/-- BNZ_LONG (R106): bnz with a literal offset. -/
def execBnzLong (g : BitVec 6) (w : BitVec 3) (o : BitVec 32) (s : State) : Out :=
  branchIf (.far 0x92#8 g w o) o.toInt (fun l => !gZero g l) s
/-- BEZ (R192): Branch when element e[g[4:0]] is zero. -/
def execBez (g : BitVec 6) (w : BitVec 3) (o : BitVec 13) (s : State) : Out := branchIf (.plain 0x93#8 g w o) o.toInt (eZero g) s
/-- BEZ_LONG (R106): bez with a literal offset. -/
def execBezLong (g : BitVec 6) (w : BitVec 3) (o : BitVec 32) (s : State) : Out := branchIf (.far 0x93#8 g w o) o.toInt (eZero g) s
/-- BENZ (R192): Branch when element e[g[4:0]] is non-zero. -/
def execBenz (g : BitVec 6) (w : BitVec 3) (o : BitVec 13) (s : State) : Out :=
  branchIf (.plain 0x94#8 g w o) o.toInt (fun l => !eZero g l) s
/-- BENZ_LONG (R106): benz with a literal offset. -/
def execBenzLong (g : BitVec 6) (w : BitVec 3) (o : BitVec 32) (s : State) : Out :=
  branchIf (.far 0x94#8 g w o) o.toInt (fun l => !eZero g l) s
/-- S_BRA (R100): Short branch by a 6-bit parcel offset. -/
def execSBra (o : BitVec 6) (w : BitVec 3) (s : State) : Out := branchIf (.short 0x2B#6 o w) o.toInt always s
/-- S_BEZ (R99): Short branch when e0 is zero, reading no register. -/
def execSBez (o : BitVec 6) (w : BitVec 3) (s : State) : Out := branchIf (.short 0x2C#6 o w) o.toInt e0Zero s
/-- S_BENZ (R99): Short branch when e0 is non-zero. -/
def execSBenz (o : BitVec 6) (w : BitVec 3) (s : State) : Out := branchIf (.short 0x2D#6 o w) o.toInt (fun l => !e0Zero l) s

/-! ## Calls (R54, R193) -/

/-- Eight entries are on the stack: overflow (R193). -/
def callCause (l : Lane) : Option Cause := if 8 ≤ l.st.rstack.length then some { cls := 6, code := 1 } else none
/-- The stack is empty: underflow (R193). -/
def retCause (l : Lane) : Option Cause := if l.st.rstack.isEmpty then some { cls := 6, code := 2 } else none
/-- The 64-bit target in e[D] and e[D + 1] (R193). -/
def Lane.callee (l : Lane) (d : BitVec 5) : Addr := l.st.elem (d.toNat + 1) ++ l.st.elem d.toNat
/-- A target with bit 0 set is illegal at the `callx` (R95, R193), and before the overflow of a full stack, which R193 does not order (DESIGN
CHOICE, log 150). -/
def callxCause (d : BitVec 5) (l : Lane) : Option Cause :=
  if (l.callee d).getLsbD 0 then some .illegal else callCause l
/-- Pushes the address of the next instruction, where the issue has left the PC. -/
def pushReturn (_ : Lane) (st : Strand) : Strand := { st with rstack := st.pc :: st.rstack }
/-- Pops the newest entry. -/
def popReturn (_ : Lane) (st : Strand) : Strand := { st with rstack := st.rstack.drop 1 }

/-- CALL (R193): Push the return address and jump. -/
def execCall (w : BitVec 3) (o : BitVec 13) (s : State) : Out :=
  branch (.plain 0x95#8 0 w o) callCause (fun l => some (l.target o.toInt)) pushReturn s
/-- CALL_LONG (R106): call with a literal offset. -/
def execCallLong (w : BitVec 3) (o : BitVec 32) (s : State) : Out :=
  branch (.far 0x95#8 0 w o) callCause (fun l => some (l.target o.toInt)) pushReturn s
/-- CALLX (R193): Push the return address and jump to the 64-bit target in e[D]:e[D+1]. -/
def execCallx (w : BitVec 3) (d : BitVec 5) (s : State) : Out :=
  branch (.plain 0x96#8 0 w (0#8 ++ d)) (callxCause d) (fun l => some (l.callee d)) pushReturn s
/-- RET (R193): Pop the return stack and jump. -/
def execRet (w : BitVec 3) (s : State) : Out := branch (.plain 0x97#8 0 w 0) retCause (fun l => l.st.rstack.head?) popReturn s
/-- S_RET (R100): Short ret. -/
def execSRet (w : BitVec 3) (s : State) : Out := branch (.short 0x37#6 0 w) retCause (fun l => l.st.rstack.head?) popReturn s

/-! ## Hold points and ends (R194 to R197) -/

/-- An instruction that changes only the PC (R194, R198). -/
def passes (fm : Form) (s : State) : Out := .next (s.issueWith fm noCause fun _ _ s => s)

/-- BLK (R194): Block-entry hold point for reconvergence. -/
def execBlk (w : BitVec 3) (s : State) : Out := passes (.plain 0x98#8 0 w 0) s
/-- S_BLK (R100): Short blk. -/
def execSBlk (w : BitVec 3) (s : State) : Out := passes (.short 0x2E#6 0 w) s

/-- `end`: the strand finishes, and its return stack is discarded (R193, R195). -/
def endStrand (fm : Form) (s : State) : Out :=
  .next (s.issueWith fm noCause fun _ lanes s =>
    lanes.foldl (fun s l => s.modStrand l.gid l.tid l.st.n fun st => { st with state := .finished, over_ := true, rstack := [] }) s)

/-- END (R195): Finish the strand. -/
def execStrandEnd (w : BitVec 3) (s : State) : Out := endStrand (.plain 0x99#8 0 w 0) s
/-- S_END (R100): Short end. -/
def execSEnd (w : BitVec 3) (s : State) : Out := endStrand (.short 0x2F#6 0 w) s

/-- EXIT (R196): Finish every strand of the thread with status e[D]. Entries on the return stacks are discarded (R193). -/
def execExit (w : BitVec 3) (d : BitVec 5) (s : State) : Out :=
  .next (s.issueWith (.plain 0x9A#8 0 w (0#8 ++ d)) noCause fun _ lanes s =>
    lanes.foldl (fun s l => s.modThread l.gid l.tid fun t =>
      { t with exited := true, status := l.st.elem d.toNat,
               strands := t.strands.map fun st => { st with state := .finished, over_ := true, rstack := [] } }) s)

/-- TRAP (R197): Software trap stopping the group precisely. -/
def execTrap (w : BitVec 3) (c : BitVec 13) (s : State) : Out :=
  .next (s.issueWith (.plain 0x9B#8 0 w c) (fun _ => some { cls := 8, code := c.toNat }) fun _ _ s => s)

/-- The thread stood at a `brk` that stopped its core, which passes once (R400). -/
def brkPasses (k : Core) (l : Lane) : Bool := k.brkPass.contains (l.gid, l.tid, l.st.n)

/-- BRK (R197): Breakpoint trap, or core stop under BRKSTOP (R400). -/
def execBrk (w : BitVec 3) (c : BitVec 13) (s : State) : Out :=
  let fm : Form := .plain 0x9C#8 0 w c
  let k := s.coreAt s.curCore
  let stops := (s.ready fm).filter fun l => !brkPasses k l && (k.brkstop.contains none || k.brkstop.contains (some l.g.ctx))
  if !stops.isEmpty then
    .next (s.modCore s.curCore fun k =>
      { k with stopped := true, stopAsked := false, stepsLeft := none, brkPass := k.brkPass ++ stops.map fun l => (l.gid, l.tid, l.st.n) })
  else
    .next (s.issueWith fm (fun l => if brkPasses k l then none else some { cls := 9, code := c.toNat }) fun _ lanes s =>
      s.modCore s.curCore fun k => { k with brkPass := k.brkPass.filter fun p => !(lanes.any fun l => (l.gid, l.tid, l.st.n) == p) })

end Sys2Proof.Machine
end

