-- ==== Sys2Proof/Machine/SystemOps.lean ====
section
/-! DEFINITION. The system class: 09_flow R198 to R201. -/

namespace Sys2Proof.Machine

/-- NOP (R198): No effect beyond its stall count. -/
def execNop (w : BitVec 3) (s : State) : Out := passes (.plain 0xB0#8 0 w 0) s
/-- S_NOP (R100): Short nop. -/
def execSNop (w : BitVec 3) (s : State) : Out := passes (.short 0x30#6 0 w) s

/-- IFENCE (R199): after prior writes are performed at their homes, drop the context's code-store lines of the core, those of global
pages, which match every context, among them. -/
def execIfence (w : BitVec 3) (s : State) : Out :=
  .next (s.issueWith (.plain 0xB1#8 0 w 0) noCause fun _ lanes s =>
    match lanes with
    | [] => s
    | l :: _ =>
      let asid := (s.ctxAt l.g.ctx).asid
      let core := s.curCore
      { s with code := s.code.filter fun c => !(c.core == core && tagMatch c.key.asid asid) })

/-- The flags a `stflag` of cycle `c` reads, and its clearing variant clears: none whose setting write lands on that cycle (R149). -/
def Strand.readFlags (st : Strand) (c : Nat) : Flags := if st.freshAt == c then st.flags.minus st.fresh else st.flags

/-- `stflag`: the flag word to e[D] on cycle c + 4; the clearing variant clears exactly the flags it read (R149, R200). -/
def readFlagsTo (w : BitVec 3) (d : BitVec 5) (clear : Bool) (s : State) : Out :=
  .next (s.issueWith (.plain 0xB2#8 0 w (0#3 ++ d ++ (if clear then 1#5 else 0#5))) noCause fun c lanes s =>
    lanes.foldl (fun s l =>
      let fl := l.st.readFlags c
      let s := s.pushPend l { due := c + 4, writes := [(d.toNat, fl.word)], flags := {}, var := false, pc := l.st.pc }
      if clear then s.modStrand l.gid l.tid l.st.n fun st => { st with flags := st.flags.minus fl } else s) s)

/-- STFLAG (R200): Read the sticky flags into e[D]. -/
def execStflag (w : BitVec 3) (d : BitVec 5) (s : State) : Out := readFlagsTo w d false s

/-- STFLAG_CLR (R200): Read and clear the sticky flags. -/
def execStflagClr (w : BitVec 3) (d : BitVec 5) (s : State) : Out := readFlagsTo w d true s

/-- `hint`: in force for 4 × (D + 1) vector cycles from issue, in place of an earlier one (R201). -/
def hint (w : BitVec 3) (d : BitVec 5) (urgent : Bool) (s : State) : Out :=
  .next (s.issueWith (.plain 0xB3#8 0 w (0#3 ++ d ++ (if urgent then 1#5 else 0#5))) noCause fun c lanes s =>
    lanes.foldl (fun s l =>
      s.modStrand l.gid l.tid l.st.n fun st => { st with hint := some { urgent := urgent, until_ := c + 4 * (d.toNat + 1) } }) s)

/-- HINT_YIELD (R201): Decline leadership for 4(D+1) cycles. -/
def execHintYield (w : BitVec 3) (d : BitVec 5) (s : State) : Out := hint w d false s

/-- HINT_URGENT (R201): Rank as the oldest group for 4(D+1) cycles. -/
def execHintUrgent (w : BitVec 3) (d : BitVec 5) (s : State) : Out := hint w d true s

end Sys2Proof.Machine
end

