-- ==== Sys2Proof/Machine/MemAccess.lean ====
section
/-! DEFINITION. The issue of loads, stores, atomics, reductions, prefetches and write-backs: 11_memory_insts R225 to R240. What becomes
of an access after its issue is Perform.lean. -/

namespace Sys2Proof.Machine

/-! ## Addresses and the checks of issue (R204, R225 to R228) -/

/-- zext(g) + sext(OFFSET, 26) (R104). -/
def Lane.offset (l : Lane) (g : BitVec 6) (a : AddrWord) : Addr := (l.t.greg g.toNat).val.setWidth 64 + a.off.signExtend 64
/-- The address of an access: SEG[k] + zext(g) + sext(OFFSET), modulo 2^64, or the window offset, modulo 2^32 (R104, R204). -/
def Lane.address (l : Lane) (g : BitVec 6) (seg : BitVec 3) (a : AddrWord) : Addr :=
  if seg = 7 then (l.offset g a).setWidth 32 |>.setWidth 64 else l.g.seg.getD seg.toNat 0 + l.offset g a

/-- Step 2 of R228: the window bound, then alignment where R227 asks for it. -/
def accessCause (seg : BitVec 3) (va : Addr) (size : Nat) (aligned : Bool) (wsize : Nat) : Option Cause :=
  if seg = 7 ∧ wsize < va.toNat + size then some { cls := 4, code := 6, va := va }
  else if aligned ∧ va.toNat % size ≠ 0 then some { cls := 4, code := 3, va := va }
  else none

/-- An instruction's access, before a thread gives it an address: segment, address word, register, size in bytes, whether it must be
aligned (R227), whether step 2 of R228 may fault it (not a prefetch or a `cwb`: R234, R235), whether it writes the accumulator, whether it
is a vector access (R227). -/
structure AccSpec where
  g : BitVec 6
  seg : BitVec 3
  addr : AddrWord
  size : Nat
  aligned : Bool
  faults : Bool
  writesAcc : Bool
  vec : Bool := false
  deriving DecidableEq, Repr

/-- The cause of a thread at issue (R228). -/
def AccSpec.cause (a : AccSpec) (l : Lane) : Option Cause :=
  if a.faults then accessCause a.seg (l.address a.g a.seg a.addr) a.size a.aligned l.g.wsize else none

/-- Enters one thread's access, bound to the issue of its bundle, and takes it into strand order, after the earlier accesses that
a barrier has put before it (R28, R225, R244). -/
def State.enterAcc (s : State) (a : AccSpec) (bundle c : Nat) (kind : AccKind) (l : Lane) : State :=
  let st := (s.strand? l.gid l.tid l.st.n).getD l.st
  let acc : Acc :=
    { id := s.nextId, bundle := bundle, gid := l.gid, tid := l.tid, n := l.st.n, seq := st.seq, know := st.know,
      after := (s.stillOpen st.after).filter fun i => decide (i < bundle),
      fenced := st.fenced.filter fun x => decide (x.1 < bundle) && s.accs.any fun b => b.id == x.1 && decide (b.level < x.2),
      units := [], pins := [], vec := a.vec, since := c, pc := l.st.pc,
      coin := some (a.g.toNat, l.t.greg a.g.toNat), core := l.g.core, ctx := l.g.ctx, asid := (s.ctxAt l.g.ctx).asid,
      seg7 := a.seg == 7, va := l.address a.g a.seg a.addr, size := a.size, kind := kind, scope := a.addr.scope, order := a.addr.order,
      hint := a.addr.hint, st := .open_, got := [], cont := st.pc, at_ := c }
  { s with accs := s.accs ++ [acc], nextId := s.nextId + 1 }.modStrand l.gid l.tid l.st.n fun st =>
    { st with seq := st.seq + 1, know := st.know.set l.st.n (st.seq + 1), varPend := if a.writesAcc then some bundle else st.varPend }

/-- The issue of a memory instruction: an access for each thread, in ascending lane order (R129, R232); `flags` are those a narrowing
store sets on cycle c + 4 (R231); `size` is a thread's own where its format register gives it (R230), else the instruction's. -/
def access (fm : Form) (a : AccSpec) (kind : Nat → Lane → AccKind) (flags : Nat → Lane → Flags) (s : State)
    (size : Nat → Lane → Nat := fun _ _ => a.size) : Out :=
  let own (c : Nat) (l : Lane) : AccSpec := { a with size := size c l }
  .next (s.issueWith fm (fun l => (own (s.cycle s.curCore) l).cause l) fun c lanes s =>
    let bundle := s.nextId
    lanes.foldl (fun s l =>
      let s := s.enterAcc (own c l) bundle c (kind c l) l
      let fl := flags c l
      if fl = Flags.none then s else s.pushPend l { due := c + 4, writes := [], flags := fl, var := false, pc := l.st.pc }) s)

/-- No flag at issue. -/
def noFlags (_ : Nat) (_ : Lane) : Flags := Flags.none

/-- An access with an ORDER must be aligned (R227). -/
def ordered (a : AddrWord) : Bool := a.order != .relaxed

/-! ## Loads (R230, R231) -/

/-- A load. -/
def load (op : BitVec 8) (f : MemFields) (size : Nat) (form : Nat → Lane → LoadForm) (s : State) (vec : Bool := false) : Out :=
  access (.mem op f)
    { g := f.g, seg := f.seg, addr := f.word, size := size, aligned := ordered f.word, faults := true, writesAcc := true, vec := vec }
    (fun c l => .load (form c l)) noFlags s

/-- First element and number of elements of a window (R230). -/
def windowOf (win : BitVec 2) : Nat × Nat := if win = 0 then (0, 16) else if win = 1 then (16, 16) else (0, 32)

/-- LD_B8S (R230): Load a byte sign-extended. -/
def execLdB8s (f : MemFields) (s : State) : Out := load 0x70#8 f 1 (fun _ _ => .scalar 1 true f.d.toNat) s
/-- LD_B8Z (R230): Load a byte zero-extended. -/
def execLdB8z (f : MemFields) (s : State) : Out := load 0x71#8 f 1 (fun _ _ => .scalar 1 false f.d.toNat) s
/-- LD_B16S (R230): Load a half sign-extended. -/
def execLdB16s (f : MemFields) (s : State) : Out := load 0x72#8 f 2 (fun _ _ => .scalar 2 true f.d.toNat) s
/-- LD_B16Z (R230): Load a half zero-extended. -/
def execLdB16z (f : MemFields) (s : State) : Out := load 0x73#8 f 2 (fun _ _ => .scalar 2 false f.d.toNat) s
/-- LD_B32 (R230): Load a word into e[D]. -/
def execLdB32 (f : MemFields) (s : State) : Out := load 0x74#8 f 4 (fun _ _ => .scalar 4 false f.d.toNat) s
/-- LD_B64 (R230): Load 8 bytes into e[D], e[D+1]. -/
def execLdB64 (f : MemFields) (s : State) : Out := load 0x75#8 f 8 (fun _ _ => .pair f.d.toNat) s
/-- LD_V16 (R230): Load 16 words into a half window. -/
def execLdV16 (f : MemFields) (s : State) : Out := load 0x76#8 f 64 (fun _ _ => .words (windowOf f.win).1 16) s true
/-- LD_V32 (R230): Load 32 words into e0–e31. -/
def execLdV32 (f : MemFields) (s : State) : Out := load 0x77#8 f 128 (fun _ _ => .words 0 32) s true
/-- LD_BF16V (R231): Load BF16 codes widened to FP32. -/
def execLdBf16v (f : MemFields) (s : State) : Out :=
  load 0x78#8 f (2 * (windowOf f.win).2) (fun _ _ => .codes (windowOf f.win).1 (windowOf f.win).2 none) s true

/-- Bits of a container of a format register's word (R139). -/
def containerBits (nf : Word) : Nat := (Fmt.ofReg nf).container

/-- The bytes of a window of codes in a thread's own format register (R139, R143, R230). -/
def codesSize (f : MemFields) (c : Nat) (l : Lane) : Nat := (windowOf f.win).2 * containerBits (l.g.nfAt c (f.d.toNat % 8)) / 8

/-- LD_NFV (R231): Load nfK codes widened to FP32. -/
def execLdNfv (f : MemFields) (s : State) : Out :=
  access (.mem 0x79#8 f)
    { g := f.g, seg := f.seg, addr := f.word, size := 0, aligned := ordered f.word, faults := true, writesAcc := true, vec := true }
    (fun c l => .load (.codes (windowOf f.win).1 (windowOf f.win).2 (some (l.g.nfAt c (f.d.toNat % 8))))) noFlags s (codesSize f)

/-! ## Stores (R230, R231) -/

/-- A store of the bytes that each thread's elements give at issue. -/
def store (op : BitVec 8) (f : MemFields) (size : Nat) (data : Nat → Lane → List Byte) (flags : Nat → Lane → Flags) (s : State)
    (vec : Bool := false) : Out :=
  access (.mem op f)
    { g := f.g, seg := f.seg, addr := f.word, size := size, aligned := ordered f.word, faults := true, writesAcc := false, vec := vec }
    (fun c l => .store (data c l)) flags s

/-- The bytes of elements, the lowest at the lowest address. -/
def Lane.elemBytes (l : Lane) (first count : Nat) : List Byte := (List.range count).flatMap fun i => wordBytes (l.st.elem (first + i))

/-- ST_B8 (R230): Store the low byte of e[D]. -/
def execStB8 (f : MemFields) (s : State) : Out := store 0x7C#8 f 1 (fun _ l => (l.elemBytes f.d.toNat 1).take 1) noFlags s
/-- ST_B16 (R230): Store the low half of e[D]. -/
def execStB16 (f : MemFields) (s : State) : Out := store 0x7D#8 f 2 (fun _ l => (l.elemBytes f.d.toNat 1).take 2) noFlags s
/-- ST_B32 (R230): Store e[D]. -/
def execStB32 (f : MemFields) (s : State) : Out := store 0x7E#8 f 4 (fun _ l => l.elemBytes f.d.toNat 1) noFlags s
/-- ST_B64 (R230): Store e[D]:e[D+1]. -/
def execStB64 (f : MemFields) (s : State) : Out := store 0x7F#8 f 8 (fun _ l => l.elemBytes f.d.toNat 2) noFlags s
/-- ST_V16 (R230): Store a half window. -/
def execStV16 (f : MemFields) (s : State) : Out := store 0x80#8 f 64 (fun _ l => l.elemBytes (windowOf f.win).1 16) noFlags s true
/-- ST_V32 (R230): Store e0–e31. -/
def execStV32 (f : MemFields) (s : State) : Out := store 0x81#8 f 128 (fun _ l => l.elemBytes 0 32) noFlags s true

/-- The codes of a window narrowed to a format by RNE, with their flags (R231). -/
def Lane.narrowed (l : Lane) (win : BitVec 2) (fmt : Fmt) : List (Nat × Flags) :=
  (List.range (windowOf win).2).map fun i => formFloat (f32 (l.st.elem ((windowOf win).1 + i))) fmt .zero

/-- Codes packed in containers of `c` bits, the first lowest (R139). -/
def packCodes (c : Nat) (codes : List (Nat × Flags)) : List Byte :=
  leBytes (codes.length * c / 8) (packFields (codes.map fun x => (x.1, c)))

/-- The flags of a list of codes. -/
def codeFlags (codes : List (Nat × Flags)) : Flags := codes.foldl (fun f x => f.or x.2) {}

/-- ST_BF16V (R231): Store a window narrowed to BF16. -/
def execStBf16v (f : MemFields) (s : State) : Out :=
  store 0x82#8 f (2 * (windowOf f.win).2) (fun _ l => packCodes 16 (l.narrowed f.win bf16)) (fun _ l => codeFlags (l.narrowed f.win bf16)) s true

/-- ST_NFV (R231): Store a window narrowed to nfK; the unused bits of every container are zero. -/
def execStNfv (f : MemFields) (s : State) : Out :=
  let own (c : Nat) (l : Lane) : Word := l.g.nfAt c (f.d.toNat % 8)
  access (.mem 0x83#8 f)
    { g := f.g, seg := f.seg, addr := f.word, size := 0, aligned := ordered f.word, faults := true, writesAcc := false, vec := true }
    (fun c l => .store (packCodes (containerBits (own c l)) (l.narrowed f.win (Fmt.ofReg (own c l)))))
    (fun c l => codeFlags (l.narrowed f.win (Fmt.ofReg (own c l)))) s (codesSize f)

/-! ## Short forms (R99, R100): SEG 0, WIN 00, D 0, no address word -/

/-- The access of a short form. -/
def shortSpec (g : BitVec 6) (size : Nat) (writesAcc : Bool) : AccSpec :=
  { g := g, seg := 0, addr := .zero, size := size, aligned := false, faults := true, writesAcc := writesAcc, vec := size == 64 }

/-- S_LD_B32 (R100): Short ld.b32 e0, [gN]. -/
def execSLdB32 (g : BitVec 6) (w : BitVec 3) (s : State) : Out :=
  access (.short 0x25#6 g w) (shortSpec g 4 true) (fun _ _ => .load (.scalar 4 false 0)) noFlags s
/-- S_ST_B32 (R100): Short st.b32 e0, [gN]. -/
def execSStB32 (g : BitVec 6) (w : BitVec 3) (s : State) : Out :=
  access (.short 0x26#6 g w) (shortSpec g 4 false) (fun _ l => .store (l.elemBytes 0 1)) noFlags s
/-- S_LD_V16 (R100): Short ld.v16 lo, [gN]. -/
def execSLdV16 (g : BitVec 6) (w : BitVec 3) (s : State) : Out :=
  access (.short 0x27#6 g w) (shortSpec g 64 true) (fun _ _ => .load (.words 0 16)) noFlags s
/-- S_ST_V16 (R100): Short st.v16 lo, [gN]. -/
def execSStV16 (g : BitVec 6) (w : BitVec 3) (s : State) : Out :=
  access (.short 0x28#6 g w) (shortSpec g 64 false) (fun _ l => .store (l.elemBytes 0 16)) noFlags s
/-- S_LD_B64 (R100): Short ld.b64 e0, [gN]. -/
def execSLdB64 (g : BitVec 6) (w : BitVec 3) (s : State) : Out :=
  access (.short 0x29#6 g w) (shortSpec g 8 true) (fun _ _ => .load (.pair 0)) noFlags s
/-- S_ST_B64 (R100): Short st.b64 e0, [gN]. -/
def execSStB64 (g : BitVec 6) (w : BitVec 3) (s : State) : Out :=
  access (.short 0x2A#6 g w) (shortSpec g 8 false) (fun _ l => .store (l.elemBytes 0 2)) noFlags s

/-! ## Prefetch and write-back (R234, R235) -/

/-- A prefetch or write-back: no element, and no fault at issue. -/
def lineHint (op : BitVec 8) (f : MemFields) (kind : AccKind) (s : State) : Out :=
  access (.mem op f) { g := f.g, seg := f.seg, addr := f.word, size := 1, aligned := false, faults := false, writesAcc := false }
    (fun _ _ => kind) noFlags s

/-- PF (R234): Prefetch a line into L2 and L1. -/
def execPf (f : MemFields) (s : State) : Out := lineHint 0x7A#8 f (.prefetch false) s
/-- PF_L2 (R234): Prefetch a line into L2 only. -/
def execPfL2 (f : MemFields) (s : State) : Out := lineHint 0x7A#8 f (.prefetch true) s
/-- CWB (R235): Write back a dirty L1 line to its home. -/
def execCwb (f : MemFields) (s : State) : Out := lineHint 0x8B#8 f (.writeBack (f.word.hint == .keep)) s

/-! ## Atomics and reductions (R236 to R240) -/

/-- An atomic or reduction of `bytes` bytes; `form` is where the old value goes, none for a reduction (R237). -/
def atomic (op : BitVec 8) (aop : BitVec 4) (f : AtomFields) (bytes : Nat) (rmw : Lane → RmwOp × Word) (form : Option LoadForm) (s : State) :
    Out :=
  access (.atom op aop f)
    { g := f.g, seg := f.seg, addr := f.word, size := bytes, aligned := true, faults := true, writesAcc := form.isSome }
    (fun _ l => .rmw (rmw l).1 (rmw l).2 form) noFlags s

/-- `atom`: v = e[D], the old word to e[D] (R237). -/
def atomInt (aop : BitVec 4) (op : AtomOp) (f : AtomFields) (s : State) : Out :=
  atomic 0x84#8 aop f 4 (fun l => (.int op, l.st.elem f.d.toNat)) (some (.old f.d.toNat 1)) s
/-- `red`: v = e[D], nothing returned (R237). -/
def redInt (aop : BitVec 4) (op : AtomOp) (f : AtomFields) (s : State) : Out :=
  atomic 0x88#8 aop f 4 (fun l => (.int op, l.st.elem f.d.toNat)) none s
/-- `atomf`, `redf` (R238). -/
def atomFloat (op : BitVec 8) (aop : BitVec 4) (r : RmwOp) (returns : Bool) (f : AtomFields) (s : State) : Out :=
  atomic op aop f 4 (fun l => (r, l.st.elem f.d.toNat)) (if returns then some (.old f.d.toNat 1) else none) s

/-- ATOM_ADD (R237): Atomic add returning the old word. -/
def execAtomAdd (f : AtomFields) (s : State) : Out := atomInt 0 .add f s
/-- ATOM_AND (R237): Atomic and returning the old word. -/
def execAtomAnd (f : AtomFields) (s : State) : Out := atomInt 1 .and f s
/-- ATOM_OR (R237): Atomic or returning the old word. -/
def execAtomOr (f : AtomFields) (s : State) : Out := atomInt 2 .or f s
/-- ATOM_XOR (R237): Atomic xor returning the old word. -/
def execAtomXor (f : AtomFields) (s : State) : Out := atomInt 3 .xor f s
/-- ATOM_MINS (R237): Atomic signed minimum. -/
def execAtomMins (f : AtomFields) (s : State) : Out := atomInt 4 .mins f s
/-- ATOM_MAXS (R237): Atomic signed maximum. -/
def execAtomMaxs (f : AtomFields) (s : State) : Out := atomInt 5 .maxs f s
/-- ATOM_MINN (R237): Atomic unsigned minimum. -/
def execAtomMinn (f : AtomFields) (s : State) : Out := atomInt 6 .minn f s
/-- ATOM_MAXN (R237): Atomic unsigned maximum. -/
def execAtomMaxn (f : AtomFields) (s : State) : Out := atomInt 7 .maxn f s
/-- ATOM_XCHG (R237): Atomic exchange. -/
def execAtomXchg (f : AtomFields) (s : State) : Out := atomInt 8 .xchg f s
/-- ATOMF_ADD (R238): Atomic FP32 add returning the old pattern. -/
def execAtomfAdd (f : AtomFields) (s : State) : Out := atomFloat 0x85#8 0 .fadd true f s
/-- ATOMF_MIN (R238): Atomic FP32 minimum. -/
def execAtomfMin (f : AtomFields) (s : State) : Out := atomFloat 0x85#8 1 .fmin true f s
/-- ATOMF_MAX (R238): Atomic FP32 maximum. -/
def execAtomfMax (f : AtomFields) (s : State) : Out := atomFloat 0x85#8 2 .fmax true f s
/-- CAS (R240): 32-bit compare-and-swap. -/
def execCas (f : AtomFields) (s : State) : Out :=
  atomic 0x86#8 0 f 4 (fun l => (.cas (l.st.elem f.d.toNat).toNat (l.st.elem (f.d.toNat + 1)).toNat 4, 0)) (some (.old f.d.toNat 1)) s
/-- CAS64 (R240): 64-bit compare-and-swap. -/
def execCas64 (f : AtomFields) (s : State) : Out :=
  atomic 0x87#8 0 f 8 (fun l =>
    let d := f.d.toNat
    (.cas ((l.st.elem d).toNat + 2 ^ 32 * (l.st.elem (d + 1)).toNat) ((l.st.elem (d + 2)).toNat + 2 ^ 32 * (l.st.elem (d + 3)).toNat) 8, 0))
    (some (.old f.d.toNat 2)) s
/-- RED_ADD (R237): Reduction add, no return. -/
def execRedAdd (f : AtomFields) (s : State) : Out := redInt 0 .add f s
/-- RED_AND (R237): Reduction and. -/
def execRedAnd (f : AtomFields) (s : State) : Out := redInt 1 .and f s
/-- RED_OR (R237): Reduction or. -/
def execRedOr (f : AtomFields) (s : State) : Out := redInt 2 .or f s
/-- RED_XOR (R237): Reduction xor. -/
def execRedXor (f : AtomFields) (s : State) : Out := redInt 3 .xor f s
/-- RED_MINS (R237): Reduction signed minimum. -/
def execRedMins (f : AtomFields) (s : State) : Out := redInt 4 .mins f s
/-- RED_MAXS (R237): Reduction signed maximum. -/
def execRedMaxs (f : AtomFields) (s : State) : Out := redInt 5 .maxs f s
/-- RED_MINN (R237): Reduction unsigned minimum. -/
def execRedMinn (f : AtomFields) (s : State) : Out := redInt 6 .minn f s
/-- RED_MAXN (R237): Reduction unsigned maximum. -/
def execRedMaxn (f : AtomFields) (s : State) : Out := redInt 7 .maxn f s
/-- REDF_ADD (R238): FP32 reduction add. -/
def execRedfAdd (f : AtomFields) (s : State) : Out := atomFloat 0x89#8 0 .fadd false f s
/-- REDF_MIN (R238): FP32 reduction minimum. -/
def execRedfMin (f : AtomFields) (s : State) : Out := atomFloat 0x89#8 1 .fmin false f s
/-- REDF_MAX (R238): FP32 reduction maximum. -/
def execRedfMax (f : AtomFields) (s : State) : Out := atomFloat 0x89#8 2 .fmax false f s
/-- REDF_ORD (R239): Fixed-order FP32 add, logged under FIXED_ORDER. -/
def execRedfOrd (f : AtomFields) (s : State) : Out := atomFloat 0x89#8 3 .ord false f s

end Sys2Proof.Machine
end

