-- ==== Sys2Proof/Machine/Perform.lean ====
section
/-! DEFINITION. What becomes of an access after its issue: 11_memory_insts R227 to R240; 10_memory R205, R213 to R221; 16_consistency R322,
R334; 17_coherence R339, R354, R355; 20_interrupts R369. -/

namespace Sys2Proof.Machine

/-! ## Fault records (R219) -/

/-- LAUNCHID of a launch block (R78). -/
def Launch.id (l : Launch) : Nat := numAt l.block 248 4
/-- LAUNCHID of a column's launch. -/
def State.launchIdOf (s : State) (n : Nat) : Nat := match s.launch? n with | some l => l.id | none => 0

/-- The 32 bytes of a fault record (R219). -/
def FaultRec.bytes (f : FaultRec) (launchId : Nat) : List Byte :=
  leBytes 32 (packFields [(f.va.toNat, 57), (0, 7), (f.fid, 32), (f.cause, 4), (f.access, 4), (f.refault, 2),
    (if f.refault = 3 then 1 else 0, 1), (0, 21), (launchId, 32), (f.col.col, 32), (0, 64)])

/-- Writes a context's records that are not in the ring yet, in order, as far as the ring has room (R219). -/
def State.writeRecords (s : State) (ctx : Nat) : List FaultRec → State
  | [] => s
  | f :: rest =>
    if f.ctx != ctx || f.written then s.writeRecords ctx rest
    else
      match s.ringPut ctx ringFault (f.bytes (s.launchIdOf f.col.launch)) with
      | none => s
      | some s => { s with faults := updWhere (fun x => x.ctx == ctx && x.fid == f.fid) (fun x => { x with written := true }) s.faults }
          |>.writeRecords ctx rest

/-- Refaults so far on a page by a column: the most that a record of it has counted, resolved or not (R219, log 125). -/
def State.refaults (s : State) (col : ColId) (page : Nat) : Nat :=
  let gone := s.refaulted.filterMap fun x => if x.1 == col && x.2.1 == page then some x.2.2 else none
  ((s.faults.filter fun f => f.col == col && f.page == page).map (·.refault) ++ gone).foldl max 0

/-- The record of a fault for a column, page and cause: the one that stands, or a new one, which counts as a missing page (R219, R220);
`g` is the group whose stage writes it. Access kinds: 0 load, 1 store, 2 atomic, 3 fetch, 4 teller, 5 copy. -/
def State.record (s : State) (g : GroupId) (ctx : Nat) (va : Nat) (cause access : Nat) (w : Want) : Nat × State :=
  let col := g.column
  match s.faults.find? fun f => f.col == col && f.page == va / 4096 && f.cause == cause with
  | some f =>
    let join (x : FaultRec) : FaultRec := { x with rd := x.rd || w.rd, wr := x.wr || w.wr, ex := x.ex || w.ex }
    (f.fid, { s with faults := updWhere (fun x => x.ctx == f.ctx && x.fid == f.fid) join s.faults })
  | none =>
    let fid := (s.ctxAt ctx).faultId
    let f : FaultRec :=
      { fid := fid.toNat, ctx := ctx, col := col, page := va / 4096, cause := cause, access := access,
        refault := s.refaults col (va / 4096), va := BitVec.ofNat 64 va, written := false, stage := g.stage, rd := w.rd, wr := w.wr,
        ex := w.ex, replay := [] }
    let s := { s with faults := s.faults ++ [f] }.modCtx ctx fun c => { c with faultId := c.faultId + 1 }
    let s := s.modColumn col fun c => { c with missing := c.missing + 1 }
    let s := { s with saved := updWhere (·.id == col) (fun c => { c with missing := c.missing + 1 }) s.saved }
    (fid.toNat, s.writeRecords ctx s.faults)

/-- A strand parks on a record, one that has ended since too; one that is parked already stays on its record (R219). -/
def Strand.park (st : Strand) (fid : Nat) : Strand :=
  match st.state with | .parked _ => st | _ => { st with state := .parked fid }

/-! ## What an access is -/

/-- The access of R219's record. -/
def Acc.accessCode (a : Acc) : Nat := match a.kind with | .store _ => 1 | .rmw _ _ _ => 2 | _ => 0
/-- What it needs of a leaf (R216). -/
def Acc.want (a : Acc) : Want :=
  match a.kind with | .store _ => .store | .rmw _ _ _ => .atomic | .writeBack _ => {} | _ => .load
/-- It executes at the home or beyond: a device- or system-scope atomic or reduction (R236). -/
def Acc.atHome (a : Acc) : Bool := a.isRmw && !a.seg7 && a.scope != .grp
/-- It needs its L1 line exclusively: a store that allocates, a group-scope atomic (R205, R236). -/
def Acc.exclusive (a : Acc) : Bool := a.writes && !a.atHome
/-- A store that misses is forwarded to the L2 (R205). -/
def Acc.streams (a : Acc) : Bool := a.hint == .stream
/-- Only the L2 is to hold the line (R234). -/
def Acc.l2Only (a : Acc) : Bool := match a.kind with | .prefetch o => o | _ => false
/-- A write-back (R235). -/
def Acc.isWriteBack (a : Acc) : Bool := match a.kind with | .writeBack _ => true | _ => false
/-- It returns something to its accumulator (R225). -/
def Acc.returns (a : Acc) : Bool := match a.kind with | .load _ => true | .rmw _ _ (some _) => true | _ => false
/-- The level of a scope: group 1, device 2, system 3 (R241). -/
def levelOf (x : Scope) : Nat := match x with | .grp => 1 | .dev => 2 | .sys => 3
/-- It is still to be performed: not performed, parked or faulted. -/
def Acc.isOpen (a : Acc) : Bool := a.st == .open_
/-- It is parked (R219). -/
def Acc.isParked (a : Acc) : Bool := match a.st with | .parked _ => true | _ => false
/-- It has faulted, its fault not yet delivered (R369). -/
def Acc.isFaulted (a : Acc) : Bool := match a.st with | .faulted _ _ => true | _ => false

/-- Two accesses have a byte in common. -/
def Acc.overlaps (a b : Acc) : Bool :=
  a.core == b.core && a.seg7 == b.seg7 && decide (a.va.toNat < b.va.toNat + b.size ∧ b.va.toNat < a.va.toNat + a.size)
/-- Two accesses touch a line in common. -/
def Acc.sharesLine (a b : Acc) : Bool :=
  decide (a.va.toNat / 128 ≤ (b.va.toNat + b.size - 1) / 128 ∧ b.va.toNat / 128 ≤ (a.va.toNat + a.size - 1) / 128)

/-- A store, atomic, reduction or `cwb`: what changes a line at its home (R322). -/
def Acc.toHome (a : Acc) : Bool := !a.seg7 && (a.writes || a.isWriteBack)
/-- `b` counts as issued before `a` on their core: on an earlier cycle, or in the same bundle or strand before it (R129, R334). -/
def Acc.issuedBefore (b a : Acc) : Bool :=
  decide (b.since < a.since)
    || (decide (b.id < a.id) && (b.bundle == a.bundle || (b.gid == a.gid && b.tid == a.tid && b.n == a.n)))

/-- `b` holds `a` back: a conflicting access before it in strand order (R30) or by a barrier (R244), or of a lower lane of its bundle
(R129, R240); an earlier write or `cwb` of its core to a line of its own (R322, R334); a store of its core whose bytes the L1 holds and
that `a` would write over or pass by; for a release, any access before it in strand order (R233); for a write, what a fence before it releases
(R241, R325). -/
def Acc.heldBy (a b : Acc) : Bool :=
  let prior := (a.gid == b.gid && a.tid == b.tid && b.precedes a.know) || a.after.contains b.id
  let conflict := a.overlaps b && (a.writes || b.writes)
  b.id != a.id && !b.isPrefetch &&
    ((conflict && b.level == 0 && (prior || (b.bundle == a.bundle && decide (b.id < a.id) && b.isOpen)))
      || (conflict && b.inL1 && b.asid == a.asid && (a.writes || a.atHome))
      || (a.toHome && b.toHome && (b.isOpen || b.inL1) && b.issuedBefore a && a.core == b.core && a.sharesLine b)
      || ((a.order == .release || a.order == .acqRel) && prior && decide (b.level < levelOf a.scope))
      || (a.writes && a.fenced.any fun x => x.1 == b.id && decide (b.level < x.2)))
/-- Nothing holds the access back. -/
def State.mayPerform (s : State) (a : Acc) : Bool := s.accs.all fun b => !a.heldBy b

/-! ## What an access needs next -/

/-- Checked once for all, so that no check stops it any more: a unit of it is performed, or its core's L1 holds it (R228, R335, R340). -/
def Acc.committed (a : Acc) : Bool := a.inL1 || !a.units.isEmpty
/-- The translation that serves an address of an access: one it has kept, or its controller's TLB's (R213, R228). -/
def State.entryFor (s : State) (a : Acc) (va : Nat) : Option TlbEntry :=
  (a.pins.find? fun e => va / 2 ^ e.bits == e.base / 2 ^ e.bits).orElse fun _ => s.tlb? (controllerOf va) a.asid va

/-- What must come about before a part of an access can be performed; `host` asks the host for ownership, `await` waits for it. -/
inductive Need where
  | ok | readMiss | writeMiss | translate | walk | host | await
  | fault (cls code : Nat)
  deriving DecidableEq, Repr

/-- Steps 4 and 5 of R228: page type, then a frozen line or an unpublished shadow; class and code of the fault (R46, R229). -/
def State.pageFault (s : State) (a : Acc) (typ : PageType) (va : Nat) : Option (Nat × Nat) :=
  if a.committed then none
  else if typ == .host && !Config.available 6 then some (4, 13)
  else if a.isRmw && a.scope == .grp && (typ == .host || typ == .remote) then some (4, 4)
  else if a.writes && typ == .wstore then some (4, 5)
  else if (match a.kind with | .rmw .ord _ _ => true | _ => false) && typ != .local then some (4, 7)
  else if a.writes && s.frozenLine a.asid (va / 128) then some (4, 1)
  else if (s.pairOfShd? a.ctx va).isSome then some (4, 2)
  else none

/-- A frame of LPDDR-5X is in host bias (R352). -/
def State.hostBias (s : State) (p : Place) : Bool := match p with | .lpddr pa => s.bias.contains (pa / 4096) | _ => false
/-- Accesses of the place go uncached: another chip's memory outside frozen ranges, a page in host bias (R207, R352), and the reads of a
line whose thaw runs (R349). -/
def State.uncached (s : State) (asid line : Nat) (p : Place) (load : Bool) : Bool :=
  match p with
  | .remote _ _ _ => (s.cloudTag asid line).isNone
  | .lpddr _ => s.hostBias p || (load && s.noAlloc asid line)
  | _ => load && s.noAlloc asid line

/-- What the part of an access at `va` needs (R205, R213, R217, R228, R339). -/
def State.pieceNeed (s : State) (a : Acc) (va : Nat) : Need :=
  if 2 ^ 57 ≤ va then .walk
  else if s.heldVa a.ctx va then .await
  else
    let denies (p : Perm) : Bool := !a.committed && (!p.allows a.want || s.notOwner a.ctx va (some a.core))
    match (if a.atHome then none else s.l1? a.core a.asid (va / 128)) with
    | some l =>
      if denies l.perm then .walk
      else
        match s.pageFault a l.perm.typ va with
        | some (c, d) => .fault c d
        | none => if a.exclusive && !(l.perm.swm || l.st == .e || l.st == .m) then (if s.writable l.place then .writeMiss else if s.asked l.key then .await else .host) else .ok
    | none =>
      match s.l2? a.asid (va / 128) with
      | some h =>
        if denies h.perm then .walk
        else
          match s.pageFault a h.perm.typ va with
          | some (c, d) => .fault c d
          | none =>
            let port := a.atHome && a.scope == .sys && h.perm.typ == .host
            if s.asked h.key then .await
            else if a.writes && !port && !s.writable h.place then .host
            else if a.atHome || a.l2Only then .ok
            else if a.exclusive then (if a.streams then .ok else .writeMiss)
            else if a.streams || s.noAlloc a.asid (va / 128) then .ok
            else .readMiss
      | none =>
        match s.entryFor a va with
        | none => .walk
        | some e =>
          if denies e.perm || (!a.committed && s.remoteFaults (e.placeAt va)) then .walk
          else
            match s.pageFault a e.perm.typ va with
            | some (c, d) => .fault c d
            | none =>
              let p := e.placeAt va
              if s.uncached a.asid (va / 128) p (!a.writes) then
                match p with
                | .remote chip _ _ => if a.isPrefetch || s.routed chip va then .ok else .await
                | _ => .ok
              else if s.asked (e.key va) then .await
              else if a.atHome && a.scope == .sys && e.perm.typ == .host then .ok
              else .translate

/-- The parts of an access. -/
def Acc.pieces (a : Acc) : List (Nat × Nat) := linePieces a.va.toNat a.size

/-- A fault of step 5 of R228: a frozen line, an unpublished shadow. -/
def atStep5 (code : Nat) : Bool := code == 1 || code == 2
/-- The order in which needs are met: translations first, then the faults of step 4, those of step 5, and fills (R228). -/
def Need.rank (n : Need) : Nat :=
  match n with
  | .walk => 0
  | .fault _ d => if atStep5 d then 2 else 1
  | .translate => 3
  | .host => 4
  | .await => 5
  | .readMiss => 6
  | .writeMiss => 7
  | .ok => 8

/-- What an access needs next, and where: of its parts' needs the first in the order above; a `cwb` and an access of the scratchpad
need nothing (R204, R235). -/
def State.accNeed (s : State) (a : Acc) : Need × Nat :=
  if a.seg7 || a.isWriteBack then (.ok, a.va.toNat)
  else
    a.pieces.foldl (fun (best : Need × Nat) p =>
      let n := s.pieceNeed a p.1
      if n.rank < best.1.rank then (n, p.1) else best) (.ok, a.va.toNat)

/-- An access that can come to anything now: still open, or a store whose upgrade is not granted, its group on a core. -/
def State.openAcc? (s : State) (id : Nat) : Option Acc :=
  match s.acc? id with
  | some a => if (a.isOpen || a.inL1) && (s.group? a.gid).isSome then some a else none
  | none => none

/-! ## Removing, parking and faulting -/

/-- An access leaves. -/
def State.dropAcc (s : State) (id : Nat) : State := { s with accs := s.accs.filter (·.id != id) }

/-- An access meets a memory-model fault, which is on its way to the core; a prefetch is discarded (R228, R234). -/
def State.faultAcc (s : State) (a : Acc) (cls code : Nat) : State :=
  if a.isPrefetch then s.dropAcc a.id else s.modAcc a.id fun a => { a with st := .faulted cls code }

/-- An access parks with its strand; a prefetch is discarded (R219, R234). -/
def State.parkAcc (s : State) (a : Acc) (cause va : Nat) : State :=
  if a.isPrefetch then s.dropAcc a.id
  else
    let (fid, s) := s.record a.gid a.ctx va cause a.accessCode a.want
    (s.modAcc a.id fun a => { a with st := .parked fid }).modStrand a.gid a.tid a.n (·.park fid)

/-! ## Performing (R227, R236 to R240) -/

/-- Where a part of an access is served: the core's L1 line, the home's copy, or memory itself, which a system-scope atomic on a host
page reaches past a cached line (R236). -/
inductive Spot where
  | l1 (k : LineKey)
  | home (k : LineKey)
  | memory (p : Place)
  | port (k : LineKey) (p : Place)
  deriving DecidableEq, Repr

/-- The spot of a part that needs nothing more. -/
def State.spot (s : State) (a : Acc) (va : Nat) : Option Spot :=
  match (if a.atHome then none else s.l1? a.core a.asid (va / 128)) with
  | some l => some (.l1 l.key)
  | none =>
    match s.l2? a.asid (va / 128) with
    | some h => some (if a.atHome && a.scope == .sys && h.perm.typ == .host then .port h.key (h.place.add (va % 128)) else .home h.key)
    | none => (s.entryFor a va).map fun e => .memory (e.placeAt va)

/-- The type of a hotness record (R222). -/
def Acc.hotType (a : Acc) : Nat := match a.kind with | .store _ => 1 | .rmw _ _ _ => 2 | _ => 0
/-- The agent of an access (R397). -/
def Acc.reader (a : Acc) : Reader := { col := a.gid.col, stage := a.gid.stage, tid := a.tid, strand := a.n }

/-- Bytes at an address as a core's agents see them when its L1 holds a store over them, but for its units that are at their home (R241,
R340). -/
def Acc.over (a : Acc) (va : Nat) (bs : List Byte) : List Byte :=
  match a.kind with
  | .store new => bs.zipIdx.map fun b =>
      let x := va + b.2
      if a.va.toNat ≤ x ∧ (a.unitsLeft.any fun u => decide (u.1 ≤ x - a.va.toNat ∧ x - a.va.toNat < u.1 + u.2)) then
        new.getD (x - a.va.toNat) b.1
      else b.1
  | _ => bs
/-- Bytes that a core reads, the stores that its L1 holds taken in, in order. -/
def State.forwarded (s : State) (core asid va : Nat) (bs : List Byte) : List Byte :=
  (s.accs.filter fun b => b.inL1 && b.core == core && b.asid == asid).foldl (fun bs b => b.over va bs) bs

/-- Reads a part at its spot. -/
def State.readSpot (s : State) (a : Acc) (sp : Spot) (va n : Nat) : List Byte × State :=
  match sp with
  | .l1 k =>
    match s.l1.find? fun l => l.core == a.core && l.key == k with
    | some l => (s.forwarded a.core a.asid va (((lineBytes l.data).drop (va % 128)).take n), s.useL1 a.core k (a.hint == .keep))
    | none => (List.replicate n 0, s)
  | .home k => s.readSite (.l2 k) va n
  | .memory p => ((s.tlbUse a.asid va).hotSample a.ctx va a.core a.hotType p a.gid.launch (some a.reader)).readSite (.memory p) va n
  | .port k p => (s.evictL2 k).readSite (.memory p) va n

/-- Writes a part at its spot. -/
def State.writeSpot (s : State) (a : Acc) (sp : Spot) (va : Nat) (bs : List Byte) : State :=
  match sp with
  | .l1 k => (s.writeL1 a.core k (va % 128) bs).useL1 a.core k (a.hint == .keep)
  | .home k =>
    match s.l2Key? k with
    | some h => if h.perm.swm then s.modL2 k fun l => { l with data := lineWrite l.data (va % 128) bs, dirty := true }
                else s.writeL2 k (va % 128) bs
    | none => s
  | .memory p =>
    (if a.isRmw then s else (s.tlbUse a.asid va).hotSample a.ctx va a.core a.hotType p a.gid.launch (some a.reader)).writeSite (.memory p) va bs
  | .port _ p => s.writeSite (.memory p) va bs

/-- The LPDDR-5X address that does not exist which a spot reaches (R1). -/
def Spot.absent (sp : Spot) (n : Nat) : Option Nat :=
  match sp with | .memory p => p.absent n | _ => none

/-- The parts of an access with their spots; an access of the scratchpad and a `cwb` have none (R204, R235). -/
def State.spots (s : State) (a : Acc) : List (Spot × Nat × Nat) :=
  if a.seg7 || a.isWriteBack then []
  else a.pieces.filterMap fun p => (s.spot a p.1).map fun sp => (sp, p.1, p.2)

/-- Reads a whole access. -/
def State.readAcc (s : State) (a : Acc) : List Byte × State :=
  if a.seg7 then
    match s.group? a.gid with
    | some g => (s.mems.scratchRead a.core (g.wbase + a.va.toNat) a.size, s)
    | none => ([], s)
  else
    (s.spots a).foldl (fun (acc : List Byte × State) x => let p := acc.2.readSpot a x.1 x.2.1 x.2.2; (acc.1 ++ p.1, p.2)) ([], s)

/-- Writes a whole access. -/
def State.writeAcc (s : State) (a : Acc) (bs : List Byte) : State :=
  if a.seg7 then
    match s.group? a.gid with
    | some g => { s with mems := s.mems.scratchWrite a.core (g.wbase + a.va.toNat) bs }
    | none => s
  else (s.spots a).foldl (fun s x => s.writeSpot a x.1 x.2.1 ((bs.drop (x.2.1 - a.va.toNat)).take x.2.2)) s

/-- A unit of an access as an access of its own. -/
def Acc.unit (a : Acc) (off n : Nat) : Acc :=
  { a with va := a.va + BitVec.ofNat 64 off, size := n, kind := match a.kind with | .store bs => .store (slice bs off n) | k => k }
/-- The bytes of a load: those of the units read alone stand as they were read (R227). -/
def Acc.withUnits (a : Acc) (bs : List Byte) : List Byte := a.units.foldl (fun bs u => patch bs u.1 u.2) bs
/-- Writes what of a store has not been written alone (R227). -/
def State.writeRest (s : State) (a : Acc) (bs : List Byte) : State :=
  if a.units.isEmpty then s.writeAcc a bs
  else a.unitsLeft.foldl (fun s u => s.writeAcc (a.unit u.1 u.2) (slice bs u.1 u.2)) s

/-- The integer operations of R237. -/
def atomResult (op : AtomOp) (old v : Word) : Word :=
  match op with
  | .add => old + v
  | .and => old &&& v
  | .or => old ||| v
  | .xor => old ^^^ v
  | .mins => if old.toInt ≤ v.toInt then old else v
  | .maxs => if v.toInt ≤ old.toInt then old else v
  | .minn => if old.toNat ≤ v.toNat then old else v
  | .maxn => if v.toNat ≤ old.toNat then old else v
  | .xchg => v

/-- `fmin` or `fmax` of two patterns (R160, R238). -/
def minMaxF32 (larger : Bool) (a b : Word) : Word :=
  let x := if (f32 a).isNan || (f32 b).isNan then XVal.nan else Arith.pick larger (f32 a) (f32 b)
  BitVec.ofNat 32 (formFloat x fp32 .zero).1

/-- The bytes that an atomic, reduction or compare-and-swap leaves, from those it found (R237, R238, R240). A NaN or subnormal result of the
float operations is as R238 says; their flags are recorded nowhere. -/
def RmwOp.apply (op : RmwOp) (v : Word) (old : List Byte) : List Byte :=
  match op with
  | .int o => wordBytes (atomResult o (wordOf old) v)
  | .fadd | .ord => wordBytes (addF32 (wordOf old) v).1
  | .fmin => wordBytes (minMaxF32 false (wordOf old) v)
  | .fmax => wordBytes (minMaxF32 true (wordOf old) v)
  | .cas e n k => if leNat old = e then leBytes k n else old

/-- The request that has another chip's home execute an operation (R236, R238). -/
def RmwOp.remote (op : RmwOp) (v : Word) : RemoteKind :=
  match op with
  | .int o => .atom o v
  | .fadd | .ord => .float 0 v
  | .fmin => .float 1 v
  | .fmax => .float 2 v
  | .cas e n k => .cas e n k
/-- An atomic, reduction or compare-and-swap in one step at its place: the bytes found, and the state it leaves (R236). -/
def State.rmwAcc (s : State) (a : Acc) (op : RmwOp) (v : Word) : List Byte × State :=
  match s.spots a with
  | (.memory (.remote c i x), va, n) :: _ =>
    ((s.tlbUse a.asid va).hotSample a.ctx va a.core a.hotType (.remote c i x) a.gid.launch (some a.reader)).updateSite (.memory (.remote c i x)) va n
      (op.apply v) (some (op.remote v))
  | _ => let r := s.readAcc a; (r.1, r.2.writeAcc a (op.apply v r.1))

/-- Entries the fixed-order log holds (R239). -/
def ordLogSize : Nat := 4194304

/-- FIXED_ORDER of an access's launch (R78). -/
def State.fixedOrder (s : State) (a : Acc) : Bool := match s.group? a.gid with | some g => g.fixedOrder | none => false

/-- A `cwb` of an L1 line: dirty bytes go home, and the line is dropped or kept clean (R235). -/
def State.cwbLine (s : State) (a : Acc) (keep : Bool) : State :=
  match s.l1? a.core a.asid (a.va.toNat / 128) with
  | none => s
  | some l =>
    if keep then
      if l.dirty = 0 then s
      else
        let s := (s.writeBackL1 l).modL1 a.core l.key fun l => { l with dirty := 0, st := if l.st == .o then .s else .e }
        if !l.tracked then s
        else s.modL2 l.key fun h =>
          match h.dir with
          | .o => { h with dir := .s, sharers := if h.sharers.contains h.owner then h.sharers else h.owner :: h.sharers }
          | .m => { h with dir := .e }
          | _ => h
    else s.evictL1 l

/-- Performs an access that needs nothing more: its bytes are read, or written, or both as one step; what is owed afterwards is the return
to the accumulator, or the acknowledgement at system scope. -/
def State.performAcc (s : State) (a : Acc) : Res :=
  match (s.spots a).findSome? fun x => x.1.absent x.2.2 with
  | some pa => .error (.noSuchMemory pa)
  | none =>
    let done (s : State) (bs : List Byte) : State :=
      if a.returns then s.modAcc a.id fun a => { a with st := .performed 3, got := bs } else s.dropAcc a.id
    let written (s : State) : State :=
      if a.seg7 then s.dropAcc a.id else s.modAcc a.id fun a => { a with st := .performed 2 }
    match a.kind with
    | .prefetch _ =>
      let used := if a.seg7 then none else s.l1? a.core a.asid (a.va.toNat / 128)
      let s := match used with | some l => s.useL1 a.core l.key (a.hint == Hint.keep) | none => s
      .ok (s.dropAcc a.id)
    | .writeBack keep =>
      let dirty := match s.l1? a.core a.asid (a.va.toNat / 128) with | some l => l.dirty != 0 | none => false
      if a.seg7 then .ok (s.dropAcc a.id) else if dirty then .ok (written (s.cwbLine a keep)) else .ok ((s.cwbLine a keep).dropAcc a.id)
    | .load _ => let r := s.readAcc a; .ok (done r.2 (a.withUnits r.1))
    | .store bs => .ok (written (s.writeRest a bs))
    | .rmw op v _ =>
      if op == .ord && s.fixedOrder a then
        if ordLogSize ≤ s.ordLog.length then .ok (s.faultAcc a 10 9)
        else
          let e : OrdEntry := { launch := a.gid.launch, va := a.va.toNat, v := v, col := a.gid.col, stage := a.gid.stage, tid := a.tid,
                                seq := a.id, asid := a.asid }
          .ok ({ s with ordLog := s.ordLog ++ [e] }.dropAcc a.id)
      else
        let r := s.rmwAcc a op v
        .ok (done r.2 r.1)

/-- A store whose every part lies in an L1 line of its core, some of them S or O, reaches the L1 before its upgrade is granted (R241, R340);
a line of host memory only once the host has given up its halves (R354). -/
def State.reachesL1 (s : State) (a : Acc) : Bool :=
  a.isOpen && a.units.isEmpty && !a.seg7 && (match a.kind with | .store _ => true | _ => false) && s.mayPerform a
    && a.pieces.all fun p =>
      match s.l1? a.core a.asid (p.1 / 128) with
      | some l => l.tracked && s.writable l.place && l.perm.allows a.want && !s.heldVa a.ctx p.1 && (s.pageFault a l.perm.typ p.1).isNone
      | none => false

/-- The translations of an access that has passed its checks: its cached lines' own, or the TLB's (R217, R228). -/
def State.pinsOf (s : State) (a : Acc) : List TlbEntry :=
  if a.seg7 then []
  else a.pieces.filterMap fun p =>
    let pin (k : LineKey) (perm : Perm) (place : Place) : TlbEntry :=
      { ctrl := controllerOf p.1, base := p.1 / 128 * 128, bits := 7, asid := k.asid, perm := perm, place := place, mig := 0, stamp := 0 }
    match s.l2? a.asid (p.1 / 128) with
    | some h => some (pin h.key h.perm h.place)
    | none => s.tlb? (controllerOf p.1) a.asid p.1

/-- One unit of a load or store performed alone, once every page of the access is translated and its checks are passed, whose outcome it
then keeps (R227, R228). -/
def State.performUnit (s : State) (id k : Nat) : State :=
  match s.openAcc? id with
  | none => s
  | some a =>
    match a.unitList[k]? with
    | none => s
    | some (off, n) =>
      let u := a.unit off n
      let whole : Bool := match (s.accNeed a).1 with | .walk | .fault _ _ => false | _ => true
      let go := a.isOpen && decide (1 < a.unitList.length) && !a.units.any (·.1 == off) && whole && (s.accNeed u).1 == .ok && s.mayPerform u
        && ((s.spots u).findSome? fun x => x.1.absent x.2.2).isNone
      if !go then s
      else
        let s := if a.units.isEmpty then let pins := s.pinsOf a; s.modAcc id fun a => { a with pins := pins } else s
        match u.kind with
        | .load _ => let r := s.readAcc u; r.2.modAcc id fun a => { a with units := (off, r.1) :: a.units }
        | .store bs => (s.writeAcc u bs).modAcc id fun a => { a with units := (off, []) :: a.units }
        | _ => s

/-- Lines that a torn store is still to write are made writable: its core's copy in S or O is upgraded, a host line owned. -/
def State.claimLines (s : State) (a : Acc) : State :=
  a.pieces.foldl (fun s p =>
    match s.l2? a.asid (p.1 / 128) with
    | none => s
    | some h =>
      let s := match h.place with
        | .host hpa => if s.halvesOwned hpa then s else s.hostLine a.ctx h.key h.place h.perm hpa true
        | _ => s
      match s.l1? a.core a.asid (p.1 / 128) with
      | some l => if l.tracked && (l.st == .s || l.st == .o) then s.grantWrite a.core h.key l.keep else s
      | none => s) s
/-- An access some of whose units are performed: one admitted, which whatever stops or moves its lines waits for (R228, R344, R353). -/
def Acc.torn (a : Acc) : Bool := a.isOpen && !a.units.isEmpty
/-- The admitted accesses that `p` selects are performed to their end. -/
def State.finish (s : State) (p : Acc → Bool) : State :=
  (s.accs.filter fun a => p a && a.torn).foldl (fun s a =>
    match (if a.writes then s.claimLines a else s).performAcc a with
    | .ok s => s
    | .error _ => s) s
/-- Those of an ASID that touch a range of VA. -/
def Acc.within (a : Acc) (asid base len : Nat) : Bool :=
  !a.seg7 && a.asid == asid && decide (a.va.toNat < base + len ∧ base < a.va.toNat + a.size)

/-! ## The events (R205, R213, R216, R232, R339) -/

/-- The core of a miss takes the fault that steps 4 and 5 of R228 find. -/
def State.takeNeed (s : State) (id : Nat) (f : Acc → Need → Nat → Res) : Out :=
  match s.openAcc? id with
  | none => .next s
  | some a => let n := s.accNeed a; (f a n.1 n.2).out

/-- ACCESS_PERFORMED (R241, R332): An access performs at its scope. At group scope, a load, an access of the scratchpad or the L1 atomic
unit, a store that reaches an L1 line in S or O; at device scope, a store or a `cwb`; at system scope, the acknowledgement of one
performed at device scope. -/
def execAccessPerformed (acc : Nat) (scope : Scope) (s : State) : Out :=
  match scope with
  | .sys =>
    match s.acc? acc with
    | some a => if a.level = 2 then .next (s.dropAcc acc) else .next s
    | none => .next s
  | sc =>
    s.takeNeed acc fun a n _ =>
      let first : Scope := if a.seg7 || a.isRmw || !a.writes && !a.isWriteBack then .grp else .dev
      if n == .ok && !a.atHome && first == sc && s.mayPerform a then s.performAcc a
      else if sc == .grp && n != .ok && s.reachesL1 a then .ok (s.modAcc a.id fun a => { a with st := .performed 1 })
      else .ok s

/-- L1_READ_MISS (R339): Home serves an L1 read miss; the fault that the home finds stops the access (R228). -/
def execL1ReadMiss (acc : Nat) (s : State) : Out :=
  s.takeNeed acc fun a n va =>
    match n with
    | .readMiss =>
      match s.l2? a.asid (va / 128) with
      | some h => .ok (s.grantRead a.core h.key (a.hint == .keep))
      | none => .ok s
    | .fault c d => if a.writes then .ok s else .ok (s.faultAcc a c d)
    | _ => .ok s

/-- What an access asks the host for. -/
def Acc.hostReq (a : Acc) (k : LineKey) (p : Place) (perm : Perm) (own : Bool) : HostReq :=
  { key := k, ctx := a.ctx, asid := a.asid, own := own, place := p, perm := perm }

/-- L1_WRITE_MISS (R339): Home serves a write miss or upgrade, asking the host first for a line it does not own (R354); a write that
reaches a marked home faults (R336). -/
def execL1WriteMiss (acc : Nat) (s : State) : Out :=
  s.takeNeed acc fun a n va =>
    if a.atHome || !a.writes then .ok s
    else
      match n with
      | .writeMiss =>
        match s.l2? a.asid (va / 128) with
        | some h => .ok (s.grantWrite a.core h.key (a.hint == .keep))
        | none => .ok s
      | .host =>
        match s.l2? a.asid (va / 128) with
        | some h =>
          match h.place with
          | .host hpa => .ok (s.askHost (a.hostReq h.key h.place h.perm true) hpa)
          | _ => .ok s
        | none => .ok s
      | .fault c d => .ok (s.faultAcc a c d)
      | _ => .ok s

/-- HOME_ATOMIC (R333, R339): Device- or system-scope atomic executes at the home. -/
def execHomeAtomic (acc : Nat) (s : State) : Out :=
  s.takeNeed acc fun a n va =>
    if !a.atHome then .ok s
    else
      match n with
      | .ok => if s.mayPerform a then s.performAcc a else .ok s
      | .host =>
        match s.l2? a.asid (va / 128) with
        | some h =>
          match h.place with
          | .host hpa => .ok (s.askHost (a.hostReq h.key h.place h.perm true) hpa)
          | _ => .ok s
        | none => .ok s
      | .fault c d => .ok (s.faultAcc a c d)
      | _ => .ok s

/-- L2_MISS_TRANSLATE (R213): A miss reaches its controller's TLB and is translated and routed; the line enters its home slice, from memory,
from another chip, or once the host has answered. -/
def execL2MissTranslate (acc : Nat) (s : State) : Out :=
  s.takeNeed acc fun a n va =>
    match n with
    | .translate =>
      match s.entryFor a va with
      | none => .ok s
      | some e =>
        let line := va / 128 * 128
        let p := e.placeAt line
        match p.absent 128 with
        | some pa => .error (.noSuchMemory pa)
        | none =>
          let s := (s.tlbUse a.asid va).hotSample a.ctx va a.core a.hotType (e.placeAt va) a.gid.launch (some a.reader)
          match p with
          | .host hpa =>
            let r := a.hostReq (e.key va) p e.perm a.writes
            if s.hasHalves hpa a.writes then .ok (s.hostAnswer r hpa) else .ok (s.askHost r hpa)
          | p =>
            let r := s.readSite (.memory p) line 128
            .ok (r.2.fillL2 (e.key va) p e.perm (s.fillTag a.ctx a.asid (va / 128)) (lineOf r.1))
    | _ => .ok s

/-- Cached copies of a line that deny an access leave the core's L1 and the home (R217). -/
def State.dropDenying (s : State) (core asid va : Nat) (w : Want) : State :=
  let s := match s.l1? core asid (va / 128) with
    | some l => if l.perm.allows w then s else s.evictL1 l
    | none => s
  match s.l2? asid (va / 128) with
  | some h => if h.perm.allows w then s else s.evictL2 h.key
  | none => s

/-- PAGE_WALK_DONE (R216): A walk completes with a translation, which the TLB takes, or a fault cause, on which the access parks (R219). -/
def execPageWalkDone (acc : Nat) (s : State) : Out :=
  s.takeNeed acc fun a n va =>
    match n with
    | .walk =>
      let s := s.dropDenying a.core a.asid va a.want
      match s.walk a.ctx va a.want (some a.core) with
      | .absent pa => .error (.noSuchMemory pa)
      | .fault c => .ok (s.parkAcc a c va)
      | .leaf l => .ok (s.walked a.ctx va l)
    | _ => .ok s

/-- L1_EVICTION (R339): An L1 line is evicted and the home is told. -/
def execL1Eviction (core : Nat) (key : LineKey) (s : State) : Out :=
  match s.l1.find? fun l => l.core == core && l.key == key with
  | some l => .next (s.evictL1 l)
  | none => .next s

/-- L2_EVICTION (R339): An L2 line is evicted with its L1 copies. -/
def execL2Eviction (key : LineKey) (s : State) : Out := .next (s.evictL2 key)

/-- HOST_LINE_FILL (R355): The host answers a request for a line of host memory; what waited for the line goes on (R340). -/
def execHostLineFill (key : LineKey) (own : Bool) (s : State) : Out :=
  match s.hostReqs.find? fun r => r.key == key && r.own == own with
  | none => .next s
  | some r => match r.place with | .host hpa => .next (s.hostAnswer r hpa).releaseRecs | _ => .next s

/-! ## Returns and late faults (R225, R231, R232, R369) -/

/-- The elements and flags of a load's bytes (R230, R231). -/
def LoadForm.elements (f : LoadForm) (bs : List Byte) : List (Nat × Word) × Flags :=
  match f with
  | .scalar n signed d =>
    let v := leNat bs
    ([(d, if signed then (BitVec.ofNat (8 * n) v).signExtend 32 else BitVec.ofNat 32 v)], {})
  | .pair d => ([(d, wordOf (bs.take 4)), (d + 1, wordOf (bs.drop 4))], {})
  | .words first count => ((List.range count).map fun i => (first + i, wordOf (slice bs (4 * i) 4)), {})
  | .codes first count fmt =>
    let f : Fmt := match fmt with | none => bf16 | some w => Fmt.ofReg w
    let width := match fmt with | none => 16 | some w => (Fmt.ofReg w).container
    let outs := (List.range count).map fun i => formFloat (f.value (bits (leNat bs) (width * i) f.w)) fp32 .zero
    ((outs.zipIdx).map fun o => (first + o.2, BitVec.ofNat 32 o.1.1), outs.foldl (fun fl o => fl.or o.2) {})
  | .old d 1 => ([(d, wordOf bs)], {})
  | .old d _ => ([(d, wordOf (bs.take 4)), (d + 1, wordOf (bs.drop 4))], {})
  | .gen d => ([(d, wordOf bs)], {})

/-- Flags set in a strand by a write that lands on a cycle, which joins those of the same cycle (R149). -/
def Strand.setFlags (st : Strand) (cyc : Nat) (f : Flags) : Strand :=
  let prior := if st.freshAt == cyc then st.fresh else {}
  { st with flags := st.flags.or f, fresh := prior.or f, freshAt := cyc }

/-- A result reaches its accumulator; a finished strand's is discarded (R20). -/
def Strand.land (st : Strand) (cyc : Nat) (ws : List (Nat × Word)) (f : Flags) : Strand :=
  if st.ended then st else { st with e := setElems st.e ws }.setFlags cyc f

/-- What a performed access returns. -/
def Acc.result (a : Acc) : List (Nat × Word) × Flags :=
  match a.kind with
  | .load f => f.elements a.got
  | .rmw _ _ (some f) => f.elements a.got
  | _ => ([], {})

/-- The accesses of a bundle whose returns land now: all that are performed, once none of the bundle is still to be (R232). -/
def State.returning (s : State) (bundle : Nat) : List Acc :=
  if s.accs.any fun a => a.bundle == bundle && a.isOpen then []
  else s.accs.filter fun a => a.bundle == bundle && a.returns && a.level == 3

/-- LOAD_RETURN (R132, R232): The slowest thread's data arrives; elements and flags are written. -/
def execLoadReturn (bundle : Nat) (s : State) : Out :=
  let accs := s.returning bundle
  .next ({ s with accs := s.accs.filter fun a => !accs.contains a } |> fun s =>
    accs.foldl (fun s a =>
      let r := a.result
      let cyc := s.cycle a.core
      s.modStrand a.gid a.tid a.n fun st =>
        let st := st.land cyc r.1 r.2
        if st.varPend == some bundle then { st with varPend := none } else st) s)

/-- The coin that an instruction spent is given back (R25). -/
def Thread.giveBack (t : Thread) (coin : Option (Nat × GReg)) : Thread :=
  match coin with
  | none => t
  | some (g, r) => if r.c = 0 then t else t.setGreg g { t.greg g with val := r.val, p := true, c := (t.greg g).c + 1, w := r.w }

/-- Some instruction of the thread has issued after cycle `c` (R369). -/
def Thread.issuedAfter (t : Thread) (c : Nat) : Bool := t.strands.any fun st => decide (c + 1 < st.issuedAt)

/-- LATE_FAULT (R369): A fault found at steps 4 or 5 of R228 reaches the core, once every other access of its bundle is performed, parked
or faulted (R228): precise, with the coin given back, unless the thread has issued since. -/
def execLateFault (acc : Nat) (s : State) : Out :=
  match s.acc? acc with
  | none => .next s
  | some a =>
    match a.st with
    | .faulted cls code =>
      if s.accs.any fun b => b.bundle == a.bundle && b.isOpen then .next s
      else
        let late := match s.thread? a.gid a.tid with | some t => t.issuedAfter a.at_ | none => false
        let s := (s.dropAcc acc).modThread a.gid a.tid fun t =>
          let t := if late then t else t.giveBack a.coin
          t.modStrand a.n fun st =>
            { st with pc := if late then st.pc else a.pc, varPend := if st.varPend == some a.bundle then none else st.varPend }
        .next (s.takeTrap a.gid { Trap.ofStrand cls code a.gid a.tid a.n a.pc with va := if cls = 4 then a.va else 0, late := late, atIssue := !late })
    | _ => .next s

end Sys2Proof.Machine
end

