-- ==== Sys2Proof/Machine/Record.lean ====
section
/-! DEFINITION. Save records as bytes: 20_interrupts R370, R371, R377 to R383. -/

namespace Sys2Proof

/-- The code of a reason (R378). -/
def StopReason.code (r : StopReason) : Nat := match r with | .preempt => 0 | .switchOut => 1 | .trap => 2 | .quiesce => 3

end Sys2Proof

namespace Sys2Proof.Machine

/-! ## Bytes with the bits that the host may not change (R379, R383) -/

/-- A stretch of a record: its bytes, and for each byte the mask of its RO and reserved bits. -/
structure Part where
  bytes : List Byte
  ro : List Byte
  deriving DecidableEq, Repr

/-- `n` bytes of fields laid side by side: value, width, and whether the host may change it. -/
def Part.fields (n : Nat) (fs : List (Nat × Nat × Bool)) : Part :=
  { bytes := leBytes n (packFields (fs.map fun f => (f.1, f.2.1))),
    ro := leBytes n (packFields (fs.map fun f => (if f.2.2 then 0 else 2 ^ f.2.1 - 1, f.2.1))) }
/-- Bytes that the host may change. -/
def Part.free (bs : List Byte) : Part := { bytes := bs, ro := bs.map fun _ => 0 }
/-- Stretches one after the other. -/
def Part.join (ps : List Part) : Part := { bytes := ps.flatMap (·.bytes), ro := ps.flatMap (·.ro) }
/-- The next multiple of 256. -/
def pad256 (n : Nat) : Nat := (n + 255) / 256 * 256
/-- A stretch filled with zero bytes to a multiple of 256 (R378). -/
def Part.padded (p : Part) : Part :=
  let z := List.replicate (pad256 p.bytes.length - p.bytes.length) (0 : Byte)
  Part.join [p, .free z]
/-- The RO bits and their values, byte by byte (R383). -/
def Part.seal (p : Part) : List (Byte × Byte) := List.zipWith (fun b m => (m, b &&& m)) p.bytes p.ro
/-- The RO bits of a record are as they were written (R383). -/
def sealedBy (sealed : List (Byte × Byte)) (bs : List Byte) : Bool :=
  bs.length == sealed.length && (List.zipWith (fun (x : Byte × Byte) b => b &&& x.1 == x.2) sealed bs).all id

/-- A field of a record: `n` bits from bit `lo` of the stretch at byte `off`. -/
def fieldAt (bs : List Byte) (off lo n : Nat) : Nat := bits (numAt bs (off + lo / 8) ((lo % 8 + n + 7) / 8)) (lo % 8) n

/-- The numbers below `n` whose bits are set. -/
def setBits (n m : Nat) : List Nat := (List.range n).filter m.testBit

/-! ## The parts of a record that stand alone (R377 to R382) -/

/-- A barrier's entry (R377). -/
def Barrier.part (b : Barrier) : Part :=
  .fields 256 [(b.phase.toNat, 32, true), (b.cnt, 9, true), (b.expect, 10, true), (b.arrive, 10, true), (b.tarr.toNat, 1, true),
    (b.twait.toNat, 1, true), (0, 65, false), (bitSet b.arrived, 512, true), (bitSet b.waiting, 512, true), (bitSet b.left, 512, true),
    (0, 384, false)]
/-- A barrier from its entry at byte `off`; `order` is what precedes its phase's arrivals, and what it owes. -/
def Barrier.ofRecord (r : List Byte) (off : Nat) (order : List Nat × List (Nat × List Nat)) : Barrier :=
  { phase := BitVec.ofNat 32 (fieldAt r off 0 32), cnt := fieldAt r off 32 9, expect := fieldAt r off 41 10, arrive := fieldAt r off 51 10,
    tarr := fieldAt r off 61 1 == 1, twait := fieldAt r off 62 1 == 1, arrived := setBits 512 (fieldAt r off 128 512),
    waiting := setBits 512 (fieldAt r off 640 512), left := setBits 512 (fieldAt r off 1152 512),
    before := order.1, owed := order.2 }

/-- Addresses of a return stack, entry 0 oldest, in 8 entries (R380, R381). -/
def stackFields (st : List Addr) : List (Nat × Nat × Bool) := (List.range 8).map fun i => ((st.reverse.getD i 0).toNat, 64, true)
/-- A return stack from its 8 entries at bit `lo` and its depth. -/
def stackOf (r : List Byte) (off lo depth : Nat) : List Addr :=
  ((List.range depth).map fun i => BitVec.ofNat 64 (fieldAt r off (lo + 64 * i) 64)).reverse

/-- A thread's register block (R380). -/
def gregPart (rs : List GReg) : Part :=
  .fields 320 ((rs.map fun r => (r.val.toNat, 32, true)) ++
    rs.map fun r => (packFields [(r.p.toNat, 1), (r.c.toNat, 3), (r.w, 4)], 8, true))
/-- A thread's registers from its block; `prior` gives what precedes the `put` of each. -/
def gregsOf (r : List Byte) (off : Nat) (prior : Nat → List Nat × List Nat × List (Nat × Nat)) : List GReg :=
  (List.range 64).map fun i =>
    let b := fieldAt r off (2048 + 8 * i) 8
    { val := BitVec.ofNat 32 (fieldAt r off (32 * i) 32), p := bits b 0 1 == 1, c := BitVec.ofNat 3 (bits b 1 3), w := bits b 4 4,
      visible := 0, know := (prior i).1, after := (prior i).2.1, fenced := (prior i).2.2, pc := 0 }

/-- A deferred completion (R382). -/
def deferredEntry (sync evin stage n : Nat) : List Byte := leBytes 16 (packFields [(sync, 16), (evin, 4), (stage, 4), (0, 8), (n, 64)])

/-! ## Where a record lies (R371, R384) -/

/-- The address of a save slot. -/
def State.slotAddr (s : State) (ctx slot : Nat) : Nat := (s.ctxAt ctx).svbase.toNat + 2 ^ 22 * slot
/-- A saved column. -/
def State.savedCol? (s : State) (c : ColId) : Option SavedCol := s.saved.find? (·.id == c)
/-- Changes a saved column. -/
def State.modSaved (s : State) (c : ColId) (f : SavedCol → SavedCol) : State := { s with saved := updWhere (·.id == c) f s.saved }
/-- Bytes of a saved column's record: of its slot, or of the image area. -/
def State.recordAt (s : State) (c : SavedCol) (off n : Nat) : Except Denied (List Byte) :=
  match c.slot with
  | none => .ok (slice c.record off n)
  | some k => (s.vaRead c.ctx (s.slotAddr c.ctx k + off) n { shd := true }).map (·.1)
/-- The whole record of a saved column. -/
def State.recordOf? (s : State) (c : SavedCol) : Except Denied (List Byte) := s.recordAt c 0 c.sealed.length
/-- The numbers of entries of an engine section, and where each kind begins (R382). -/
structure EngineMap where
  ncmd : Nat
  nroute : Nat
  ngrp : Nat
  ntbl : Nat
  ndef : Nat
  cmdAt : Nat
  routeAt : Nat
  grpAt : Nat
  tblAt : Nat
  defAt : Nat
  /-- The byte behind its last entry. -/
  end_ : Nat
  deriving DecidableEq, Repr

/-- The engine section of a record. -/
def engineMap (r : List Byte) : EngineMap :=
  let e := fieldAt r 0 704 64
  let f := fieldAt r e
  let c := e + 16
  let rt := c + 128 * f 0 8
  let g := rt + 16 * f 8 8
  let t := g + 16 * f 16 4
  { ncmd := f 0 8, nroute := f 8 8, ngrp := f 16 4, ntbl := f 20 3, ndef := f 23 6, cmdAt := c, routeAt := rt, grpAt := g, tblAt := t,
    defAt := t + 272 * f 20 3, end_ := t + 272 * f 20 3 + 16 * f 23 6 }

/-- The RO bits of a saved column's record as the device wrote them, the others 0 (R383). -/
def SavedCol.ro (c : SavedCol) : List Byte := c.sealed.map (·.2)
/-- Bytes put into a list from place `off` on, which grows as it needs to. -/
def overlay {α : Type} (l : List α) (off : Nat) (new : List α) (z : α) : List α :=
  let l := l ++ List.replicate (off + new.length - l.length) z
  l.take off ++ new ++ l.drop (off + new.length)
/-- The device changes bytes of a saved column's record, all RO; a page whose requests are held takes them later, and a record that cannot
be written fails the check of R383. -/
def State.editRecord (s : State) (col : ColId) (off : Nat) (bs : List Byte) : State :=
  match s.savedCol? col with
  | none => s
  | some c =>
    let s := s.modSaved col fun x => { x with sealed := overlay x.sealed off (bs.map fun b => (0xFF, b)) (0, 0) }
    match c.slot with
    | none => s.modSaved col fun x => { x with record := overlay x.record off bs 0 }
    | some k => s.putBytes c.ctx (s.slotAddr c.ctx k + off) bs false

/-- The engine section of a saved column's record gets entries `bs` in place of those from byte `off` on, and a header that has `more` added
to it; the record grows with it (R382). -/
def State.editEngine (s : State) (c : SavedCol) (off : Nat) (bs : List Byte) (more : Nat) : State :=
  let r := c.ro
  let e := fieldAt r 0 704 64
  let len := max (fieldAt r 0 320 64) (pad256 (off + bs.length))
  let all := leBytes 16 (numAt r e 16 + more) ++ slice r (e + 16) (off - (e + 16)) ++ bs
  (s.editRecord c.id e (all ++ List.replicate (len - (e + all.length)) 0)).editRecord c.id 40 (leBytes 8 len)

/-- A COLLECT completion that arrives while its column is saved joins the record's engine section (R382). -/
def State.noteDeferred (s : State) (c : SavedCol) (sync evin stage n : Nat) : State :=
  s.editEngine c (engineMap c.ro).end_ (deferredEntry sync evin stage n) (2 ^ 23)

/-- The entry of a discarded command joins a saved column's record, behind those of its other commands (R290, R382). -/
def State.addCmd (s : State) (c : SavedCol) (cmd : Cmd) (entry : List Byte) : State :=
  let m := engineMap c.ro
  (s.editEngine c m.routeAt (entry ++ slice c.ro m.routeAt (m.end_ - m.routeAt)) 1).modSaved c.id fun x =>
    { x with entries := x.entries ++ [{ cmd := cmd, discarded := true }] }

/-- The strands that a record shows parked on a fault record: stage, TID, strand, the byte its entry begins at, PC (R380). -/
def parkedStrands (r : List Byte) (fid : Nat) : List (Nat × Nat × Nat × Nat × Addr) :=
  (List.range 4).flatMap fun stage =>
    let off := fieldAt r 0 (384 + 64 * stage) 64
    if off = 0 then []
    else
      let ns := setBits 16 (fieldAt r off 32 16)
      let th := fieldAt r off 1152 64
      (List.range (fieldAt r off 18 10)).flatMap fun tid => ns.zipIdx.filterMap fun n =>
        let at_ := th + tid * (320 + 256 * ns.length) + 320 + 256 * n.2
        if fieldAt r at_ 1032 2 = 2 ∧ fieldAt r at_ 1728 32 = fid then
          some (stage, tid, n.1, at_, BitVec.ofNat 64 (fieldAt r at_ 1088 64))
        else none
/-- Those of a saved column; where its record cannot be read, without their PCs. -/
def State.savedParked (s : State) (c : ColId) (fid : Nat) : List (Nat × Nat × Nat × Nat × Addr) :=
  match s.savedCol? c with
  | none => []
  | some c => match s.recordOf? c with | .ok r => parkedStrands r fid | .error _ => parkedStrands c.ro fid

/-- The trap fields of a group header (R379). -/
def Trap.fields (t : Trap) : List (Nat × Nat) :=
  [(t.cls, 4), (t.code, 13), (t.teller.toNat, 1), (t.engine.toNat, 1), (t.tid, 9), (t.strand, 4)]

/-- A saved column takes a trap: its record's REASON becomes 2 with the trap's TRAPSEQ, the command that the trap discards joins it with its
entry, and a notice with SAVED = 1 is owed; a column that holds a trap already is owed a further notice (R221 step 7, R290, R369). -/
def State.trapSavedCol (s : State) (c : SavedCol) (t : Trap) (cmd : Option (Cmd × List Byte)) : State :=
  let seq := (s.ctxAt c.ctx).trapSeq
  let s := s.modCtx c.ctx fun x => { x with trapSeq := x.trapSeq + 1 }
  let owe (x : SavedCol) : SavedCol := { x with owed := x.owed ++ [(t, seq, s.time)] }
  if c.reason == .trap && !c.placeable then s.modSaved c.id owe
  else
    let s := s.modSaved c.id fun x => { owe x with reason := .trap, trap := some t, trapSeq := seq, placeable := false }
    let s := s.editRecord c.id 24 (leBytes 1 (packFields [(fieldAt c.ro 0 192 3, 3), (2, 3), (0, 2)]))
    let s := s.editRecord c.id 32 (leBytes 4 seq.toNat)
    let off := fieldAt c.ro 0 (384 + 64 * t.stage) 64
    let s := if off = 0 then s else s.editRecord c.id (off + 20) (leBytes 4 (packFields t.fields))
    match cmd with | some x => s.addCmd c x.1 x.2 | none => s

/-! ## Trap notices (R370) -/

/-- The 64 bytes of a trap notice. -/
def Trap.notice (t : Trap) (launchId : Nat) (col : ColId) (slot : Option Nat) (seq : Word) (time : Nat) : List Byte :=
  let agent := !t.teller && !t.engine
  leBytes 64 (packFields [(t.cls, 4), (t.code, 13), (t.teller.toNat, 1), (t.engine.toNat, 1), (slot.isSome.toNat, 1), (t.late.toNat, 1),
    (0, 11), (launchId, 32), (col.col, 32), (t.stage, 2), (if agent then t.tid else 0, 9), (if agent then t.strand else 0, 4), (0, 17),
    (if t.engine then 0 else t.pc.toNat, 64), (if t.cls = 3 ∨ t.cls = 4 then t.va.toNat else 0, 64),
    (match slot with | some k => k | none => 0xFFFF, 16), (0, 16), (seq.toNat, 32), (time, 64), (0, 128)])

/-- Writes a trap notice to the context's trap ring; none while the ring is full, or disabled (R370, R412). -/
def State.putNotice (s : State) (ctx : Nat) (col : ColId) (t : Trap) (slot : Option Nat) (seq : Word) (time : Nat) : Option State :=
  s.ringPut ctx ringTrap (t.notice (s.launchIdOf col.launch) col slot seq time)

/-- The lowest free save slot of a context (R371). -/
def Ctx.freeSlot (c : Ctx) : Option Nat := (List.range (min 4096 (c.svslots.toNat % 8192))).find? fun k => !c.slots.contains k
/-- Save slots of a context that no stop on its way has claimed (R371). -/
def State.spareSlots (s : State) (ctx : Nat) : Nat :=
  let c := s.ctxAt ctx
  min 4096 (c.svslots.toNat % 8192) - c.slots.length
    - (s.columns.filter fun x => x.ctx == ctx && (match x.stop with | some st => st.slot.isNone | none => false)).length
/-- Takes or frees a save slot. -/
def State.takeSlot (s : State) (ctx k : Nat) : State := s.modCtx ctx fun c => { c with slots := k :: c.slots.filter (· != k) }
/-- Frees a save slot. -/
def State.freeSaveSlot (s : State) (ctx : Nat) (k : Option Nat) : State :=
  match k with
  | some k => s.modCtx ctx fun c => { c with slots := c.slots.filter (· != k) }
  | none => s

end Sys2Proof.Machine
end

