-- ==== Sys2Proof/Machine/Paging.lean ====
section
/-! DEFINITION. Sweeps, replay, page migration, refresh: 10_memory R209, R218, R221, R223, R224. -/

namespace Sys2Proof.Machine

/-- The leaf of a VA, of any permission. -/
def State.leafAt (s : State) (ctx va : Nat) : Option Leaf :=
  match walkFrom s.mems.lpddr (s.ctxAt ctx).asid va 4 (s.ctxAt ctx).root with | .leaf l => some l | _ => none
/-- Drops from every cache the lines of a VA range that an ASID reaches, after writing back, and the range from every TLB (R218). Accesses to
it that are under way are performed first. -/
def State.sweepRange (s : State) (asid base len : Nat) : State :=
  ((s.finish fun a => a.within asid base len).dropLines fun k _ _ => lineIn base len k.line && tagMatch k.asid asid).tlbDrop base len fun t => tagMatch t asid

/-- A request to the host for a line of a VA range that an ASID reaches has not been answered. -/
def State.hostBusy (s : State) (asid base len : Nat) : Bool :=
  s.hostReqs.any fun r => lineIn base len r.key.line && tagMatch r.key.asid asid

/-! ## Sweeps (R218) -/

/-- A host write that has reached the device is held, so that what the host writes after it waits (R218, R221). -/
def State.writesHeld (s : State) : Bool := s.heldHost.any fun a => match a with | .write _ _ => true | .read _ _ => false

/-- SWEEP (R218): A write to SWCTL queues a sweep; one that finds four queued is refused. -/
def execSweep (ctx : Nat) (v : BitVec 64) (s : State) : Out :=
  let pages := v.toNat % 2 ^ 32
  if !(s.ctxAt ctx).exist || pages == 0 || decide (2 ^ 20 < pages) then .next s
  else
    .next (s.modCtx ctx fun c =>
      if 4 ≤ c.sweeps.length then { c with swovf := true }
      else { c with sweeps := c.sweeps ++ [{ base := c.swbase.toNat / 4096 * 4096, pages := pages, glob := v.getLsbD 32,
                                                    behind := s.writesHeld }] })

/-- SWEEP_DONE (R218): The oldest sweep, once every host write before it is performed, drops the lines of its range, those of global
pages or those of the context's ASID, and the range's TLB and walk-cache entries; DONE increments once no request of the range translated before is with the host. -/
def execSweepDone (ctx : Nat) (s : State) : Out :=
  match (s.ctxAt ctx).sweeps with
  | [] => .next s
  | w :: rest =>
    if w.behind then .next s
    else
    let asid := (s.ctxAt ctx).asid
    let len := w.pages * 4096
    let s := (s.finish fun a => a.within asid w.base len).dropLines fun k _ _ => lineIn w.base len k.line && (if w.glob then k.asid.isNone else k.asid == some asid)
    let s := s.tlbDrop w.base len fun t => tagMatch t asid
    if s.hostBusy asid w.base len then .next s
    else .next (s.modCtx ctx fun c => { c with sweeps := rest, swDone := c.swDone + 1 })

/-! ## Replay (R221) -/

/-- PTSEQ_WRITE (R221): PTSEQ takes a value, once every host write that reached the device before is performed. -/
def execPtseqWrite (ctx : Nat) (v : Word) (s : State) : Out :=
  .next (if s.writesHeld then s.holdEvent (.ptseq ctx v) else s.modCtx ctx fun c => { c with ptseq := v })

/-- REPLAY (R221): A write to REPLAY names a record and joins the REPLAYs that wait for it; one without an unresolved record is ignored. -/
def execReplay (ctx : Nat) (v : BitVec 64) (s : State) : Out :=
  let ask (f : FaultRec) : FaultRec := { f with replay := f.replay ++ [v.extractLsb' 32 32] }
  .next { s with faults := updWhere (fun f => f.ctx == ctx && f.fid == v.toNat % 2 ^ 32) ask s.faults }

/-- A page's missing count falls by one, in its column wherever it is (R220, R221). -/
def State.foundPage (s : State) (col : ColId) : State :=
  let s := s.modColumn col fun c => { c with missing := c.missing - 1 }
  { s with saved := updWhere (·.id == col) (fun c => { c with missing := c.missing - 1 }) s.saved }

/-- A strand parked on a record goes on once none of its accesses is parked any more. -/
def State.unparkStrand (s : State) (g : GroupId) (fid : Nat) (t : Thread) (st : Strand) : Strand :=
  if st.state == .parked fid then
    match (s.accs.find? fun a => a.gid == g && a.tid == t.tid && a.n == st.n && a.isParked).map (fun a => a.st) with
    | some (AccState.parked f) => { st with state := .parked f }
    | _ => { st with state := if st.over_ then .finished else .live }
  else st

/-- The accesses that a resolved record held are to be performed again, from their kept addresses, as if issued now (R335); its strands and
tellers go on (R221 step 5). Its commands return under R293. Accesses of a saved column wait for its placement (R374). -/
def State.releasePage (s : State) (f : FaultRec) : State :=
  if (s.column? f.col).isNone then s
  else
    let held (a : Acc) : Bool := a.gid.column == f.col && a.st == .parked f.fid
    let s := { s with accs := updWhere held (fun a => { a with st := .open_, since := s.cycle a.core }) s.accs }
    let free (g : Group) : Group :=
      let threads := g.threads.map fun t => { t with strands := t.strands.map (s.unparkStrand g.id f.fid t) }
      { g with threads := threads,
               teller := if g.teller.parked == some f.fid then { g.teller with parked := none } else g.teller }
    { s with groups := updWhere (fun g => g.id.column == f.col) free s.groups }

/-- What is parked on a record is parked on its successor (R221 step 6). -/
def State.repark (s : State) (f : FaultRec) (fid : Nat) : State :=
  let strand (st : Strand) : Strand := if st.state == .parked f.fid then { st with state := .parked fid } else st
  let group (g : Group) : Group :=
    let threads := g.threads.map fun t => { t with strands := t.strands.map strand }
    { g with threads := threads, teller := if g.teller.parked == some f.fid then { g.teller with parked := some fid } else g.teller }
  let s := (s.savedParked f.col f.fid).foldl (fun s x => s.editRecord f.col (x.2.2.2.1 + 216) (leBytes 4 fid)) s
  let cmd (c : Cmd) : Cmd := if c.st == .parked f.fid then { c with st := .parked fid } else c
  let inSaved (c : SavedCol) : SavedCol :=
    { c with parked := c.parked.map (fun x => if x.2.1 = f.fid then (x.1, fid, x.2.2) else x),
             entries := c.entries.map fun e => { e with cmd := cmd e.cmd } }
  { s with accs := updWhere (fun a => a.gid.column == f.col && a.st == .parked f.fid) (fun a => { a with st := .parked fid }) s.accs,
           saved := updWhere (·.id == f.col) inSaved s.saved,
           groups := updWhere (fun g => g.id.column == f.col) group s.groups,
           cmds := updWhere (fun c => c.gid.column == f.col) cmd s.cmds }

/-- A resolved record leaves its REFAULT to the column's later records of the page (R219). -/
def State.noteRefaults (s : State) (f : FaultRec) : State :=
  if f.refault = 0 then s
  else { s with refaulted := (f.col, f.page, f.refault) :: s.refaulted.filter fun x => !(x.1 == f.col && x.2.1 == f.page) }

/-- The trap of a third refault: that of the first agent, in the order of R369, parked on the record (R221 step 7, R367). -/
def State.pageTrap (s : State) (f : FaultRec) : GroupId × Trap :=
  let gs := s.groups.filter fun g => g.id.column == f.col
  let gidOf (stage : Nat) : GroupId := { launch := f.col.launch, col := f.col.col, stage := stage }
  let kept := (s.saved.filter (·.id == f.col)).flatMap fun c => c.parked.filter (·.2.1 == f.fid)
  let teller (g : GroupId) (pc : Addr) : GroupId × Trap := (g, { Trap.ofTeller 3 f.cause g pc f.va with atIssue := false })
  let engine (g : GroupId) : GroupId × Trap := (g, { Trap.ofEngine 3 f.cause g with va := f.va })
  let tellers := ((gs.filter fun g => g.teller.parked == some f.fid).map fun g => teller g.id g.teller.pc) ++
    kept.filterMap fun x => x.2.2.map (teller (gidOf x.1))
  let strands := gs.flatMap fun g => g.threads.flatMap fun t => (t.strands.filter fun st => st.state == .parked f.fid).map fun st =>
    let pc := match s.accs.find? fun a => a.gid == g.id && a.tid == t.tid && a.n == st.n && a.st == .parked f.fid with
      | some a => a.pc
      | none => st.pc
    (g.id, { Trap.ofStrand 3 f.cause g.id t.tid st.n pc with va := f.va, atIssue := false })
  let cmds := ((s.cmds.filter fun c => c.gid.column == f.col && c.st == .parked f.fid).map fun c => engine c.gid) ++
    (kept.filter (·.2.2.isNone)).map fun x => engine (gidOf x.1)
  let saved := (s.savedParked f.col f.fid).map fun x =>
    let g := gidOf x.1
    (g, { Trap.ofStrand 3 f.cause g x.2.1 x.2.2.1 x.2.2.2.2 with va := f.va, atIssue := false })
  (tellers ++ strands ++ saved ++ cmds).headD (engine (gidOf f.stage))

/-- A record of a saved column refaults for the third time: the column stays saved, trapped (R221 step 7). -/
def State.trapSaved (s : State) (f : FaultRec) : State :=
  match s.savedCol? f.col with
  | none => s
  | some c => s.trapSavedCol c (s.pageTrap f).2 none

/-- REPLAY_WALK (R221 steps 2 to 7): Once PTSEQ has reached the REQSEQ of a REPLAY that waits, the page's TLB entries go and it is walked
afresh: the joined accesses are released, or the record gives way to a new one with a higher REFAULT, which from 3 on stays 3 and stops the
group, and which keeps the REPLAYs that wait on (log 125). -/
def execReplayWalk (ctx fid : Nat) (s : State) : Out :=
  match s.faults.find? fun f => f.ctx == ctx && f.fid == fid with
  | none => .next s
  | some f =>
    match f.replay.find? fun q => decide (((s.ctxAt ctx).ptseq - q).toNat < 2 ^ 31) with
    | none => .next s
    | some q =>
        let s := s.tlbDrop (f.page * 4096) 4096 fun _ => true
        match s.walk ctx f.va.toNat { rd := f.rd, wr := f.wr, ex := f.ex } ((s.column? f.col).map (·.core)) with
        | .absent pa => .fault (.noSuchMemory pa)
        | .leaf _ =>
          let rest := s.faults.filter fun (x : FaultRec) => !(x.ctx == ctx && x.fid == fid)
          .next ((({ s with faults := rest }.noteRefaults f).foundPage f.col).releasePage f)
        | .fault cause =>
          let new := (s.ctxAt ctx).faultId
          let g : FaultRec :=
            { f with fid := new.toNat, cause := cause, refault := min 3 (f.refault + 1), written := false, replay := f.replay.erase q }
          let s := { s with faults := s.faults.filter (fun (x : FaultRec) => !(x.ctx == ctx && x.fid == fid)) ++ [g] }.modCtx ctx fun c =>
            { c with faultId := c.faultId + 1 }
          let s := s.repark f g.fid
          let s := s.writeRecords ctx s.faults
          if g.refault < 3 then .next s
          else if (s.column? f.col).isSome then let t := s.pageTrap g; .next (s.takeTrap t.1 t.2)
          else .next (s.trapSaved g)

/-! ## Refresh (R209) -/

/-- REFRESH_SLOT (R209): A new 50-ns slot begins, and the bank it names refreshes: s mod 64 of the slot that holds TIME. -/
def execRefreshSlot (s : State) : Out := .next { s with refreshSlot := s.time / 50 % 64 }

/-! ## Page migration (R223, R224) -/

/-- Pops a frame number from a migration stack of the system context: [31:0] COUNT, then the frames (R412); none where the stack is empty. -/
def State.popFrame (s : State) (va : Nat) : Except Denied (Option (Nat × State)) :=
  match s.vaRead 0 va 8 with
  | .error d => .error d
  | .ok (bs, s) =>
    let n := leNat bs % 2 ^ 32
    if n = 0 then .ok none
    else
      match s.vaRead 0 (va + 8 * n) 8 with
      | .error d => .error d
      | .ok (fr, s) =>
        match s.vaWrite 0 va (leBytes 4 (n - 1)) with
        | .error d => .error d
        | .ok s => .ok (some (leNat fr % 2 ^ 40, s))

/-- The stack of a direction's destination frames. -/
def State.stackFor (s : State) (toLpddr : Bool) : Nat := if toLpddr then s.mgmt.miglocal.toNat else s.mgmt.mighost.toNat

/-- The level-0 entries of a leaf: one, or the 16 of a 64 KiB page (R215). -/
def Leaf.slots (l : Leaf) : List Nat := if l.bits = 16 then (List.range 16).map fun i => l.at_ / 128 * 128 + 8 * i else [l.at_]
/-- The word of a table entry. -/
def State.entryAt (s : State) (a : Nat) : Nat := leNat (s.mems.read (.lpddr a) 8)
/-- Writes table entries: their addresses and words. -/
def State.putEntries (s : State) (xs : List (Nat × Nat)) : State :=
  { s with mems := xs.foldl (fun m x => m.write (.lpddr x.1) (leBytes 8 x.2)) s.mems }
/-- Entries with their words, each as `f` changes it. -/
def State.entriesWith (s : State) (as : List Nat) (f : Nat → Nat) : List (Nat × Nat) := as.map fun a => (a, f (s.entryAt a))
/-- A leaf's word with another MIG (R215). -/
def withMig (raw mig : Nat) : Nat := raw - bits raw 10 2 * 1024 + mig * 1024
/-- A leaf's word with MIG 00, another FRAME and TYPE LOCAL or HOST (R224 step 6). -/
def withFrame (raw frame : Nat) (local_ : Bool) : Nat :=
  let w := withMig raw 0
  w - bits w 12 40 * 4096 + frame * 4096 - bits w 8 2 * 256 + (if local_ then 0 else 256)

/-- The migration in progress is given up: MIG is cleared in every entry that holds the engine's, and the destination frame returns; what
was held goes on (R224). -/
def State.abandonMigration (s : State) : State :=
  match s.migration with
  | none => s
  | some m =>
    let mine := m.slots.filter fun x => bits (s.entryAt x.1) 10 2 == bits x.2 10 2
    let s := s.putEntries (s.entriesWith (mine.map (·.1)) fun w => withMig w 0)
    ({ s with migration := none }.pushFrame (s.stackFor m.toLpddr) m.newFrame).releaseRecs

/-- The samples counted of a page (R223). -/
def State.samplesOf (s : State) (ctx page : Nat) : Nat := match s.migCount.find? (·.1 == (ctx, page)) with | some x => x.2 | none => 0

/-- The engine may move a page (R223): of 4 or 64 KiB, LOCAL or HOST, not frozen, not software-managed, not in host bias, under no shadow
pair, its context's migration enabled. -/
def State.movable (s : State) (ctx : Nat) (l : Leaf) : Bool :=
  let pages := (List.range (2 ^ l.bits / 4096)).map fun i => l.base + i * 4096
  (s.ctxAt ctx).mig && decide (l.bits ≤ 16) && (l.perm.typ == .local || l.perm.typ == .host) && l.mig == 0 && !l.perm.swm
    && pages.all fun va => (s.freezesOver (s.ctxAt ctx).asid (va / 128)).isEmpty && (s.pairOfDst? ctx va).isNone
      && (s.pairOfShd? ctx va).isNone
      && (s.swmAt? ctx va).isNone && (match l.placeAt va with | .lpddr pa => !s.bias.contains (pa / 4096) | _ => true)

/-- Some HOST page has reached the threshold in this epoch (R223). -/
def State.wantsPromotion (s : State) : Bool :=
  s.migCount.any fun x => decide (Config.migrationThreshold ≤ x.2) &&
    (match s.leafAt x.1.1 (x.1.2 * 4096) with | some l => l.perm.typ == .host && s.movable x.1.1 l | none => false)

/-- A page promoted earlier, by context and VA[56:12], is LOCAL still and the engine may move it (R223). -/
def State.demotable (s : State) (p : Nat × Nat) : Bool :=
  (s.ctxAt p.1).exist && (match s.leafAt p.1 (p.2 * 4096) with | some l => l.perm.typ == .local && s.movable p.1 l | none => false)
/-- The page is the least counted of those promoted earlier that may be demoted (R223). -/
def State.leastPromoted (s : State) (ctx page : Nat) : Bool :=
  s.promoted.contains (ctx, page) &&
    (s.promoted.filter s.demotable).all fun p => decide (s.samplesOf ctx page ≤ s.samplesOf p.1 p.2)

/-- A destination frame, as aligned as the page is large, is taken: the leaf is marked as copying (R224 step 1). -/
def State.beginMove (s : State) (ctx : Nat) (l : Leaf) (toLpddr : Bool) (frame : Nat) : State :=
  if frame % (2 ^ l.bits / 4096) ≠ 0 then s.pushFrame (s.stackFor toLpddr) frame
  else
    let slots := s.entriesWith l.slots fun w => withMig w 1
    { s.putEntries slots with
      migration := some { ctx := ctx, va := l.base, bits := l.bits, oldPlace := l.place, newFrame := frame, toLpddr := toLpddr, slots := slots,
                           switching := false } }

/-- MIGRATION_START (R223, R224): The engine begins to move a page: a HOST page whose count has reached the threshold, or, when the
LPDDR-5X pool is empty, the least-counted page it promoted. A stack whose page holds new requests is waited for. -/
def execMigrationStart (ctx : Nat) (va : BitVec 64) (s : State) : Out :=
  match s.leafAt ctx va.toNat with
  | none => .next s
  | some l =>
    if s.migration.isSome || !s.movable ctx l then .next s
    else
      let page := l.base / 4096
      match s.popFrame (s.stackFor true) with
      | .error .held => .next (s.holdEvent (.migrate ctx va))
      | .error _ => .next s
      | .ok (some (frame, t)) =>
        .next (if l.perm.typ == .host && decide (Config.migrationThreshold ≤ s.samplesOf ctx page) then t.beginMove ctx l true frame else s)
      | .ok none =>
        if l.perm.typ == .local && s.wantsPromotion && s.leastPromoted ctx page then
          match s.popFrame (s.stackFor false) with
          | .error .held => .next (s.holdEvent (.migrate ctx va))
          | .ok (some (frame, t)) => .next (t.beginMove ctx l false frame)
          | _ => .next s
        else .next s

/-- The TYPE 15 record of a move (R222): the tier is free, the spec states none. -/
def State.moveRecord (s : State) (m : Migration) (oldFrame : Nat) : State :=
  let (free, s) := s.drawWord
  let lo := packFields [(m.va / 128, 50), (0xFF, 8), (15, 4), (free.toNat, 2)]
  let hi := packFields [(oldFrame, 40), (if m.toLpddr then 0 else 1, 1)]
  match s.ringPut m.ctx ringHot (leBytes 16 (lo + 2 ^ 64 * hi)) with
  | some s => s
  | none => s.ringLost m.ctx ringHot

/-- The frame number of a place of LPDDR-5X or of the host. -/
def Place.frame (p : Place) : Nat := match p with | .lpddr pa => pa / 4096 | .host pa => pa / 4096 | _ => 0
/-- The leaf's entries stand as the engine left them, every one. -/
def State.slotsStand (s : State) (m : Migration) : Bool := m.slots.all fun x => s.entryAt x.1 == x.2
/-- Halves of the old place of a HOST page that the bridge keeps in its buffer go back to the host (R224 step 4). -/
def State.flushOld (s : State) (m : Migration) : State :=
  match m.oldPlace with | .host hpa => s.flushHalves hpa (2 ^ m.bits) | _ => s

/-- MIGRATION_SWITCH (R224 steps 2 to 7): First the page leaves every TLB, MIG becomes 10, its lines are written back and dropped, the
bridge's halves of it return, and new requests to it are held; then, once no request of it is with the host, its bytes are copied, its leaf
switched, the record written, the old frame returned, and what was held goes on. A leaf that has changed abandons the move. -/
def execMigrationSwitch (s : State) : Out :=
  match s.migration with
  | none => .next s
  | some m =>
    if !s.slotsStand m then .next s.abandonMigration
    else
      let asid := (s.ctxAt m.ctx).asid
      let size := 2 ^ m.bits
      let s := (s.sweepRange asid m.va size).flushOld m
      if !m.switching then
        let slots := m.slots.map fun x => (x.1, withMig x.2 2)
        .next { s.putEntries slots with migration := some { m with slots := slots, switching := true } }
      else if s.hostBusy asid m.va size then .next s
      else
        let place : Place := if m.toLpddr then .lpddr (m.newFrame * 4096) else .host (m.newFrame * 4096)
        match place.absent size with
        | some pa => .fault (.noSuchMemory pa)
        | none =>
          let s := { s with mems := s.mems.write place (s.mems.read m.oldPlace size) }
          let page := (m.ctx, m.va / 4096)
          let s := { s.putEntries (m.slots.map fun x => (x.1, withFrame x.2 m.newFrame m.toLpddr)) with
            migration := none, promoted := if m.toLpddr then page :: s.promoted else s.promoted.filter (· != page) }
          .next ((s.moveRecord m m.oldPlace.frame).pushFrame (s.stackFor (!m.toLpddr)) m.oldPlace.frame).releaseRecs

/-- MIGRATION_EPOCH_END (R223): The sample counts start afresh. -/
def execMigrationEpochEnd (s : State) : Out := .next { s with migCount := [] }

end Sys2Proof.Machine
end

