-- ==== Sys2Proof/Machine/Sync.lean ====
section
/-! DEFINITION. Fences, named barriers, sync words and event posts: 11_memory_insts R241 to R249. -/

namespace Sys2Proof.Machine

/-! ## Fences (R241): the wait is a condition of issue -/

/-- A fence of level `k`, once it issues: an acquire, and the release of what barriers have put before it (R241, R325). -/
def fence (fm : Form) (k : Nat) (s : State) : Out :=
  .next (s.issueWith fm noCause fun _ lanes s =>
    lanes.foldl (fun s l =>
      let s := s.acquire l.gid l.tid l.st.n
      s.modStrand l.gid l.tid l.st.n fun st => { st with fenced := st.fenced ++ s.fencedBy st.after k }) s)

/-- FENCE_GRP (R241): Wait until prior accesses are performed at group scope. -/
def execFenceGrp (w : BitVec 3) (s : State) : Out := fence (.plain 0x8A#8 0 w 0x0000#13) 1 s
/-- FENCE_DEV (R241): Wait until prior accesses are performed at device scope. -/
def execFenceDev (w : BitVec 3) (s : State) : Out := fence (.plain 0x8A#8 0 w 0x0800#13) 2 s
/-- FENCE_SYS (R241): Wait until prior accesses are performed at system scope. -/
def execFenceSys (w : BitVec 3) (s : State) : Out := fence (.plain 0x8A#8 0 w 0x1000#13) 3 s

/-! ## Named barriers (R242, R243) -/

/-- A barrier at group start (R242). -/
def Barrier.reset : Barrier :=
  { phase := 0, cnt := 0, expect := 0, arrive := 0, tarr := false, twait := false, arrived := [], waiting := [], left := [],
    before := [], owed := [] }
/-- A barrier of a group. -/
def Group.bar (g : Group) (b : Nat) : Barrier := g.bars.getD b .reset
/-- Changes a barrier of a group. -/
def Group.modBar (g : Group) (b : Nat) (f : Barrier → Barrier) : Group := { g with bars := g.bars.modify b f }

/-- Threads that a count of 0 expects: not retired and not in LEFT (R243). -/
def Group.everyone (g : Group) (b : Nat) : Nat :=
  (g.threads.filter fun t => !t.retired && !(g.bar b).left.contains t.tid).length

/-- A strand that wakes from a barrier goes on after its instruction, and after the accesses that precede the phase's arrivals (R243,
R244). -/
def Strand.wakeFrom (st : Strand) (b : Nat) (before : List Nat) : Strand :=
  match st.sleep with
  | some (b', pc) => if b' == b then { st with pc := pc, sleep := none, after := st.after ++ before } else st
  | none => st

/-- The phase of a barrier ends (R243): waiting threads go on, and one trace record is written for each crew with waiting threads, one
for a waiting teller (R402). -/
def State.endPhase (s : State) (gid : GroupId) (b : Nat) : State :=
  match s.group? gid with
  | none => s
  | some g =>
    let x := g.bar b
    let crews := (List.range 32).filter fun k => x.waiting.any fun t => crewOf t == k
    let s := crews.foldl (fun s k => s.trace g 3 b k false (laneMask k x.waiting) 0) s
    let s := if x.twait then s.trace g 3 b 0 true 0 0 else s
    let owed := x.arrived.map (fun t => (t, x.before)) ++ x.owed.filter fun o => !x.arrived.contains o.1
    let fresh (x : Barrier) : Barrier :=
      { x with phase := x.phase + 1, arrive := 0, arrived := [], tarr := false, waiting := [], twait := false, before := [], owed := owed }
    s.modGroup gid fun g =>
      { g.modBar b fresh with
        threads := g.threads.map fun t => { t with strands := t.strands.map (·.wakeFrom b x.before) },
        teller := if x.twait then { g.teller with after := g.teller.after ++ x.before } else g.teller }

/-- What an arrival comes to (R243). -/
inductive Arrival where
  | ok (s : State)
  | trap (code : Nat)

/-- The arrival of an agent with count field `n`: `mark` enters it in the barrier (R243). -/
def State.arrive (s : State) (gid : GroupId) (b n : Nat) (left : Bool) (mark : Barrier → Barrier) : Arrival :=
  match s.group? gid with
  | none => .ok s
  | some g =>
    let x := g.bar b
    if left then .trap 2
    else
      let first := x.arrive == 0 && !x.tarr
      if !first && n != x.cnt then .trap 3
      else
        let x := if first then { x with cnt := n, expect := if n = 0 then g.everyone b else n } else x
        let x := mark { x with arrive := x.arrive + 1 }
        let s := s.modGroup gid (·.modBar b fun _ => x)
        .ok (if x.arrive = x.expect then s.endPhase gid b else s)

/-- How a thread arrives: `bara`, `bars`, `barx`. -/
inductive ArriveKind where
  | go | wait | leave
  deriving DecidableEq, Repr

/-- One thread's arrival, and whether it comes about; one that traps stands at its instruction as before (R243, R368). -/
def State.arriveLane (s : State) (k : ArriveKind) (b n : Nat) (l : Lane) : Bool × State :=
  let gone := match s.group? l.gid with | some g => (g.bar b).left.contains l.tid | none => false
  -- the issue has moved the strand on; a waiting one sleeps at its instruction
  let s' := if k = .wait then s.modStrand l.gid l.tid l.st.n fun st => { st with pc := l.st.pc, sleep := some (b, st.pc) } else s
  let mark (x : Barrier) : Barrier :=
    { x with before := x.before ++ s.unsettled l.gid l.tid l.st.know l.st.after, arrived := l.tid :: x.arrived, waiting := if k = .wait then l.tid :: x.waiting else x.waiting,
             left := if k = .leave then l.tid :: x.left else x.left }
  match s'.arrive l.gid b n gone mark with
  | .ok s => (true, s)
  | .trap code => (false, (s.modStrand l.gid l.tid l.st.n fun _ => l.st).refuse l { cls := 1, code := code })

/-- The arrivals of a bundle's threads, in the order given, and those that come about. -/
def State.arriveLanes (s : State) (k : ArriveKind) (b n : Nat) : List Lane → List Lane × State
  | [] => ([], s)
  | l :: rest =>
    let r := s.arriveLane k b n l
    let more := r.2.arriveLanes k b n rest
    (if r.1 then l :: more.1 else more.1, more.2)

/-- The trace's account of an arriving bundle: one record for each crew (R402). -/
def State.traceArrival (s : State) (b : Nat) (lanes : List Lane) : State :=
  (lanes.filter fun l => (lanes.find? fun m => m.gid == l.gid && crewOf m.tid == crewOf l.tid) == some l).foldl (fun s l =>
    s.trace l.g 2 b (crewOf l.tid) false (laneMask (crewOf l.tid) ((lanes.filter (·.gid == l.gid)).map (·.tid))) l.st.pc) s

/-- An arrival instruction: the threads of the bundle in ascending lane order (R243); the trace shows those that arrive (R402). -/
def arriveBundle (fm : Form) (k : ArriveKind) (b : BitVec 4) (n : BitVec 9) (s : State) : Out :=
  .next (s.issueWith fm noCause fun _ lanes s =>
    ((s.traceArrival b.toNat (s.arriveLanes k b.toNat n.toNat lanes).1).arriveLanes k b.toNat n.toNat lanes).2)

/-- BARA (R243): Arrive at a named barrier without waiting. -/
def execBara (w : BitVec 3) (b : BitVec 4) (n : BitVec 9) (s : State) : Out := arriveBundle (.plain 0xA0#8 0 w (b ++ n)) .go b n s

/-- BARS (R243): Arrive at a barrier and wait for the phase to end. -/
def execBars (w : BitVec 3) (b : BitVec 4) (n : BitVec 9) (s : State) : Out := arriveBundle (.plain 0xA2#8 0 w (b ++ n)) .wait b n s

/-- BARX (R243): Arrive at a barrier and leave it. -/
def execBarx (w : BitVec 3) (b : BitVec 4) (n : BitVec 9) (s : State) : Out := arriveBundle (.plain 0xA3#8 0 w (b ++ n)) .leave b n s

/-- The accesses that the ended phase in which a thread arrived last puts before what follows its wait (R244). -/
def Barrier.owedTo (x : Barrier) (tid : Nat) : List Nat := match x.owed.find? (·.1 == tid) with | some o => o.2 | none => []

/-- BARW (R243): Wait for the phase of a barrier already arrived at; a wait for a phase that has ended is over, and acquires (R244,
log 129). -/
def execBarw (w : BitVec 3) (b : BitVec 4) (s : State) : Out :=
  .next (s.issueWith (.plain 0xA1#8 0 w (b ++ 0#9)) noCause fun _ lanes s =>
    lanes.foldl (fun s l =>
      if (l.g.bar b.toNat).arrived.contains l.tid then
        (s.modStrand l.gid l.tid l.st.n fun st => { st with pc := l.st.pc, sleep := some (b.toNat, st.pc) }).modGroup l.gid
          (·.modBar b.toNat fun x => { x with waiting := l.tid :: x.waiting.filter (· != l.tid) })
      else s.modStrand l.gid l.tid l.st.n fun st => { st with after := st.after ++ (l.g.bar b.toNat).owedTo l.tid }) s)

/-! ## Sync words (R245 to R248) -/

/-- Pulses on an input of a core's event matrix: every routed output whose IMASK selects it counts them (R310). -/
def State.pulse (s : State) (core input n : Nat) : State :=
  { s with routes := updWhere (fun r => r.core == core && r.word.getLsbD input) (fun r => { r with count := r.count + n }) s.routes }

/-- A sync word's fields (R245). -/
structure SyncWord where
  target : Word
  count : Word
  gen : Word
  ctl : Word
  deriving DecidableEq, Repr

/-- The sync word in 16 bytes. -/
def SyncWord.ofBytes (bs : List Byte) : SyncWord :=
  { target := wordOf (bs.take 4), count := wordOf ((bs.drop 4).take 4), gen := wordOf ((bs.drop 8).take 4), ctl := wordOf (bs.drop 12) }
/-- Its 16 bytes. -/
def SyncWord.bytes (w : SyncWord) : List Byte := wordBytes w.target ++ wordBytes w.count ++ wordBytes w.gen ++ wordBytes w.ctl
/-- EVIN of a sync word. -/
def SyncWord.evin (w : SyncWord) : Nat := (w.ctl.extractLsb' 0 4).toNat

/-- One update (R246): the word, the pulse it posts, and whether it faults. -/
def SyncWord.update (w : SyncWord) (dT dC : Word) : SyncWord × Option Nat × Bool :=
  let w := { w with target := w.target + dT, count := w.count + dC }
  if w.target ≠ 0 ∧ w.count = w.target then
    ({ w with gen := w.gen + 1, count := 0, target := 0 },
     if w.ctl.getLsbD 4 ∧ w.evin ≠ 15 then some w.evin else none, false)
  else if w.target ≠ 0 ∧ w.target.toNat < w.count.toNat then
    ({ w with ctl := w.ctl ||| 0x20#32 }, none, !w.ctl.getLsbD 5)
  else (w, none, false)

/-- One update of the sync word at a scratchpad offset of a core; the Bool says whether it faults (R246). -/
def State.syncUpdate (s : State) (core off : Nat) (dT dC : Word) : State × Bool :=
  let (w, ev, bad) := (SyncWord.ofBytes (s.mems.scratchRead core off 16)).update dT dC
  let s := { s with mems := s.mems.scratchWrite core off w.bytes }
  (match ev with | some n => s.pulse core n 1 | none => s, bad)

/-- The memory-model fault of a sync-word instruction (R226 to R228): window bound, then misalignment. -/
def syncCause (g : BitVec 6) (l : Lane) : Option Cause :=
  let off := (l.t.greg g.toNat).val
  if l.g.wsize < off.toNat + 16 then some { cls := 4, code := 6, va := off.setWidth 64 }
  else if off.toNat % 16 ≠ 0 then some { cls := 4, code := 3, va := off.setWidth 64 }
  else none

/-- The trap of a sync word fault: its thread stands after the updating instruction (R246, R367). -/
def State.syncFault (s : State) (l : Lane) : State :=
  s.takeTrap l.gid { Trap.ofStrand 5 0 l.gid l.tid l.st.n l.st.pc with atIssue := false }

/-- `sexp` and `sarr`: one update for each thread of the bundle, in ascending lane order (R247). -/
def syncAdd (op : BitVec 8) (g : BitVec 6) (w : BitVec 3) (d : BitVec 5) (target : Bool) (s : State) : Out :=
  .next (s.issueWith (.plain op g w (0#3 ++ d ++ 0#5)) (syncCause g) fun _ lanes s =>
    lanes.foldl (fun s l =>
      let v := l.st.elem d.toNat
      let r := s.syncUpdate l.g.core (l.g.wbase + (l.t.greg g.toNat).val.toNat) (if target then v else 0) (if target then 0 else v)
      if r.2 then r.1.syncFault l else r.1) s)

/-- SEXP (R247): Add e[D] to a sync word's TARGET, a release. -/
def execSexp (g : BitVec 6) (w : BitVec 3) (d : BitVec 5) (s : State) : Out := syncAdd 0xA4#8 g w d true s

/-- SARR (R247): Add e[D] to a sync word's COUNT, a release. -/
def execSarr (g : BitVec 6) (w : BitVec 3) (d : BitVec 5) (s : State) : Out := syncAdd 0xA5#8 g w d false s

/-- `swait`: GEN as read at issue, landing on cycle c + 20; a pending variable-latency write until then (R225, R247). An acquire (R248). -/
def syncWait (g : BitVec 6) (w : BitVec 3) (d : BitVec 5) (variant : BitVec 5) (s : State) : Out :=
  .next (s.issueWith (.plain 0xA6#8 g w (0#3 ++ d ++ variant)) (syncCause g) fun c lanes s =>
    lanes.foldl (fun s l =>
      (s.acquire l.gid l.tid l.st.n).pushPend l
        { due := c + 20, writes := [(d.toNat, s.syncGen l.g (l.t.greg g.toNat).val.toNat)], flags := {}, var := true, pc := l.st.pc }) s)

/-- SWAIT (R247): Wait until GEN differs from e[D], then read GEN. -/
def execSwait (g : BitVec 6) (w : BitVec 3) (d : BitVec 5) (s : State) : Out := syncWait g w d 0 s

/-- SWAIT_GE (R247): Wait until GEN is at least e[D], then read GEN. -/
def execSwaitGe (g : BitVec 6) (w : BitVec 3) (d : BitVec 5) (s : State) : Out := syncWait g w d 1 s

/-- EVPOST (R249): Pulse an event-matrix input per thread after prior accesses. -/
def execEvpost (w : BitVec 3) (n : BitVec 4) (s : State) : Out :=
  .next (s.issueWith (.plain 0xA7#8 0 w (0#9 ++ n)) noCause fun _ lanes s => s.pulse s.curCore n.toNat lanes.length)

end Sys2Proof.Machine
end

