-- ==== Sys2Proof/Machine/Issue.lean ====
section
/-! DEFINITION. The formation of bundles and what falls due in a core: 01_work R20, R23 to R27; 05_encoding R93 to R96, R115; 06_issue R122
to R135; 09_flow R195, R201; 22_retire_debug R402 to R406. -/

namespace Sys2Proof.Machine

/-! ## Candidates (R123) -/

/-- A (thread, strand) of a core at a slot: what its instruction uses, and the first condition of R123 it fails. -/
structure Runner where
  lane : Lane
  use : Use
  held : List Stall
  deriving DecidableEq, Repr

/-- The threads' strands of a core that could issue: live strands of threads that have neither exited nor retired. -/
def State.lanesOn (s : State) (core : Nat) : List Lane :=
  (s.groups.filter (·.core == core)).flatMap fun g =>
    (g.threads.filter fun t => !t.retired && !t.exited).flatMap fun t =>
      (t.strands.filter fun st => !st.ended).map fun st => { gid := g.id, tid := t.tid, g := g, t := t, st := st }

/-- What stands at a strand's program counter, and every condition it fails; bytes that are no instruction use nothing and trap at
issue (R109, R123). -/
def State.runner (s : State) (core : Nat) (l : Lane) : Runner :=
  match s.fetch core (s.ctxAt l.g.ctx).asid l.st.pc with
  | .missing _ => { lane := l, use := {}, held := .fetch :: s.ownHolds core l {} }
  | .bad => { lane := l, use := {}, held := s.holds core l {} }
  | .form f => { lane := l, use := f.use, held := s.holds core l f.use }

/-- A crew instruction (R128). -/
def Runner.isCrew (c : Runner) : Bool := c.use.wait == .crew
/-- Candidates of R123. -/
def Runner.free (c : Runner) : Bool := c.held.isEmpty
/-- Every condition but a `blk` hold, which counts as waiting (R127). -/
def Runner.waiting (c : Runner) : Bool := c.held.isEmpty || (c.use.wait == .blk && c.held == [.crew])

/-- Every strand of a core with its standing. -/
def State.runners (s : State) (core : Nat) : List Runner := (s.lanesOn core).map (s.runner core)

/-! ## Choosing a bundle (R125 to R129, R201) -/

/-- The first element for which none is better. -/
def bestBy {α : Type} (better : α → α → Bool) : List α → Option α
  | [] => none
  | x :: xs =>
    match bestBy better xs with
    | none => some x
    | some y => if better y x then some y else some x

/-- A hint in force (R201). -/
def Runner.hinted (c : Runner) (urgent : Bool) : Bool := match c.lane.st.hint with | some h => h.urgent == urgent | none => false
/-- The group as which a candidate ranks: its own, or, while it is urgent, the core's oldest (R201). -/
def Runner.rankAs (oldest : Option GroupId) (c : Runner) : GroupId := if c.hinted true then oldest.getD c.lane.gid else c.lane.gid

/-- The lead's rank among promoted candidates: the longest wait, then the older group, the lower strand, the lower lane (R125). -/
def Runner.promotedBefore (oldest : Option GroupId) (a b : Runner) : Bool :=
  let (x, y) := (a.lane, b.lane)
  let (g, h) := (a.rankAs oldest, b.rankAs oldest)
  decide (y.st.wait < x.st.wait) || (x.st.wait == y.st.wait &&
    (g.older h || (g == h &&
      (decide (x.st.n < y.st.n) || (x.st.n == y.st.n && decide (laneOf x.tid < laneOf y.tid))))))

/-- The lead's rank otherwise: the lowest PC, then the lower crew, then the lower lane (R125). -/
def Runner.lowerPc (a b : Runner) : Bool :=
  let (x, y) := (a.lane, b.lane)
  decide (x.st.pc.toNat < y.st.pc.toNat) || (x.st.pc == y.st.pc &&
    (decide (crewOf x.tid < crewOf y.tid) || (crewOf x.tid == crewOf y.tid && decide (laneOf x.tid < laneOf y.tid))))

/-- The lead of a pipe's candidates at a slot; `others` are all the candidates of the cluster, in either pipe. An urgent candidate
ranks as one of the core's oldest group; a yielding one is not chosen while some other unpromoted candidate of the cluster does not
yield (R125, R201, log 121). -/
def leadOf (oldest : Option GroupId) (slot : Nat) (others cs : List Runner) : Option Runner :=
  let promoted := cs.filter (·.lane.st.promoted)
  if !promoted.isEmpty then bestBy (Runner.promotedBefore oldest) promoted
  else
    let cs := if others.any fun c => !c.lane.st.promoted && !c.hinted false then cs.filter fun c => !c.hinted false else cs
    match bestBy GroupId.older (cs.map (·.rankAs oldest)) with
    | none => none
    | some grp =>
      let mine := cs.filter fun c => c.rankAs oldest == grp
      let ns := mine.map (·.lane.st.n)
      let low := ns.foldl min 15
      let high := ns.foldl max 0
      let n := if slot / 4 % 2 = 0 then low else high
      bestBy Runner.lowerPc (mine.filter fun c => c.lane.st.n == n)

/-- Two candidates share a key: launch, stage, strand number and PC (R122). -/
def Runner.sameKey (a b : Runner) : Bool :=
  a.lane.gid.launch == b.lane.gid.launch && a.lane.gid.stage == b.lane.gid.stage && a.lane.st.n == b.lane.st.n && a.lane.st.pc == b.lane.st.pc

/-- Of the candidates of one lane the member: the oldest group, then the lowest turn (R125). -/
def Runner.joinsBefore (oldest : Option GroupId) (a b : Runner) : Bool :=
  let (g, h) := (a.rankAs oldest, b.rankAs oldest)
  g.older h || (g == h && decide (a.lane.g.turnOf a.lane.tid < b.lane.g.turnOf b.lane.tid))

/-- The bundle of a lead: its whole crew for a crew instruction, else one thread a lane (R125, R128); members by ascending lane. -/
def bundleOf (oldest : Option GroupId) (lead : Runner) (cs : List Runner) : List Runner :=
  let same := cs.filter (lead.sameKey ·)
  (List.range 16).filterMap fun i =>
    if i = laneOf lead.lane.tid then some lead
    else
      let on := same.filter fun c => laneOf c.lane.tid == i
      if lead.isCrew then on.find? fun c => c.lane.gid == lead.lane.gid && crewOf c.lane.tid == crewOf lead.lane.tid
      else bestBy (Runner.joinsBefore oldest) on

/-- The place of a bundle among those of one cycle: readers and the rest by ascending cluster, then `drop`, then `put`, then `exit`
by strand number (R20, R27, R37). -/
def orderClass (u : Use) (exit : Bool) : Nat :=
  if exit then 3 else if u.put then 2 else if u.name.isSome && u.read.isNone && !u.touch then 1 else 0

/-- A bundle formed at a slot. -/
structure Formed where
  cluster : Nat
  elem : Bool
  lead : Runner
  members : List Runner
  cls : Nat
  deriving DecidableEq, Repr

/-- `exit` stands at a program counter. -/
def State.isExit (s : State) (core : Nat) (l : Lane) : Bool :=
  match s.fetch core (s.ctxAt l.g.ctx).asid l.st.pc with
  | .form (.plain op _ _ _) => op == 0x9A#8
  | _ => false

/-- The groups of a core, the oldest first (R126). -/
def State.oldestOn (s : State) (core : Nat) : Option GroupId := bestBy GroupId.older ((s.groups.filter (·.core == core)).map (·.id))

/-- The bundles of a slot: for each cluster and each pipe that is free (R122, R125). A column that is stopping forms none (R374). They
are listed by ascending cluster, and of one cluster the element pipe's first, which is the order in which they take effect within
their class on the cycle (R27, log 122). -/
def State.formed (s : State) (core slot : Nat) (cs : List Runner) : List Formed :=
  let k := s.coreAt core
  let go := cs.filter fun c => c.free && (s.stopOf c.lane.gid.column).isNone
  let oldest := s.oldestOn core
  (List.range 8).flatMap fun cl =>
    let here := go.filter fun c => clusterOf c.lane.st.n == cl
    [true, false].filterMap fun elem =>
      let busy := (if elem then k.elemBusy else k.accBusy).getD cl 0
      if slot < busy then none
      else
        let mine := here.filter fun c => c.use.elem == elem
        (leadOf oldest slot here mine).map fun lead =>
          { cluster := cl, elem := elem, lead := lead, members := bundleOf oldest lead mine, cls := orderClass lead.use (s.isExit core lead.lane) }

/-- The bundles in the order in which they take effect on their cycle. -/
def Formed.sorted (fs : List Formed) : List Formed :=
  (fs.filter (·.cls == 0)) ++ (fs.filter (·.cls == 1)) ++ (fs.filter (·.cls == 2)) ++
    ((List.range 16).flatMap fun n => fs.filter fun f => f.cls == 3 && f.lead.lane.st.n == n)

/-! ## Accounting (R404 to R406) -/

/-- The code of a stall reason (R404). -/
def Stall.code (x : Stall) : Nat :=
  match x with
  | .absent => 1 | .coins => 2 | .lent => 3 | .memory => 4 | .barrier => 5 | .sync => 6 | .dq => 7 | .crew => 8 | .fetch => 9
  | .count => 10 | .parked => 11 | .drain => 12
/-- The reason a candidate is charged: the first condition of R123 that it fails (log 30). -/
def Runner.reason (c : Runner) : Nat := match c.held with | [] => 0 | x :: _ => x.code

/-- The reason of R404: the one that most of the oldest group's candidates hold, ties to the lower code. -/
def stallReason (cs : List Runner) : Nat :=
  let count (r : Nat) : Nat := (cs.filter fun c => c.reason == r).length
  match bestBy (fun a b => decide (count b < count a) || (count a == count b && decide (a < b))) (List.range 13) with
  | some r => if cs.isEmpty then 0 else r
  | none => 0

/-- Adds to one counter of a list. -/
def bump (l : List Nat) (i n : Nat) : List Nat := l.modify i (fun v => (v + n) % 2 ^ 64)

/-- STALL_ACCOUNTING of a slot (R404). -/
def State.account (s : State) (core : Nat) (cs : List Runner) : State :=
  let n := ((List.range 8).filter fun cl => cs.any fun c => c.free && clusterOf c.lane.st.n == cl).length
  let oldest := s.oldestOn core
  let r := stallReason (cs.filter fun c => some c.lane.gid == oldest)
  s.modCore core fun k => { k with hist := bump k.hist n 4, stall := if n = 0 then bump k.stall r 4 else k.stall }

/-- One sample of the counting house (R406). -/
def State.sample (s : State) (pc : Addr) (reason : Nat) : State :=
  let m := s.mgmt
  let b := ((pc.toNat : Int) - m.chbase.toNat) / (2 ^ (m.chshift.toNat % 32) : Nat)
  if b < 0 ∨ 4095 < b then { s with mgmt := { m with chOutside := min (m.chOutside + 1) (2 ^ 32 - 1) } }
  else
    let key := (b.toNat, reason)
    let old := match m.chCount.find? (·.1 == key) with | some e => e.2 | none => 0
    { s with mgmt := { m with chCount := (key, min (old + 1) (2 ^ 32 - 1)) :: m.chCount.filter (·.1 != key) } }

/-- The counting house's samples of a slot, one a cluster (R406): of two bundles of the launch in one cluster, that which takes effect
first (log 138). -/
def State.samples (s : State) (core : Nat) (cs : List Runner) (fs : List Formed) : State :=
  let wanted (g : GroupId) : Bool := (s.launchIdOf g.launch) == s.mgmt.chlaunch.toNat
  (List.range 8).foldl (fun st cl =>
    match fs.find? fun f => f.cluster == cl && wanted f.lead.lane.gid with
    | some f => st.sample f.lead.lane.st.pc 13
    | none =>
      match s.oldestOn core with
      | none => st
      | some g =>
        if !wanted g || fs.any (·.cluster == cl) then st
        else
          match bestBy Runner.lowerPc (cs.filter fun c => c.lane.gid == g) with
          | none => st
          | some c => st.sample c.lane.st.pc c.reason) s

/-! ## FORM_BUNDLE -/

/-- A code line that a fetch uses is the most recently used of its set (R93). -/
def State.useLine (s : State) (core asid line : Nat) : State :=
  let mine (c : CodeLine) : Bool := c.core == core && c.key.line == line && tagMatch c.key.asid asid
  { s with code := updWhere mine (fun c => { c with stamp := s.stamp, used := true }) s.code, stamp := s.stamp + 1 }
/-- The instruction at a program counter reaches into the next line (R94). -/
def State.straddles (s : State) (core asid : Nat) (pc : Addr) : Bool :=
  match s.codeLine? core asid (pc.toNat / 128) with
  | none => false
  | some l => match Form.read (parcelsOf ((lineBytes l.data).drop (pc.toNat % 128))) with | .error .truncated => true | _ => false
/-- The lines a chosen lead's fetch uses (R93). -/
def State.useCode (s : State) (core : Nat) (l : Lane) : State :=
  let asid := (s.ctxAt l.g.ctx).asid
  let line := l.st.pc.toNat / 128
  let s' := s.useLine core asid line
  if s.straddles core asid l.st.pc then s'.useLine core asid (line + 1) else s'
/-- Something of a core stands at a line of an ASID, or on the line before it, whose instruction may reach into it. -/
def State.wantsLine (s : State) (core asid line : Nat) : Bool :=
  let near (pc : Addr) : Bool := pc.toNat / 128 == line || pc.toNat / 128 + 1 == line
  (s.groups.filter fun g => g.core == core && (s.ctxAt g.ctx).asid == asid).any fun g =>
    (!g.teller.isDefault && !g.teller.done && near g.teller.pc)
      || g.threads.any fun t => !t.retired && t.strands.any fun st => st.state == .live && near st.pc
/-- Lines of pages in host bias that have served their issue, or that nothing of the core stands at any more, are gone (R352). -/
def State.dropOnce (s : State) (core : Nat) : State :=
  let wanted (c : CodeLine) : Bool := match c.key.asid with
    | some a => s.wantsLine core a c.key.line
    | none => s.groups.any fun g => g.core == core && s.wantsLine core (s.ctxAt g.ctx).asid c.key.line
  { s with code := s.code.filter fun c => !(c.core == core && c.once && (c.used || !wanted c)) }

/-- A bundle slot of a core has come and no bundle has been formed at it: cycles divisible by 4 (R122). -/
def State.slotDue (s : State) (core : Nat) : Bool :=
  let c := s.cycle core
  c % 4 == 0 && (s.coreAt core).formed != some c

/-- The bundle as an issue. -/
def Formed.issue (core : Nat) (f : Formed) : Issue :=
  .bundle core f.lead.lane.st.n f.lead.lane.st.pc (f.members.map fun c => (c.lane.gid, c.lane.tid))

/-- FORM_BUNDLE (R125): At each bundle slot every cluster forms bundles for its free pipes; they issue in this cycle. A stop asked of the
core takes effect at its slot (R400): a core that stands still forms none and adds to no histogram, but its clusters are sampled (R404,
R406). -/
def execFormBundle (core : Nat) (s : State) : Out :=
  if !s.slotDue core then .next s
  else
    let slot := s.cycle core
    let s := (s.dropOnce core).modCore core fun k =>
      { k with formed := some slot, stopped := k.stopped || k.stopAsked, stopAsked := false }
    let s := s.flushTrace core (s.coreAt core).traceQ
    let cs := s.runners core
    if (s.coreAt core).standsStill then .next (s.samples core cs [])
    else
      let fs := Formed.sorted (s.formed core slot cs)
      let s := (s.account core cs).samples core cs fs
      let s := fs.foldl (fun s f => s.useCode core f.lead.lane) s
      .next { s with issue := s.issue ++ fs.map (·.issue core) }

/-! ## What falls due (R26, R115, R127, R201) -/

/-- The group and cycle of a timed event. -/
def State.groupCycle? (s : State) (gid : GroupId) : Option (Group × Nat) := (s.group? gid).map fun g => (g, s.cycle g.core)

/-- A wait of 256 vector cycles promotes (R127). -/
def Strand.promotes (st : Strand) : Bool := !st.promoted && decide (256 ≤ st.wait)

/-- PROMOTE (R127): A candidate that has waited 256 cycles is promoted. -/
def execPromote (gid : GroupId) (tid n : Nat) (s : State) : Out :=
  .next (s.modStrand gid tid n fun st => if st.promotes then { st with promoted := true } else st)

/-- A hint whose duration has passed (R201). -/
def Strand.hintOver (st : Strand) (c : Nat) : Bool := match st.hint with | some h => decide (h.until_ ≤ c) | none => false

/-- HINT_EXPIRE (R201): A hint's duration ends. -/
def execHintExpire (gid : GroupId) (tid n : Nat) (s : State) : Out :=
  match s.groupCycle? gid with
  | none => .next s
  | some (_, c) => .next (s.modStrand gid tid n fun st => if st.hintOver c then { st with hint := none } else st)

/-- A `put` of the register is still on its way (R26); 0 stands for one that has arrived. -/
def GReg.arrives (r : GReg) (c : Nat) : Bool := r.visible != 0 && decide (r.visible ≤ c)

/-- REGISTER_PRESENT (R26): A put becomes present in every cluster 6 cycles after issue. -/
def execRegisterPresent (gid : GroupId) (tid g : Nat) (s : State) : Out :=
  match s.groupCycle? gid with
  | none => .next s
  | some (_, c) =>
    .next (s.modThread gid tid fun t => if (t.greg g).arrives c then t.setGreg g { t.greg g with visible := 0 } else t)

/-- A strand whose results due by cycle `c` have landed: those of one element in issue order (R115, R149). -/
def Strand.landDue (st : Strand) (c : Nat) : Strand :=
  let due := st.pend.filter fun p => decide (p.due ≤ c)
  due.foldl (fun st p => st.land c p.writes p.flags) { st with pend := st.pend.filter fun p => !decide (p.due ≤ c) }

/-- RESULT_LANDS (R115): A fixed-latency result and its flags land. -/
def execResultLands (gid : GroupId) (tid n : Nat) (s : State) : Out :=
  match s.groupCycle? gid with
  | none => .next s
  | some (_, c) => .next (s.modStrand gid tid n (·.landDue c))

/-! ## Coin deadlock (R43, R135) -/

/-- The count that raises the trap (R135). -/
def deadlockLimit : Nat := 65536

/-- An access, an offered or running command, or a `dqput` that waits for room: none may be pending for a coin deadlock (R135). -/
def State.groupBusy (s : State) (g : Group) : Bool :=
  s.accs.any (·.gid == g.id) || s.cmds.any (·.gid == g.id) || g.teller.wait == some .dqRoom

/-- Every live strand of the group is held only on presence or coins, its stall count run, and none has issued on this cycle (R135). -/
def State.coinStuck (s : State) (g : Group) : Bool :=
  let cs := ((s.lanesOn g.core).filter (·.gid == g.id)).map (s.runner g.core)
  let issued := g.threads.any fun t => t.strands.any fun st => st.issuedAt == s.cycle g.core + 1
  !cs.isEmpty && !issued && !s.groupBusy g && cs.all fun c => !c.held.isEmpty && c.held.all fun x => x == .absent || x == .coins

/-- COIN_DEADLOCK (R43): 65,536 blocked cycles raise the coin-deadlock trap; each strand stands at its stalled instruction. -/
def execCoinDeadlock (gid : GroupId) (s : State) : Out :=
  match s.group? gid with
  | none => .next s
  | some g =>
    if g.deadlock < deadlockLimit then .next s
    else
      let first := bestBy (fun a b => decide (a.tid < b.tid) || (a.tid == b.tid && decide (a.st.n < b.st.n)))
        ((s.lanesOn g.core).filter (·.gid == gid))
      let s := s.modGroup gid fun g => { g with deadlock := 0 }
      match first with
      | none => .next s
      | some l => .next (s.takeTrap gid { Trap.ofStrand 7 0 gid l.tid l.st.n l.st.pc with atIssue := false })

/-! ## Retirement (R20, R36, R195, R243, R393) -/

/-- One step of the status reduction (R393). -/
def reduceStatus (redop : Nat) (a b : Word) : Word :=
  if redop = 0 then a ||| b
  else if redop = 1 then (if a.toInt ≤ b.toInt then b else a)
  else if redop = 2 then (if a.toInt ≤ b.toInt then a else b)
  else a + b
/-- The identity of a reduction (R393). -/
def statusIdentity (redop : Nat) : Word := if redop = 1 then 0x80000000 else if redop = 2 then 0x7FFFFFFF else 0
/-- REDOP of a launch (R78). -/
def Launch.redop (l : Launch) : Nat := bits (numAt l.block 0 256) 120 2

/-- Every existing strand has finished, none of its accumulators is lent, and every memory access of the thread has completed (R20, R195). -/
def State.retires (s : State) (g : Group) (t : Thread) : Bool :=
  !t.retired && t.strands.all (fun st => st.state == .finished && st.own == .strand)
    && !(s.accs.any fun a => a.gid == g.id && a.tid == t.tid && !a.isPrefetch && !(decide (2 ≤ a.level) && !a.returns))

/-- The decision queue without the reads that a thread will no longer make (R20). -/
def unread (dq : List DqEntry) (t : Thread) : List DqEntry :=
  (dq.map fun e =>
    let owed := (t.strands.filter fun st => decide ((e.seq - st.cursor).toNat < 2 ^ 31)).length
    { e with readers := e.readers - owed }).filter (·.readers != 0)

/-- A thread that has not arrived in a phase of everyone lowers EXPECT when it retires, which may end the phase (R243). -/
def State.retireFromBarrier (s : State) (gid : GroupId) (tid b : Nat) : State :=
  match s.group? gid with
  | none => s
  | some g =>
    let x := g.bar b
    let running := x.arrive != 0 || x.tarr
    if !running || x.cnt != 0 || x.arrived.contains tid || x.left.contains tid then s
    else
      let s := s.modGroup gid (·.modBar b fun x => { x with expect := x.expect - 1 })
      if x.arrive = x.expect - 1 then s.endPhase gid b else s

/-- THREAD_RETIRE (R20): A thread whose strands have all finished retires; its status joins the group's (R393). -/
def execThreadRetire (gid : GroupId) (tid : Nat) (s : State) : Out :=
  match s.group? gid with
  | none => .next s
  | some g =>
    match g.thread? tid with
    | none => .next s
    | some t =>
      if !s.retires g t then .next s
      else
        let redop := match s.launch? gid.launch with | some l => l.redop | none => 0
        let s := s.modGroup gid fun g =>
          { g.modThread tid fun t => { t with retired := true, gregs := t.gregs.map fun _ => .reset } with
            status := reduceStatus redop g.status t.status, stany := true, dq := unread g.dq t }
        .next ((List.range g.kernel.nbar).foldl (fun s b => s.retireFromBarrier gid tid b) s)

/-! ## Filling the code store (R93 to R96) -/

/-- The set of a code line (R93). -/
def codeSet (line : Nat) : Nat := line % 128

/-- Installs a line: of four ways of a set the least recently used leaves (R93). -/
def State.fillCode (s : State) (c : CodeLine) : State :=
  let rest := s.code.filter fun x => !(x.core == c.core && x.key == c.key)
  let set := rest.filter fun x => x.core == c.core && codeSet x.key.line == codeSet c.key.line
  let rest := if set.length < 4 then rest else
    match oldestBy (·.stamp) set with
    | some v => rest.erase v
    | none => rest
  { s with code := { c with stamp := s.stamp } :: rest, stamp := s.stamp + 1 }

/-- The strands of a core that need a line of a context, with the address their fault names (R94, R95). -/
def State.needsLine (s : State) (core ctx line : Nat) : List Lane :=
  (s.lanesOn core).filter fun l =>
    l.g.ctx == ctx && l.st.state == .live && s.fetch core (s.ctxAt ctx).asid l.st.pc == .missing line

/-- The tellers of a core that need a line. -/
def State.tellersNeed (s : State) (core ctx line : Nat) : List Group :=
  s.groups.filter fun g =>
    g.core == core && g.ctx == ctx && !g.teller.isDefault && !g.teller.done && g.teller.parked.isNone && g.teller.pc.toNat / 128 == line
      && (s.codeLine? core (s.ctxAt ctx).asid line).isNone

/-- A fetch that faults parks every strand and teller that needs the line (R95). -/
def State.parkFetch (s : State) (core ctx line cause : Nat) : State :=
  let s := (s.needsLine core ctx line).foldl (fun s l =>
    let va := if l.st.pc.toNat / 128 = line then l.st.pc.toNat else line * 128
    let (fid, s) := s.record l.gid ctx va cause 3 .fetch
    s.modStrand l.gid l.tid l.st.n (·.park fid)) s
  (s.tellersNeed core ctx line).foldl (fun s g =>
    let (fid, s) := s.record g.id ctx g.teller.pc.toNat cause 3 .fetch
    s.modTeller g.id fun t => { t with parked := some fid }) s

/-- Whom the fetch of a line serves: the launch and agent of the first strand or teller that needs it (R222, R397). -/
def State.fetcher (s : State) (core ctx line : Nat) : Option (Nat × Reader) :=
  match s.needsLine core ctx line with
  | l :: _ => some (l.gid.launch, { col := l.gid.col, stage := l.gid.stage, tid := l.tid, strand := l.st.n })
  | [] => (s.tellersNeed core ctx line).head?.map fun g => (g.id.launch, GroupId.tellerReader g.id)

/-- A line of memory as a fetch gets it from its home, which allocates it where it may (R94, R207, R348). -/
def State.fetchLine (s : State) (ctx : Nat) (x : Site) (perm : Perm) (va : Nat) : Line × Option VTag × State :=
  let asid := (s.ctxAt ctx).asid
  let tag := match x with
    | .l2 k => match s.l2Key? k with | some h => h.vtag | none => none
    | .memory _ => s.fillTag ctx asid (va / 128)
  match x with
  | .l2 _ => let r := s.readSite x va 128; (lineOf r.1, tag, r.2)
  | .memory p =>
    let r := s.readSite x va 128
    let line := lineOf r.1
    let g := match s.tlb? (controllerOf va) asid va with | some e => e.key va | none => { line := va / 128, asid := some asid }
    if s.uncached asid (va / 128) p true then (line, tag, r.2) else (line, tag, r.2.fillL2 g p perm tag line)

/-- A core's request of a line is over. -/
def State.endReq (s : State) (core ctx line : Nat) : State :=
  { s with codeReqs := s.codeReqs.filter fun r => !(r.core == core && r.ctx == ctx && r.line == line) }

/-- Brings one requested line into a core's code store; a fault parks those who need it (R94, R95). One whose page holds new requests
stays requested; one of a page in host bias that nothing stands at any more is not kept (R352). -/
def State.codeFill (s : State) (core ctx line : Nat) : Res :=
  let asid := (s.ctxAt ctx).asid
  if (s.codeLine? core asid line).isSome then .ok (s.endReq core ctx line)
  else
    match s.site ctx (line * 128) .fetch (some core) with
    | .error (.walk c _) => .ok ((s.parkFetch core ctx line c).endReq core ctx line)
    | .error (.absent pa) => .error (.noSuchMemory pa)
    | .error _ => .ok s
    | .ok (x, perm, t) =>
      let s := t.sampleSites s ctx core 3 .fetch (some core) (s.fetcher core ctx line) [(x, line * 128, 128)]
      let absent := match x with | .memory p => p.absent 128 | .l2 _ => none
      match absent with
      | some pa => .error (.noSuchMemory pa)
      | none =>
        let key : LineKey := match x with
          | .l2 k => k
          | .memory _ => match s.tlb? (controllerOf (line * 128)) asid (line * 128) with
            | some e => e.key (line * 128)
            | none => { line := line, asid := some asid }
        let place : Place := match x with
          | .memory p => p
          | .l2 k => match s.l2Key? k with | some h => h.place | none => .lpddr 0
        let once := match place with | .lpddr pa => s.bias.contains (pa / 4096) | _ => false
        let wanted := s.wantsLine core asid line
        let r := s.fetchLine ctx x perm (line * 128)
        let s := r.2.2.endReq core ctx line
        .ok (if once && !wanted then s else s.fillCode
          { core := core, key := key, data := r.1, typ := perm.typ, place := place, vtag := r.2.1, stamp := 0, once := once, used := false })

/-- Line requests a core may have outstanding (R94). -/
def codeReqLimit : Nat := 8
/-- A core has requested a line of a context. -/
def State.codeAsked (s : State) (core ctx line : Nat) : Bool :=
  s.codeReqs.any fun r => r.core == core && r.ctx == ctx && r.line == line
/-- Requests a line, when it is neither held nor requested and fewer than 8 requests are outstanding (R94). -/
def State.askCode (s : State) (core ctx line : Nat) : State :=
  if (s.codeLine? core (s.ctxAt ctx).asid line).isSome || s.codeAsked core ctx line
      || decide (codeReqLimit ≤ (s.codeReqs.filter (·.core == core)).length) then s
  else { s with codeReqs := s.codeReqs ++ [{ core := core, ctx := ctx, line := line }] }

/-- CODE_LINE_FILL (R94): A requested code line arrives. A line that a fetch has missed and no request names is requested first, and
with it the next line in address order; a further miss waits while 8 requests are outstanding. Where the missed line takes the eighth, the
next line's request is not made (DESIGN CHOICE, log 149). -/
def execCodeLineFill (core ctx line : Nat) (s : State) : Out :=
  if s.codeAsked core ctx line then (s.codeFill core ctx line).out
  else if (s.needsLine core ctx line).isEmpty && (s.tellersNeed core ctx line).isEmpty then .next s
  else
    let t := s.askCode core ctx line
    .next (if t.codeAsked core ctx line then t.askCode core ctx (line + 1) else s)

end Sys2Proof.Machine
end

