-- ==== Sys2Proof/Machine/RowStats.lean ====
section
/-! DEFINITION. Row statistics and the column mask: 08_arith R175, R176, latencies R131. -/

namespace Sys2Proof.Machine

/-- A row instruction: one value, made of the whole source window, to every element of WIN, on cycle c + 12 (R131, R175). -/
def rowStat (op : BitVec 8) (f : EFields) (rule : List Word → Word × Flags) (s : State) : Out :=
  .next (s.issueWith (.e op f) noCause fun c lanes s =>
    lanes.foldl (fun s l =>
      let r := rule (f.dst.pairs.map fun dx => l.st.elem dx.2)
      s.pushPend l { due := c + 12, writes := f.dst.pairs.map fun dx => (dx.1, r.1), flags := r.2, var := false, pc := l.st.pc }) s)

/-- RMAX (R175): Maximum over a window written to every element of WIN. -/
def execRmax (f : EFields) (s : State) : Out := rowStat 0x5A#8 f (fun w => (Arith.rowMax w, {})) s

/-- RSUM (R175): Tree sum over a window written to every element of WIN. -/
def execRsum (f : EFields) (s : State) : Out := rowStat 0x5B#8 f Arith.rowSum s

/-- −FLT_MAX (R176). -/
def negFltMax : Word := 0xFF7FFFFF

/-- MSKR (R176): Mask window elements to −FLT_MAX by B, setting AM if all masked; the others are not written. -/
def execMskr (f : EFields) (s : State) : Out :=
  .next (s.issueWith (.e 0x5E#8 f) noCause fun c lanes s =>
    lanes.foldl (fun s l =>
      let b := l.operand f.g f.b 0
      let js := f.dst.pairs.map (·.1)
      let masked := js.filter fun j => !b.getLsbD j
      s.pushPend l
        { due := landsAt c 4 f.dst, writes := masked.map fun j => (j, negFltMax), flags := { am := masked == js }, var := false, pc := l.st.pc }) s)

end Sys2Proof.Machine
end

