-- ==== Sys2Proof/Machine/Move.lean ====
section
/-! DEFINITION. Moving values within the accumulator, writing and freeing general registers, special registers, lending:
09_flow R180 to R186. -/

namespace Sys2Proof.Machine

/-- An instruction that copies patterns: each destination receives `rule` of the thread, of the destination with its source element, and
of B, four cycles later, and no flag is set (R131, R180). -/
def moves (fm : Form) (f : EFields) (rule : Lane → Nat × Nat → Word → Word) (s : State) : Out :=
  .next (s.issueWith fm noCause fun c lanes s =>
    lanes.foldl (fun s l =>
      s.pushPend l { due := landsAt c 4 f.dst, writes := f.dst.pairs.map fun dx => (dx.1, rule l dx (l.operand f.g f.b dx.2)),
                     flags := {}, var := false, pc := l.st.pc }) s)

/-- MOV (R180): Copy B into e[D] or a window. -/
def execMov (f : EFields) (s : State) : Out := moves (.e 0x60#8 f) f (fun _ _ b => b) s

/-- MOVW (R180): Index or rotate accumulator elements: e[(X + n(b)) mod 32] with V = 0, e[(j + n(b)) mod 32] with V = 1. -/
def execMovw (f : EFields) (s : State) : Out :=
  moves (.e 0x61#8 f) f (fun l dx b => l.st.elem ((dx.2 + b.toNat) % 32)) s

/-- BCAST (R180): Copy element B[4:0] to every element of the window. -/
def execBcast (f : EFields) (s : State) : Out := moves (.e 0x64#8 f) f (fun l _ b => l.st.elem (b.toNat % 32)) s

/-- IOTA (R180): Write B + index into elements. -/
def execIota (f : EFields) (s : State) : Out := moves (.e 0x65#8 f) f (fun _ dx b => b + BitVec.ofNat 32 dx.1) s

/-- CLR (R180): Zero an element or a window. -/
def execClr (f : EFields) (s : State) : Out := moves (.e 0x66#8 f) f (fun _ _ _ => 0) s

/-- S_MOV_G (R100): Short mov e0 := gN. -/
def execSMovG (g : BitVec 6) (w : BitVec 3) (s : State) : Out := moves (.short 0x22#6 g w) (shortG g w) (fun _ _ b => b) s

/-- S_MOV_IMM (R100): Short mov e0 of an immediate. -/
def execSMovImm (i : BitVec 6) (w : BitVec 3) (s : State) : Out := moves (.short 0x17#6 i w) (shortI i w) (fun _ _ b => b) s

/-! ## Writing and freeing general registers (R181, R182) -/

/-- A register as a `put` of strand `n` leaves it: present from six cycles after the issue, with k coins or sticky (R23, R26). -/
def GReg.put (n c k : Nat) (v : Word) (know after : List Nat) (fenced : List (Nat × Nat)) (pc : Addr) : GReg :=
  { val := v, p := true, c := BitVec.ofNat 3 k, w := n, visible := c + 6, know := know, after := after, fenced := fenced, pc := pc }

/-- `put` of e[D] to register G of every thread of the bundle (R181). -/
def putReg (fm : Form) (g d k : Nat) (s : State) : Out :=
  .next (s.issueWith fm noCause fun c lanes s =>
    lanes.foldl (fun s l => s.modThread l.gid l.tid fun t =>
      t.setGreg g (.put l.st.n c k (l.st.elem d) l.st.know l.st.after l.st.fenced l.st.pc)) s)

/-- PUT (R181): Write e[D] to general register G with coins or sticky. -/
def execPut (g : BitVec 6) (w : BitVec 3) (d : BitVec 5) (k : BitVec 3) (s : State) : Out :=
  putReg (.e 0x62#8 { mods := none, g := g, w := w, b := .gpr, dst := .one d (0#2 ++ k) }) g.toNat d.toNat k.toNat s

/-- S_PUT_1 (R100): Short put of e0 to gN with one coin. -/
def execSPut1 (g : BitVec 6) (w : BitVec 3) (s : State) : Out := putReg (.short 0x23#6 g w) g.toNat 0 1 s

/-- S_PUT_STICKY (R100): Short put of e0 to gN sticky. -/
def execSPutSticky (g : BitVec 6) (w : BitVec 3) (s : State) : Out := putReg (.short 0x24#6 g w) g.toNat 0 0 s

/-- `drop` of register G of every thread of the bundle: absent at once (R23, R182). -/
def dropReg (fm : Form) (g : Nat) (s : State) : Out :=
  .next (s.issueWith fm noCause fun _ lanes s =>
    lanes.foldl (fun s l => s.modThread l.gid l.tid fun t => t.setGreg g { t.greg g with p := false, c := 0 }) s)

/-- DROP (R182): Clear general register G at once. -/
def execDrop (g : BitVec 6) (w : BitVec 3) (s : State) : Out :=
  dropReg (.e 0x63#8 { mods := none, g := g, w := w, b := .gpr, dst := .one 0 0 }) g.toNat s

/-- S_DROP (R100): Short drop gN. -/
def execSDrop (g : BitVec 6) (w : BitVec 3) (s : State) : Out := dropReg (.short 0x36#6 g w) g.toNat s

/-! ## Special registers (R121, R183 to R185) -/

/-- The ratio word of a die (R92). -/
def State.ratioWord (s : State) (die : Nat) : Word :=
  let g := s.exch.grant
  BitVec.ofNat 32 (packFields [(g.mat.getD die 4, 4), (g.vec.getD die 4, 4), (g.mem, 4), (g.net, 4), (s.exch.seq.toNat, 16)])

/-- WSREF at a TIME (R184, R209). -/
def wsref (time : Nat) : Nat := time / 50 % 64 + 64 * ((time / 50 + 1) * 50 % 2 ^ 58)

/-- ACCSTAT of a strand (R185). -/
def accstat (st : Strand) : Nat := packFields [(st.flags.word.toNat, 8), (st.n, 4), (clusterOf st.n, 3)]

/-- Registers 4 to 18, which a teller reads too (R121, R183, R281). -/
def State.groupReg (s : State) (g : Group) (x : Nat) : Nat :=
  match x with
  | 4 => g.gx | 5 => g.gy | 6 => g.gz | 7 => g.nx | 8 => g.ny | 9 => g.nz
  | 10 => g.id.stage
  | 11 => g.launchId.toNat
  | 12 => g.core
  | 13 => dieOf g.core
  | 14 => s.time % 2 ^ 64
  | 15 => g.cycle % 2 ^ 64
  | 16 => (s.ratioWord (dieOf g.core)).toNat
  | 17 => s.exch.seq.toNat
  | 18 => wsref s.time
  | _ => 0

/-- A special register as a thread reads it (R183). -/
def State.specialReg (s : State) (l : Lane) (x : Nat) : Nat :=
  match x with
  | 0 => laneOf l.tid
  | 1 => l.g.turnOf l.tid
  | 2 => l.tid
  | 3 => crewOf l.tid
  | 19 => accstat l.st
  | x => s.groupReg l.g x

/-- TURN, and CORE to WSREF, are the non-deterministic values that CAPTURE records (R183, R397). -/
def nondeterministic (x : Nat) : Bool := x == 1 || decide (12 ≤ x ∧ x ≤ 18)

/-- SREAD (R183): Read special register X into e[D], and the high word into e[D + 1] for TIME, CYCLE and WSREF. -/
def execSread (w : BitVec 3) (d : BitVec 5) (x : BitVec 5) (s : State) : Out :=
  .next (s.issueWith (.e 0x6C#8 { mods := none, g := 0, w := w, b := .gpr, dst := .one d x }) noCause fun c lanes s =>
    lanes.foldl (fun s l =>
      let live := s.specialReg l x.toNat
      let (v, s) := if nondeterministic x.toNat then
          s.readValue l.gid.launch { col := l.gid.col, stage := l.gid.stage, tid := l.tid, strand := l.st.n } x.toNat live
        else (live, s)
      let low := (d.toNat, BitVec.ofNat 32 v)
      let writes := if isWide x.toNat then [low, (d.toNat + 1, BitVec.ofNat 32 (v / 2 ^ 32))] else [low]
      s.pushPend l { due := c + 4, writes := writes, flags := {}, var := false, pc := l.st.pc }) s)

/-- LEND (R186, R303): Lend the strand's accumulator to the matrix engine; a running command that waits for it claims it. A release:
the command reads its operands after what precedes the `lend`. -/
def execLend (w : BitVec 3) (s : State) : Out :=
  .next (s.issueWith (.e 0x6D#8 { mods := none, g := 0, w := w, b := .gpr, dst := .one 0 0 }) noCause fun _ lanes s =>
    lanes.foldl (fun s l =>
      let before := s.unsettled l.gid l.tid l.st.know l.st.after
      (s.modStrand l.gid l.tid l.st.n fun st => { st with own := .offered, lent := before }).claimLends l.gid) s)

end Sys2Proof.Machine
end

