-- ==== Sys2Proof/Machine/Teller.lean ====
section
/-! DEFINITION. The teller's instructions: 13_teller R255 to R285, but for `push` (Commands) and `rreq` (Exchange). -/

namespace Sys2Proof.Machine

/-! ## Registers and the issue of a teller instruction (R31, R134, R255) -/

/-- A teller register; s0 reads as zero (R31). -/
def Teller.reg (t : Teller) (r : BitVec 6) : Word := if r = 0 then 0 else t.s.getD r.toNat 0
/-- Writes a teller register; a write to s0 is discarded (R31). -/
def Teller.setReg (t : Teller) (r : BitVec 6) (v : Word) : Teller := if r = 0 then t else { t with s := t.s.set r.toNat v }
/-- The pair s[r], s[r + 1] (R255). -/
def Teller.pair (t : Teller) (r : BitVec 6) : BitVec 64 := t.reg (r + 1) ++ t.reg r
/-- The two writes of a pair. -/
def pairWrites (d : BitVec 6) (v : Nat) : List (BitVec 6 × Word) := [(d, BitVec.ofNat 32 v), (d + 1, BitVec.ofNat 32 (v / 2 ^ 32))]

/-- How a teller instruction ends: it completes, with its results, and the next may issue `cycles` teller cycles later; it jumps; it waits
and issues again; it traps; it parks on a translation fault; a request of its own is held, so that it has not issued; or it reaches
memory that does not exist. -/
inductive TEnd where
  | done (s : State) (ws : List (BitVec 6 × Word)) (cycles : Nat)
  | jump (s : State) (target : Addr) (stack : List Addr) (cycles : Nat)
  | wait (s : State) (w : Wait)
  | trap (cls code : Nat) (va : Addr)
  | park (s : State) (cause : Nat) (va : Nat) (w : Want)
  | held
  | absent (pa : Nat)

/-- An illegal-instruction trap of code 0 (R112). -/
def TEnd.illegal : TEnd := .trap 1 0 0

/-- The teller can issue now: nothing waited for, not parked, not done, its column not stopped, and what a barrier has put before it
performed at the homes (R134, R244, R257). -/
def State.tellerReady (s : State) (g : Group) : Bool :=
  !g.teller.isDefault && !g.teller.done && g.teller.wait.isNone && g.teller.parked.isNone && decide (g.teller.ready ≤ s.cycle g.core)
    && !s.drains g.core g.id && !s.stageHeld g.id && s.doneAt g.teller.after 2

/-- The group whose teller the current step issues for. -/
def State.curTeller (s : State) : Option Group :=
  match s.cur with
  | some (.teller gid) =>
    match s.group? gid with
    | some g => if s.tellerReady g then some g else none
    | none => none
  | _ => none

/-- Results reach the registers, and the teller stands at the next word (R32, R255). -/
def Teller.complete (t : Teller) (ws : List (BitVec 6 × Word)) (pc : Addr) (ready : Nat) : Teller :=
  { ws.foldl (fun t w => t.setReg w.1 w.2) t with pc := pc, ready := ready, wait := none }

/-- One teller instruction of the current group. -/
def tellerOp (act : State → Group → TEnd) (s : State) : Out :=
  match s.curTeller with
  | none => .next s
  | some g =>
    let c := s.cycle g.core
    match act s g with
    | .done s ws n => .next (s.modTeller g.id fun t => t.complete ws (t.pc + 4) (c + n))
    | .jump s target stack n => .next (s.modTeller g.id fun t => { t.complete [] target (c + n) with rstack := stack })
    | .wait s w => .next (s.modTeller g.id fun t => { t with wait := some w })
    | .trap cls code va => .next (s.takeTrap g.id (Trap.ofTeller cls code g.id g.teller.pc va))
    | .park s cause va w =>
      let (fid, s) := s.record g.id g.ctx va cause 4 w
      .next (s.modTeller g.id fun t => { t with parked := some fid })
    | .held => .next s
    | .absent pa => .fault (.noSuchMemory pa)

/-! ## Scalar arithmetic (R258 to R260) -/

/-- s[SD] := f(s[SA], s[SB]) in a number of teller cycles (R258). -/
def tal (d a b : BitVec 6) (cycles : Nat) (f : Word → Word → Word) (s : State) : Out :=
  tellerOp (fun s g => .done s [(d, f (g.teller.reg a) (g.teller.reg b))] cycles) s

/-- 1 or 0. -/
def flagWord (b : Bool) : Word := if b then 1 else 0

/-- TAL_ADD (R258): s[SD] := a + b mod 2^32. -/
def execTalAdd (d a b : BitVec 6) (s : State) : Out := tal d a b 1 (· + ·) s
/-- TAL_SUB (R258): s[SD] := a - b mod 2^32. -/
def execTalSub (d a b : BitVec 6) (s : State) : Out := tal d a b 1 (· - ·) s
/-- TAL_MUL (R258): s[SD] := a * b, low 32 bits. -/
def execTalMul (d a b : BitVec 6) (s : State) : Out := tal d a b 3 (· * ·) s
/-- TAL_MULHS (R258): Signed high product. -/
def execTalMulhs (d a b : BitVec 6) (s : State) : Out := tal d a b 3 (fun x y => BitVec.ofInt 32 (x.toInt * y.toInt / 2 ^ 32)) s
/-- TAL_AND (R258): Bitwise and. -/
def execTalAnd (d a b : BitVec 6) (s : State) : Out := tal d a b 1 (· &&& ·) s
/-- TAL_OR (R258): Bitwise or. -/
def execTalOr (d a b : BitVec 6) (s : State) : Out := tal d a b 1 (· ||| ·) s
/-- TAL_XOR (R258): Bitwise xor. -/
def execTalXor (d a b : BitVec 6) (s : State) : Out := tal d a b 1 (· ^^^ ·) s
/-- TAL_SHL (R258): Shift left by b[4:0]. -/
def execTalShl (d a b : BitVec 6) (s : State) : Out := tal d a b 1 (fun x y => x <<< (y.toNat % 32)) s
/-- TAL_SHRN (R258): Unsigned shift right. -/
def execTalShrn (d a b : BitVec 6) (s : State) : Out := tal d a b 1 (fun x y => x >>> (y.toNat % 32)) s
/-- TAL_SHRS (R258): Signed shift right. -/
def execTalShrs (d a b : BitVec 6) (s : State) : Out := tal d a b 1 (fun x y => x.sshiftRight (y.toNat % 32)) s
/-- TAL_MINS (R258): Signed minimum. -/
def execTalMins (d a b : BitVec 6) (s : State) : Out := tal d a b 1 (fun x y => if x.sle y then x else y) s
/-- TAL_MAXS (R258): Signed maximum. -/
def execTalMaxs (d a b : BitVec 6) (s : State) : Out := tal d a b 1 (fun x y => if x.sle y then y else x) s
/-- TAL_MINN (R258): Unsigned minimum. -/
def execTalMinn (d a b : BitVec 6) (s : State) : Out := tal d a b 1 (fun x y => if x.ule y then x else y) s
/-- TAL_MAXN (R258): Unsigned maximum. -/
def execTalMaxn (d a b : BitVec 6) (s : State) : Out := tal d a b 1 (fun x y => if x.ule y then y else x) s
/-- TAL_SLT (R258): Signed less-than. -/
def execTalSlt (d a b : BitVec 6) (s : State) : Out := tal d a b 1 (fun x y => flagWord (x.slt y)) s
/-- TAL_SLTN (R258): Unsigned less-than. -/
def execTalSltn (d a b : BitVec 6) (s : State) : Out := tal d a b 1 (fun x y => flagWord (x.ult y)) s

/-- s[SD] := f(s[SA]) in one teller cycle (R259). -/
def talImm (d a : BitVec 6) (f : Word → Word) (s : State) : Out := tellerOp (fun s g => .done s [(d, f (g.teller.reg a))] 1) s

/-- TADDI (R259): Add sign-extended immediate. -/
def execTaddi (d a : BitVec 6) (i : BitVec 12) (s : State) : Out := talImm d a (· + i.signExtend 32) s
/-- TANDI (R259): And zero-extended immediate. -/
def execTandi (d a : BitVec 6) (i : BitVec 12) (s : State) : Out := talImm d a (· &&& i.setWidth 32) s
/-- TORI (R259): Or zero-extended immediate. -/
def execTori (d a : BitVec 6) (i : BitVec 12) (s : State) : Out := talImm d a (· ||| i.setWidth 32) s
/-- TXORI (R259): Xor zero-extended immediate. -/
def execTxori (d a : BitVec 6) (i : BitVec 12) (s : State) : Out := talImm d a (· ^^^ i.setWidth 32) s
/-- TSHLI (R259): Shift left by immediate. -/
def execTshli (d a : BitVec 6) (i : BitVec 5) (s : State) : Out := talImm d a (· <<< i.toNat) s
/-- TSHRI (R259): Unsigned shift right by immediate. -/
def execTshri (d a : BitVec 6) (i : BitVec 5) (s : State) : Out := talImm d a (· >>> i.toNat) s
/-- TSLTI (R259): Signed less-than immediate. -/
def execTslti (d a : BitVec 6) (i : BitVec 12) (s : State) : Out := talImm d a (fun x => flagWord (x.slt (i.signExtend 32))) s
/-- TLUI (R260): Shift an 18-bit value into s[SD]. -/
def execTlui (d : BitVec 6) (i : BitVec 18) (s : State) : Out :=
  tellerOp (fun s g => .done s [(d, (g.teller.reg d <<< 18) + i.setWidth 32)] 1) s

/-! ## Control flow (R261, R262) -/

/-- PC + 4 × a word offset. -/
def tellerTarget (pc : Addr) (o : Int) : Addr := pc + BitVec.ofInt 64 (4 * o)

/-- A conditional branch: 2 teller cycles when taken, 1 when not (R261). -/
def tellerBranch (a b : BitVec 6) (o : BitVec 12) (p : Word → Word → Bool) (s : State) : Out :=
  tellerOp (fun s g =>
    if p (g.teller.reg a) (g.teller.reg b) then .jump s (tellerTarget g.teller.pc o.toInt) g.teller.rstack 2 else .done s [] 1) s

/-- TBEQ (R261): Branch when equal. -/
def execTbeq (a b : BitVec 6) (o : BitVec 12) (s : State) : Out := tellerBranch a b o (· == ·) s
/-- TBNE (R261): Branch when not equal. -/
def execTbne (a b : BitVec 6) (o : BitVec 12) (s : State) : Out := tellerBranch a b o (· != ·) s
/-- TBLT (R261): Branch when signed less. -/
def execTblt (a b : BitVec 6) (o : BitVec 12) (s : State) : Out := tellerBranch a b o (fun x y => x.slt y) s
/-- TBGE (R261): Branch when signed greater or equal. -/
def execTbge (a b : BitVec 6) (o : BitVec 12) (s : State) : Out := tellerBranch a b o (fun x y => y.sle x) s
/-- TJMP (R262): Jump. -/
def execTjmp (o : BitVec 18) (s : State) : Out :=
  tellerOp (fun s g => .jump s (tellerTarget g.teller.pc o.toInt) g.teller.rstack 2) s
/-- TCALL (R262): Call, pushing PC + 4 on the teller's return stack; a ninth entry overflows. -/
def execTcall (o : BitVec 18) (s : State) : Out :=
  tellerOp (fun s g =>
    if 8 ≤ g.teller.rstack.length then .trap 6 1 0
    else .jump s (tellerTarget g.teller.pc o.toInt) ((g.teller.pc + 4) :: g.teller.rstack) 2) s
/-- TRET (R262): Return; an empty stack underflows. -/
def execTret (s : State) : Out :=
  tellerOp (fun s g =>
    match g.teller.rstack with
    | [] => .trap 6 2 0
    | pc :: rest => .jump s pc rest 2) s

/-! ## Teller addresses (R256) -/

/-- Where a teller address lies: a virtual address, an offset of the column's window, or outside the window whatever its size. -/
inductive TAddr where
  | glob (va : Addr)
  | window (off : Nat)
  | outside
  deriving DecidableEq, Repr

/-- The teller address of a pair plus a byte offset, which is added to OFFSET before the segment is applied (R256). -/
def teleAddr (seg : List Addr) (pair : BitVec 64) (add : Int) : TAddr :=
  let k := (pair.extractLsb' 61 3).toNat
  let off : Nat := pair.toNat % 2 ^ 61
  if k = 7 then (if off / 2 ^ 32 ≠ 0 then .outside else .window (((off : Int) + add) % (2 ^ 32 : Int)).toNat)
  else .glob (seg.getD k 0 + BitVec.ofNat 64 (((off : Int) + add) % (2 ^ 61 : Int)).toNat)

/-- The end of a teller instruction whose access was not served (R219, R228). -/
def Denied.tend (d : Denied) (s : State) (w : Want) : TEnd :=
  match d with
  | .walk c va => .park s c va w
  | .absent pa => .absent pa
  | .frozen va => .trap 4 1 (BitVec.ofNat 64 va)
  | .shadow va => .trap 4 2 (BitVec.ofNat 64 va)
  | .wstore va => .trap 4 5 (BitVec.ofNat 64 va)
  | .unavailable va => .trap 4 13 (BitVec.ofNat 64 va)
  | .held => .held

/-- The unloaded vector cycles of an access at nominal ratios that the homes serve from a state (R132, R211). -/
def State.tierCycles (s : State) (core asid va : Nat) (p : Place) : Nat :=
  let near := homeSlice (va / 128) / 48 == dieOf core
  if (s.l2? asid (va / 128)).isSome then (if near then 160 else 290)
  else
    let walk := if (s.tlb? (controllerOf va) asid va).isSome then 0 else 900
    walk + match p with
      | .wstore pa => if pa / Config.weightBytes = dieOf core then 220 else 350
      | .lpddr pa => if controllerOf va = controllerOf pa then 620 else 640
      | .host _ => 900
      | .remote _ _ _ => 2600

/-- The TID under which a teller's access waits for its acknowledgement; no thread has it (R10). -/
def tellerTid : Nat := 512
/-- A teller's access that has changed memory is performed at device scope and not acknowledged yet (R241, R265). -/
def State.owedAck (s : State) (g : Group) (va n : Nat) : State :=
  let a : Acc :=
    { id := s.nextId, bundle := s.nextId, gid := g.id, tid := tellerTid, n := 0, seq := 0, know := [], after := [], fenced := [], units := [], pins := [], vec := false,
      pc := g.teller.pc, coin := none, core := g.core, ctx := g.ctx, asid := (s.ctxAt g.ctx).asid, seg7 := false,
      va := BitVec.ofNat 64 va, size := n, kind := .store [], scope := .dev, order := .relaxed, hint := .normal, st := .performed 2,
      got := [], cont := g.teller.pc, at_ := s.cycle g.core, since := s.cycle g.core }
  { s with accs := s.accs ++ [a], nextId := s.nextId + 1 }

/-- What a teller access of `n` aligned bytes does at its place: read, write, or read and rewrite in one step (R263, R264). -/
inductive TellerAct where
  | load
  | store (bs : List Byte)
  | atomic (f : List Byte → List Byte) (kind : RemoteKind)

/-- What it needs of the leaf (R216). -/
def TellerAct.want (k : TellerAct) : Want := match k with | .load => .load | .store _ => .store | .atomic _ _ => .atomic
/-- The type of its hotness record (R222). -/
def TellerAct.hotType (k : TellerAct) : Nat := match k with | .load => 0 | .store _ => 1 | .atomic _ _ => 2

/-- It changes memory. -/
def TellerAct.writes (k : TellerAct) : Bool := match k with | .load => false | _ => true
/-- A write of a core to a line, issued before and not performed yet: a teller's write to the line goes after it (R334). -/
def State.writesAhead (s : State) (core asid line : Nat) : Bool :=
  s.accs.any fun b => b.core == core && b.asid == asid && b.toHome && b.isOpen && b.onLine line
/-- An acquire by a teller: what its core's L1 holds for its column precedes what it does next (R265, R272, R273, log 140). -/
def State.tellerAcquire (s : State) (g : Group) : State :=
  s.modTeller g.id fun t => { t with after := t.after ++ s.heldInL1 g.id.column }

/-- A teller access at its home: steps 3 to 5 of R228, then the access; the old bytes, the cycles it takes, and the state it leaves, in
which a change of memory waits for its acknowledgement (R134, R263 to R265). A write waits for the earlier ones of its core to the line
(R334). -/
def State.tellerGlobal (s : State) (g : Group) (va n : Nat) (k : TellerAct) : Except Denied (List Byte × Nat × State) :=
  if k.writes && s.writesAhead g.core (s.ctxAt g.ctx).asid (va / 128) then .error .held
  else
  match s.sites g.ctx k.want { core := some g.core } [(va, n)] with
  | .error d => .error d
  | .ok (x :: _, t) =>
    let cycles := match t.placeOf x with | some p => s.tierCycles g.core (s.ctxAt g.ctx).asid va p | none => 0
    let t := t.sampleSites s g.ctx g.core k.hotType k.want (some g.core) (some (g.id.launch, GroupId.tellerReader g.id)) [x]
    match k with
    | .load => let r := t.readSite x.1 va n; .ok (r.1, cycles, r.2.tellerAcquire g)
    | .store bs => .ok ([], cycles, (t.writeSite x.1 va bs).owedAck g va n)
    | .atomic f kind => let r := t.updateSite x.1 va n f (some kind); .ok (r.1, cycles + 8, (r.2.owedAck g va n).tellerAcquire g)
  | .ok ([], t) => .ok ([], 0, t)

/-- A teller access at an offset of its window: the old bytes, the cycles it takes, the state it leaves (R132, R263, R264). -/
def State.tellerBank (s : State) (g : Group) (off n : Nat) (k : TellerAct) : List Byte × Nat × State :=
  let old := s.mems.scratchRead g.core (g.wbase + off) n
  let put (bs : List Byte) : State := { s with mems := s.mems.scratchWrite g.core (g.wbase + off) bs }
  match k with
  | .load => (old, 20, s)
  | .store bs => ([], 20, put bs)
  | .atomic f _ => (old, 24, put (f old))

/-- A teller access of `n` bytes: step 2 of R228, then the window's bank or the home. `done` completes with the old bytes. Of the span
that R265 leaves open the access takes effect at its issue (log 126). -/
def tellerAccess (a : BitVec 6) (add : BitVec 6) (n : Nat) (k : Group → TellerAct) (done : List Byte → List (BitVec 6 × Word)) (s : State) :
    Out :=
  tellerOp (fun s g =>
    let va (x : Nat) : Addr := BitVec.ofNat 64 x
    match teleAddr g.seg (g.teller.pair a) (g.teller.reg add).toNat with
    | .outside => .trap 4 6 (va ((g.teller.pair a).toNat % 2 ^ 61))
    | .window off =>
      if g.wsize < off + n then .trap 4 6 (va off)
      else if off % n ≠ 0 then .trap 4 3 (va off)
      else let r := s.tellerBank g off n (k g); .done r.2.2 (done r.1) r.2.1
    | .glob x =>
      if x.toNat % n ≠ 0 then .trap 4 3 x
      else
        match s.tellerGlobal g x.toNat n (k g) with
        | .error d => d.tend s (k g).want
        | .ok (old, cycles, s) => .done s (done old) cycles) s

/-- TLD (R263): Teller load of a word. -/
def execTld (d a b : BitVec 6) (s : State) : Out := tellerAccess a b 4 (fun _ => .load) (fun bs => [(d, wordOf bs)]) s
/-- TLD_D (R263): Teller load of 8 bytes to a pair. -/
def execTldD (d a b : BitVec 6) (s : State) : Out := tellerAccess a b 8 (fun _ => .load) (fun bs => pairWrites d (leNat bs)) s
/-- TST (R263): Teller store of a word. -/
def execTst (d a b : BitVec 6) (s : State) : Out :=
  tellerAccess a b 4 (fun g => .store (wordBytes (g.teller.reg d))) (fun _ => []) s
/-- TST_D (R263): Teller store of a pair. -/
def execTstD (d a b : BitVec 6) (s : State) : Out :=
  tellerAccess a b 8 (fun g => .store (leBytes 8 (g.teller.pair d).toNat)) (fun _ => []) s

/-- `tatom`: v = s[SB], the old word to s[SD] (R264). -/
def tatomAct (op : AtomOp) (v : Word) : TellerAct := .atomic (fun bs => wordBytes (atomResult op (wordOf bs) v)) (.atom op v)
/-- `tatom.cas`: s[SD] as read at issue when the word equals s[SB] (R264). -/
def tatomCasAct (v new : Word) : TellerAct :=
  .atomic (fun bs => if wordOf bs = v then wordBytes new else bs) (.cas v.toNat new.toNat 4)
/-- A teller atomic: the old word to s[SD]. -/
def tatom (d a : BitVec 6) (k : Group → TellerAct) (s : State) : Out := tellerAccess a 0 4 k (fun bs => [(d, wordOf bs)]) s

/-- TATOM_ADD (R264): Teller atomic add. -/
def execTatomAdd (d a b : BitVec 6) (s : State) : Out := tatom d a (fun g => tatomAct .add (g.teller.reg b)) s
/-- TATOM_AND (R264): Teller atomic and. -/
def execTatomAnd (d a b : BitVec 6) (s : State) : Out := tatom d a (fun g => tatomAct .and (g.teller.reg b)) s
/-- TATOM_OR (R264): Teller atomic or. -/
def execTatomOr (d a b : BitVec 6) (s : State) : Out := tatom d a (fun g => tatomAct .or (g.teller.reg b)) s
/-- TATOM_XOR (R264): Teller atomic xor. -/
def execTatomXor (d a b : BitVec 6) (s : State) : Out := tatom d a (fun g => tatomAct .xor (g.teller.reg b)) s
/-- TATOM_MINS (R264): Teller atomic signed minimum. -/
def execTatomMins (d a b : BitVec 6) (s : State) : Out := tatom d a (fun g => tatomAct .mins (g.teller.reg b)) s
/-- TATOM_MAXS (R264): Teller atomic signed maximum. -/
def execTatomMaxs (d a b : BitVec 6) (s : State) : Out := tatom d a (fun g => tatomAct .maxs (g.teller.reg b)) s
/-- TATOM_MINN (R264): Teller atomic unsigned minimum. -/
def execTatomMinn (d a b : BitVec 6) (s : State) : Out := tatom d a (fun g => tatomAct .minn (g.teller.reg b)) s
/-- TATOM_MAXN (R264): Teller atomic unsigned maximum. -/
def execTatomMaxn (d a b : BitVec 6) (s : State) : Out := tatom d a (fun g => tatomAct .maxn (g.teller.reg b)) s
/-- TATOM_XCHG (R264): Teller atomic exchange. -/
def execTatomXchg (d a b : BitVec 6) (s : State) : Out := tatom d a (fun g => tatomAct .xchg (g.teller.reg b)) s
/-- TATOM_CAS (R264): Compare with s[SB]; when equal write s[SD] as read at issue. -/
def execTatomCas (d a b : BitVec 6) (s : State) : Out := tatom d a (fun g => tatomCasAct (g.teller.reg b) (g.teller.reg d)) s

/-- A fence of group or device scope: the teller's accesses are performed there one at a time, each before the next instruction, so that
nothing is left to wait for (R265). -/
def tellerFence (s : State) : Out := tellerOp (fun s _ => .done s [] 1) s

/-- TFENCE_GRP (R265): Group fence. -/
def execTfenceGrp (s : State) : Out := tellerFence s
/-- TFENCE_DEV (R265): Device fence. -/
def execTfenceDev (s : State) : Out := tellerFence s
/-- Some access of a group's teller has not been acknowledged (R265). -/
def State.unacked (s : State) (g : GroupId) : Bool := s.accs.any fun a => a.gid == g && a.tid == tellerTid
/-- TFENCE_SYS (R265): System fence: every earlier access has been acknowledged. -/
def execTfenceSys (s : State) : Out := tellerOp (fun s g => if s.unacked g.id then .wait s .acks else .done s [] 1) s

/-! ## Queue room and the decision queue (R268, R269) -/

/-- A command pushed with HELD, which takes no entry of its queue (R286, R309). -/
def Cmd.isHeld (c : Cmd) : Bool := (c.words.getD 0 0).getLsbD 8
/-- Entries of a core's queue in use (R288). -/
def State.queueUsed (s : State) (core q : Nat) : Nat := (s.cmds.filter fun c => c.core == core && c.queue == q && !c.isHeld).length

/-- TQWAIT (R268): Wait until an engine queue has room. -/
def execTqwait (i : BitVec 12) (s : State) : Out :=
  tellerOp (fun s g =>
    if 6 < i.toNat then .illegal
    else if s.queueUsed g.core i.toNat < 16 then .done s [] 1 else .wait s (.queue i.toNat)) s

/-- DQPUT (R269): Append a decision-queue entry with a reader count, once the queue has room. -/
def execDqput (a b : BitVec 6) (s : State) : Out :=
  tellerOp (fun s g =>
    let n := (g.teller.reg b).toNat
    if n = 0 ∨ 8192 < n ∨ g.kernel.dqd = 0 then .illegal
    else if g.kernel.dqd ≤ g.dq.length then .wait s .dqRoom
    else
      .done (s.modGroup g.id fun x =>
        { x with dq := x.dq ++ [{ seq := x.dqNext, value := g.teller.reg a, readers := n }], dqNext := x.dqNext + 1 }) [] 1) s

/-! ## Events (R270 to R272) -/

/-- `evwait`: the selected wake bits, cleared by the `.clr` form; an acquire (R249, R272). -/
def eventWait (d a : BitVec 6) (clear : Bool) (s : State) : Out :=
  tellerOp (fun s g =>
    let mask := g.teller.reg a
    if mask.toNat % 2 ^ 16 = 0 ∨ mask.toNat / 2 ^ 16 ≠ 0 then .illegal
    else
      let hit := g.teller.wake &&& mask.setWidth 16
      if hit = 0 then .wait s (.wake (mask.setWidth 16))
      else
        .done ((if clear then s.modTeller g.id fun t => { t with wake := t.wake &&& ~~~hit } else s).tellerAcquire g) [(d, hit.setWidth 32)] 1) s

/-- EVWAIT (R272): Wait for masked wake bits. -/
def execEvwait (d a : BitVec 6) (s : State) : Out := eventWait d a false s
/-- EVWAIT_CLR (R272): Wait for masked wake bits and clear those returned. -/
def execEvwaitClr (d a : BitVec 6) (s : State) : Out := eventWait d a true s

/-- COUNT of a route word (R271). -/
def routeCount (w : Word) : Nat := (w.extractLsb' 16 12).toNat
/-- DEST of a route word (R271). -/
def routeDest (w : Word) : Nat := (w.extractLsb' 28 4).toNat

/-- An output fires as often as its counter holds COUNT: it sets its wake bit, or adds start credits, which saturate (R310). -/
def State.fire (s : State) (core out : Nat) : State :=
  match s.routes.find? fun r => r.core == core && r.out == out with
  | none => s
  | some r =>
    let n := routeCount r.word
    if n = 0 ∨ r.count < n then s
    else
      let s := { s with routes := updWhere (fun x => x.core == core && x.out == out) (fun x => { x with count := x.count % n }) s.routes }
      let dest := routeDest r.word
      if dest = 0 then s.modTeller r.gid fun t => { t with wake := t.wake ||| (1#16 <<< out) }
      else s.modGroup r.gid fun g => { g with credits := g.credits.modify (dest - 8) fun v => min 65535 (v + r.count / n) }

/-- EVROUTE (R271): Program or release an event-matrix output; what its counter has reached fires first. -/
def execEvroute (a b : BitVec 6) (s : State) : Out :=
  tellerOp (fun s g =>
    let out := (g.teller.reg a).toNat
    let w := g.teller.reg b
    let dest := routeDest w
    if 15 ≤ out ∨ w.getLsbD 15 ∨ (dest ≠ 0 ∧ dest < 8) ∨ dest = 15 then .illegal
    else if s.routes.any fun r => r.core == g.core && r.out == out && r.gid != g.id then .trap 1 4 0
    else if 8 ≤ dest ∧ !g.pushed.getLsbD (dest - 8) then .trap 1 6 0
    else
      let s := s.fire g.core out
      let rest := s.routes.filter fun r => !(r.core == g.core && r.out == out)
      let new : List Route := if routeCount w = 0 then [] else [{ core := g.core, out := out, gid := g.id, word := w, count := 0 }]
      .done { s with routes := rest ++ new } [] 1) s

/-- An output's counter has reached COUNT (R310). -/
def Route.fires (r : Route) : Bool := routeCount r.word != 0 && decide (routeCount r.word ≤ r.count)

/-- EVENT_FIRE (R310): An output whose counter has reached COUNT fires. -/
def execEventFire (core out : Nat) (s : State) : Out := .next (s.fire core out)

/-! ## Sync words (R273) -/

/-- The memory-model fault of a teller's sync-word offset (R226, R227, R273). -/
def syncOffset (g : Group) (off : Word) : Option Nat :=
  if g.wsize < off.toNat + 16 then some 6 else if off.toNat % 16 ≠ 0 then some 3 else none

/-- TSEXP (R273): Add to a sync word's TARGET; a sync word fault stops the group, its teller past the instruction (R246, R367). -/
def execTsexp (a b : BitVec 6) (s : State) : Out :=
  tellerOp (fun s g =>
    let off := g.teller.reg a
    match syncOffset g off with
    | some code => .trap 4 code (off.setWidth 64)
    | none =>
      let r := s.syncUpdate g.core (g.wbase + off.toNat) (g.teller.reg b) 0
      .done (if r.2 then r.1.takeTrap g.id { Trap.ofTeller 5 0 g.id g.teller.pc with atIssue := false } else r.1) [] 24) s

/-- TSWAIT (R273): Wait until GEN differs, then read GEN; an acquire (R248). -/
def execTswait (d a b : BitVec 6) (s : State) : Out :=
  tellerOp (fun s g =>
    let off := g.teller.reg a
    match syncOffset g off with
    | some code => .trap 4 code (off.setWidth 64)
    | none =>
      let gen := s.syncGen g off.toNat
      if gen = g.teller.reg b then .wait s (.gen off (g.teller.reg b)) else .done (s.tellerAcquire g) [(d, gen)] 20) s

/-! ## Freezing, thawing and publishing: the teller's side (R274 to R276) -/

/-- A range of pages of a context meets an open shadow pair or a software-managed region (R274). -/
def State.rangeBusy (s : State) (ctx base pages : Nat) : Bool :=
  let meets (b n : Nat) : Bool := decide (b < base + pages * 4096 ∧ base < b + n)
  (s.shadows.any fun p => p.ctx == ctx && (meets p.dst (p.pages * 4096) || meets p.shd (p.pages * 4096)))
    || s.swm.any fun r => r.ctx == ctx && meets r.base (2 ^ 21)

/-- FRZ (R274): Freeze pages; the request goes to the coordinator, and the teller is blocked until the freeze has completed. -/
def execFrz (d a b : BitVec 6) (s : State) : Out :=
  tellerOp (fun s g =>
    let pages := (g.teller.reg b).toNat
    match teleAddr g.seg (g.teller.pair a) 0 with
    | .glob va =>
      let base := va.toNat
      if base % 4096 ≠ 0 ∨ pages = 0 ∨ 2 ^ 20 < pages ∨ 2 ^ 57 < base + pages * 4096 ∨ s.rangeBusy g.ctx base pages then .trap 4 9 va
      else
        let q : FrzReq := { id := s.nextId, gid := some g.id, asid := (s.ctxAt g.ctx).asid, vpn := base / 4096, pages := pages,
                            chip := s.chip, sent := false }
        .wait { s with frzReqs := s.frzReqs ++ [q], nextId := s.nextId + 1 } (.freeze d q.id)
    | _ => .trap 4 9 0) s

/-- THAW (R275): Lower a freeze's nesting count; at 0 the thaw goes to the coordinator. -/
def execThaw (a : BitVec 6) (s : State) : Out :=
  tellerOp (fun s g =>
    let id := (g.teller.reg a).toNat
    let asid := (s.ctxAt g.ctx).asid
    match s.freezes.find? fun f => f.id == id && f.asid == asid && (f.st == .freezing || f.st == .active) && f.count != 0 with
    | none => .trap 4 11 0
    | some f => .done (s.lowerCount f false) [] 1) s

/-- A thaw of the id is in progress (R275). -/
def State.thawing (s : State) (id : Nat) : Bool := s.freezes.any fun f => f.id == id && f.count == 0

/-- THWAIT (R275): Wait until no thaw of an id is in progress. -/
def execThwait (a : BitVec 6) (s : State) : Out :=
  tellerOp (fun s g =>
    let id := (g.teller.reg a).toNat
    if s.thawing id then .wait s (.thawed id) else .done s [] 1) s

/-- Commands not complete whose destination lies in a pair are waited for by its publication (R313). -/
def State.beginPublish (s : State) (p : Shadow) (waitFor : List Nat) : State :=
  { s with shadows := updWhere (fun x => x.ctx == p.ctx && x.id == p.id) (fun x => { x with publishing := true, waitFor := waitFor }) s.shadows }

/-! ## Formats and modes (R277, R278) -/

/-- A change of the formats or the mode of a group on cycle `c`: what issues on that cycle reads the old ones (R143, R174). -/
def Group.reformat (g : Group) (c : Nat) (nf : List Word) (sf : Bool) : Group :=
  { g with nf := nf, sfmode := sf, nfOld := if g.fmtAt == c then g.nfOld else g.nf, sfOld := if g.fmtAt == c then g.sfOld else g.sfmode,
           fmtAt := c }

/-- Writes a format register, once the word is legal and its feature available (R46, R141). -/
def writeFormat (k : BitVec 3) (w : Word) (s : State) (g : Group) : TEnd :=
  if !fmtLegal w then .illegal
  else if w.getLsbD 18 && !Config.available 7 then .trap 1 7 0
  else .done (s.modGroup g.id fun g => g.reformat (s.cycle g.core) (g.nf.set k.toNat w) g.sfmode) [] 1

/-- SETFMT (R277): Write a whole format register. -/
def execSetfmt (a : BitVec 6) (k : BitVec 3) (s : State) : Out := tellerOp (fun s g => writeFormat k (g.teller.reg a) s g) s

/-- SETXV (R277): Write only XV_EN and XV of a format register. -/
def execSetxv (a : BitVec 6) (k : BitVec 3) (s : State) : Out :=
  tellerOp (fun s g =>
    let v := g.teller.reg a
    let old := g.nf.getD k.toNat fmtReset
    if v.toNat / 2 ^ 9 ≠ 0 then .illegal
    else writeFormat k ((old &&& ~~~0x07FC0000#32) ||| ((v &&& 0x100#32) <<< 10) ||| ((v &&& 0xFF#32) <<< 19)) s g) s

/-- SFMODE (R278): Set the group's special-function mode. -/
def execSfmode (m : BitVec 1) (s : State) : Out :=
  tellerOp (fun s g => .done (s.modGroup g.id fun g => g.reformat (s.cycle g.core) g.nf (m == 1#1)) [] 1) s

/-! ## Clocks, identity, barriers, completion (R279 to R284) -/

/-- A value that CAPTURE records, as the teller reads it (R397). -/
def State.tellerValue (s : State) (g : Group) (src live : Nat) : Nat × State :=
  s.readValue g.id.launch (GroupId.tellerReader g.id) src live

/-- RATIO (R279): Read the ratio word. -/
def execRatio (d : BitVec 6) (s : State) : Out :=
  tellerOp (fun s g =>
    let r := s.tellerValue g 24 (s.ratioWord (dieOf g.core)).toNat
    .done r.2 [(d, BitVec.ofNat 32 r.1)] 1) s

/-- TREAD (R281): Read a special register to the teller; those of a thread or an accumulator, and the numbers excluded, are illegal. -/
def execTread (d : BitVec 6) (n : BitVec 18) (s : State) : Out :=
  tellerOp (fun s g =>
    let x := n.toNat
    if x < 4 ∨ 18 < x then .illegal
    else
      let live := s.groupReg g x
      let (v, s) := if nondeterministic x then s.tellerValue g x live else (live, s)
      .done s (if isWide x then pairWrites d v else [(d, BitVec.ofNat 32 v)]) 1) s

/-- The teller's arrival at a barrier, with a wait for the phase in the sync variant (R280). -/
def tellerBarrier (a : BitVec 6) (b : BitVec 4) (sync : Bool) (s : State) : Out :=
  tellerOp (fun s g =>
    let n := (g.teller.reg a).toNat
    let b := b.toNat
    if n = 0 ∨ 511 < n ∨ g.kernel.nbar ≤ b then .illegal
    else if (g.bar b).tarr then .wait s (.arrival b)
    else
      let s := s.trace g 2 b 0 true 0 g.teller.pc
      match s.arrive g.id b n false fun x => { x with tarr := true, twait := sync } with
      | .trap code => .trap 1 code 0
      | .ok s =>
        let waits := match s.group? g.id with | some g => (g.bar b).twait | none => false
        if sync && waits then .wait s (.barrier b) else .done s [] 1) s

/-- TBAR_ARV (R280): Arrive at a barrier with a count. -/
def execTbarArv (a : BitVec 6) (b : BitVec 4) (s : State) : Out := tellerBarrier a b false s
/-- TBAR_SYNC (R280): Arrive at a barrier and wait for the phase to end. -/
def execTbarSync (a : BitVec 6) (b : BitVec 4) (s : State) : Out := tellerBarrier a b true s

/-- GDONE (R35, R282): Complete the group once every thread has retired; the teller issues nothing after it. -/
def execGdone (s : State) : Out := tellerOp (fun s _ => .wait s .threads) s

/-- TTRAP (R283): Software trap stopping the group precisely. -/
def execTtrap (c : BitVec 13) (s : State) : Out := tellerOp (fun _ _ => .trap 8 c.toNat 0) s

/-- TNOP (R284): One teller cycle, no effect. -/
def execTnop (s : State) : Out := tellerOp (fun s _ => .done s [] 1) s

/-- ILLEGAL_TELLER_WORD (R112): A teller word that decodes to no instruction traps at issue; the teller stands at it. -/
def execIllegalTellerWord (_word : Word) (s : State) : Out := tellerOp (fun _ _ => .illegal) s

/-! ## The end of a wait (R257) -/

/-- A teller's wait is over. -/
def State.waitOver (s : State) (g : Group) (w : Wait) : Bool :=
  match w with
  | .queue q => decide (s.queueUsed g.core q < 16)
  | .dqRoom => decide (g.dq.length < g.kernel.dqd)
  | .wake mask => g.teller.wake &&& mask != 0
  | .gen off gen => s.syncGen g off.toNat != gen
  | .freeze _ _ => false
  | .frozen _ id => !s.freezes.any fun f => f.id == id && f.st == .freezing
  | .thawed id => !s.thawing id
  | .published id => !(s.shadows.any fun p => p.ctx == g.ctx && p.id == id)
  | .barrier b => !(g.bar b).twait
  | .arrival b => !(g.bar b).tarr
  | .acks => !s.unacked g.id
  | .threads => g.threads.all (·.retired) && (s.stopOf g.id.column).isNone

/-- TELLER_WAKE (R257): A teller's wait condition holds. One that waited for a completion goes on after its instruction, `gdone` is done,
and any other issues its instruction again. -/
def execTellerWake (gid : GroupId) (s : State) : Out :=
  match s.group? gid with
  | none => .next s
  | some g =>
    match g.teller.wait with
    | none => .next s
    | some w =>
      if !s.waitOver g w then .next s
      else
        let finish (s : State) (ws : List (BitVec 6 × Word)) : State :=
          s.modTeller gid fun t => t.complete ws (t.pc + 4) (s.cycle g.core + 1)
        match w with
        | .frozen d id => let r := s.tellerValue g 25 id; .next (finish r.2 [(d, BitVec.ofNat 32 r.1)])
        | .published _ => .next (finish s [])
        | .barrier _ => .next (finish s [])
        | .threads => .next (s.modTeller gid fun t => { t with done := true, wait := none })
        | _ => .next (s.modTeller gid fun t => { t with wait := none })

end Sys2Proof.Machine
end

