-- ==== Sys2Proof/Machine/Commands.lean ====
section
/-! DEFINITION. Engine commands: their fields and checks, acceptance, start, faults and parking, publication, completion:
14_engines R286 to R290, R293, R300 to R303, R309 to R313; 13_teller R267, R276. -/

namespace Sys2Proof.Machine

/-! ## Fields (R286, R291, R301) -/

/-- The widths and the kind of a matrix operand (R302): w, whether it is an integer, and the float format. -/
structure OpFmt where
  w : Nat
  int : Bool
  fmt : Fmt
  deriving DecidableEq, Repr

/-- The operand format of a code, `word` being the snapshotted word of nfK (R302). -/
def opFmt (code : Nat) (word : Word) : OpFmt :=
  match code with
  | 0 => { w := 16, int := false, fmt := bf16 }
  | 1 => { w := 16, int := false, fmt := fp16 }
  | 2 => { w := 8, int := false, fmt := e4m3 }
  | 3 => { w := 8, int := false, fmt := e5m2 }
  | 4 => { w := 4, int := false, fmt := e2m1 }
  | 5 => { w := 8, int := true, fmt := e2m1 }
  | 6 => { w := 4, int := true, fmt := e2m1 }
  | 7 => { w := 2, int := true, fmt := e2m1 }
  | _ => { w := (Fmt.ofReg word).container, int := false, fmt := Fmt.ofReg word }

/-- TRANSPOSE of a copy or gather (R291). -/
def Cmd.transpose (c : Cmd) : Bool := decide (c.kind ≤ 1) && cmdField c.words 185 1 == 1
/-- DECOMP of a copy or gather (R291). -/
def Cmd.decomp (c : Cmd) : Bool := decide (c.kind ≤ 1) && cmdField c.words 186 1 == 1
/-- AUTO_PUBLISH (R291). -/
def Cmd.autoPub (c : Cmd) : Bool := decide (c.kind ≤ 1) && cmdField c.words 187 1 == 1
/-- LEN of a copy or gather. -/
def Cmd.len (c : Cmd) : Nat := cmdField c.words 160 20
/-- TBL of a copy. -/
def Cmd.tbl (c : Cmd) : Nat := cmdField c.words 188 2
/-- GATE (R286). -/
def Cmd.gate (c : Cmd) : Bool := cmdField c.words 11 1 == 1
/-- TSLOT (R286). -/
def Cmd.tslot (c : Cmd) : Nat := cmdField c.words 10 1
/-- SYNCIDX (R286). -/
def Cmd.syncIdx (c : Cmd) : Nat := cmdField c.words 16 16
/-- EVIN (R286). -/
def Cmd.evin (c : Cmd) : Nat := cmdField c.words 12 4
/-- Bound of a loop level of a copy, 1 to 4, or of a MATRIX command, 0 to 4. -/
def Cmd.bound (c : Cmd) (level : Nat) : Nat :=
  if c.kind = 2 then cmdField c.words (192 + 16 * level) 16 else cmdField c.words (192 + 16 * (level - 1)) 16
/-- Source stride of level 1 to 4. -/
def Cmd.ss (c : Cmd) (level : Nat) : Int := cmdSigned c.words (256 + 64 * (level - 1)) 32
/-- Destination stride of level 1 to 4; level 4 of a gather is part of IDX (R297). -/
def Cmd.ds (c : Cmd) (level : Nat) : Int :=
  if c.kind = 1 ∧ level = 4 then 0 else cmdSigned c.words (288 + 64 * (level - 1)) 32
/-- The pair of words at a bit position: a teller address. -/
def cmdPair (ws : List Word) (lo : Nat) : BitVec 64 := BitVec.ofNat 64 (cmdField ws lo 64)

/-- Segment bases SEG0 to SEG6 of a launch (R78, R204). -/
def State.segsOf (s : State) (launch : Nat) : List Addr :=
  match s.launch? launch with
  | some l => (List.range 7).map fun k => BitVec.ofNat 64 (numAt l.block (40 + 8 * k) 8)
  | none => []
/-- A teller address of a command, with an offset (R256). -/
def State.cmdAddr (s : State) (c : Cmd) (lo : Nat) (add : Int) : TAddr := teleAddr (s.segsOf c.gid.launch) (cmdPair c.words lo) add

/-! ## The checks of `push` (R46, R287, R291, R297, R301, R302, R307, R312, R314) -/

/-- The segment number of a teller address. -/
def segOf (a : BitVec 64) : Nat := (a.extractLsb' 61 3).toNat

/-- Bad conditions of COPY and GATHER (R291, R297, R298). -/
def badCopy (ws : List Word) (src : TAddr) : Bool :=
  let f := cmdField ws
  let kind := f 4 4
  let len := f 160 20
  let tr := f 185 1 == 1
  let dc := f 186 1 == 1
  let dst7 := segOf (cmdPair ws 96) == 7
  let bounds := [f 192 16, f 208 16, f 224 16, f 240 16]
  len == 0 || bounds.contains 0 || f 190 2 != 0 || (tr && dc) || (f 180 4 != 0 && !tr) || (f 188 2 != 0 && !dc)
    || (dc && (bounds != [1, 1, 1, 1] || !dst7 || !Config.available 3
          || (match src with | .glob va => va.toNat % 4 != 0 | .window off => off % 4 != 0 | .outside => (cmdPair ws 32).toNat % 4 != 0)))
    || (tr && (!dst7 || len % 16 != 0 || decide (128 < len) || f 192 16 % 16 != 0))
    || (f 187 1 == 1 && dst7)
    || (kind == 1 && (f 240 16 != 1 || f 320 32 != 0 || f 384 32 != 0))

/-- The feature that a MATRIX operand needs (R46). -/
def featureOf (code : Nat) : Option Nat :=
  if code = 2 ∨ code = 3 then some 0 else if code = 4 then some 1 else if code = 7 then some 2 else none

/-- Significand planes that the engine counts for B (R307). -/
def planesB (b : OpFmt) (pl : Nat) : Nat := if b.int then b.w else if 1 ≤ b.fmt.e then pl + 1 else pl

/-- Bad conditions of MATRIX (R301, R302, R307) for a group of `t` threads. -/
def badMatrix (ws : List Word) (t : Nat) (fa fb : Word) : Bool :=
  let f := cmdField ws
  let a := opFmt (f 36 4) fa
  let b := opFmt (f 40 4) fb
  let lacks (code : Nat) : Bool := match featureOf code with | some n => !Config.available n | none => false
  f 55 1 != 0 || f 60 4 != 0 || f 116 12 != 0 || f 148 12 != 0 || f 272 16 != 0 || f 448 64 != 0
    || f 64 32 == 0 || f 64 32 / 2 ^ (t / 16) != 0
    || ((List.range 5).any fun l => f (192 + 16 * l) 16 == 0)
    || (f 57 1 == 0 && f 58 1 == 0) || f 96 20 % 16 != 0 || f 128 20 % 16 != 0
    || lacks (f 36 4) || lacks (f 40 4)
    || a.w != b.w || a.int != b.int
    || (if a.int then f 44 4 != 0 || f 48 4 != 0 else decide (a.fmt.m < f 44 4) || decide (b.fmt.m < f 48 4) || planesB b (f 48 4) == 0)

/-- Bad conditions of TABLE (R299). -/
def badTable (ws : List Word) : Bool := cmdField ws 98 414 != 0 || !Config.available 3

/-- Bad conditions of SHADOW (R312). -/
def badShadow (ws : List Word) (dst shd : TAddr) : Bool :=
  let aligned (a : TAddr) : Bool := match a with | .glob va => va.toNat % 4096 == 0 | _ => false
  cmdField ws 184 328 != 0 || !aligned dst || !aligned shd || cmdField ws 160 16 == 0 || cmdField ws 176 8 == 0

/-- Bad conditions of COLLECT (R314): LEN, and the segment of SRC, which the field table limits; a DST outside an open pair has a fault of
its own. -/
def badCollect (ws : List Word) : Bool :=
  cmdField ws 210 302 != 0 || cmdField ws 160 32 % 4 != 0 || cmdField ws 160 32 == 0 || segOf (cmdPair ws 32) == 7
    || !Config.available 4

/-- The first two rows of R287 and the sync word: the queue of the kind, the header's bits, SYNCIDX within the window. -/
def badHeader (ws : List Word) (wsize : Nat) : Bool :=
  let f := cmdField ws
  let q := f 0 4
  let kind := f 4 4
  let queueOk := if kind = 2 then q == 4 || q == 5 else if kind = 5 then q == 6 else decide (kind ≤ 4) && decide (q ≤ 3)
  !queueOk || (f 8 1 == 1 && kind != 2) || (f 9 1 == 1 && decide (1 < kind)) || (f 10 1 == 1 && f 8 1 == 0 && f 9 1 == 0)
    || (f 16 16 != 0xFFFF && decide (wsize < 16 * f 16 16 + 16))

/-- The word of the format register that a format code names, as read at acceptance, or 0 (R267, R382). -/
def snapshot (g : Group) (cyc code : Nat) (used : Bool) : Word := if used && decide (8 ≤ code) then g.nfAt cyc (code - 8) else 0

/-- The command that `push` would accept (R267, R286, R300). -/
def State.offered (s : State) (g : Group) (ws : List Word) : Cmd :=
  let f := cmdField ws
  let kind := f 4 4
  let cyc := s.cycle g.core
  let fmtA := if kind = 2 then snapshot g cyc (f 36 4) true else snapshot g cyc (f 180 4) (kind ≤ 1 && f 185 1 == 1)
  { id := s.nextId, core := g.core, queue := f 0 4, gid := g.id, ctx := g.ctx, words := ws,
    st := if f 8 1 == 1 then .held else .queued, aseq := s.nextId, tgen := 0, fmtA := fmtA,
    fmtB := snapshot g cyc (f 40 4) (kind == 2), sf := g.sfAt cyc, iter := [0, 0, 0, 0], prog := 0, readBytes := [], wrote := 0,
    ahead := [], past := [], finished := false, taken := false, collNo := none, idx := none, idxs := [], start := 0 }

/-- A command that fails a check of R287. -/
def State.badCommand (s : State) (g : Group) (c : Cmd) : Bool :=
  badHeader c.words g.wsize ||
    (match c.kind with
      | 0 | 1 => badCopy c.words (s.cmdAddr c 32 0)
      | 2 => badMatrix c.words g.t c.fmtA c.fmtB
      | 3 => badTable c.words
      | 4 => badShadow c.words (s.cmdAddr c 32 0) (s.cmdAddr c 96 0)
      | _ => badCollect c.words)

/-! ## Acceptance (R267, R287, R300, R309) -/

/-- A held slot of a core. -/
def State.slot? (s : State) (core n : Nat) : Option HeldSlot := s.held.find? fun h => h.core == core && h.slot == n
/-- Changes the held slot of a core. -/
def State.modSlot (s : State) (core n : Nat) (f : HeldSlot → HeldSlot) : State :=
  { s with held := updWhere (fun h => h.core == core && h.slot == n) f s.held }
/-- A held slot becomes empty. -/
def State.freeSlot (s : State) (core n : Nat) : State := { s with held := s.held.filter fun h => !(h.core == core && h.slot == n) }
/-- The command in a held slot, held or ready (R309). -/
def State.slotCmd? (s : State) (core n : Nat) : Option Cmd :=
  s.cmds.find? fun c => c.core == core && c.isHeld && c.tslot == n && (c.st == .held || c.st == .ready)

/-- A code-table slot of a core (R299). -/
def Core.table (k : Core) (n : Nat) : CodeTable := k.tables.getD n { ga := 0, gl := 0, lens := [] }
/-- Changes a code-table slot. -/
def State.modTable (s : State) (core n : Nat) (f : CodeTable → CodeTable) : State :=
  s.modCore core fun k => { k with tables := k.tables.modify n f }

/-- Enters an accepted command: its queue place, its table generation (R300), PUSHED (R271). -/
def State.accept (s : State) (g : Group) (c : Cmd) : State :=
  let s := if c.kind = 3 then s.modTable c.core (cmdField c.words 96 2) fun t => { t with ga := t.ga + 1 } else s
  let gen := if c.kind = 3 then ((s.coreAt c.core).table (cmdField c.words 96 2)).ga
    else if c.decomp then ((s.coreAt c.core).table c.tbl).ga else 0
  { s with cmds := s.cmds ++ [{ c with tgen := gen }], nextId := s.nextId + 1 }.modGroup g.id fun g =>
    { g with pushed := g.pushed ||| (1#7 <<< c.queue) }

/-- The outcome of a push that has passed its checks: accepted, or none where the queue is full or the held slot refuses it (R267, R309).
-/
def State.tryAccept (s : State) (g : Group) (c : Cmd) : Option State :=
  if c.isHeld then
    match s.slot? c.core c.tslot with
    | none => some { s.accept g c with held := s.held ++ [{ core := c.core, slot := c.tslot, owner := g.id, pending := false }] }
    | some h =>
      if h.owner == g.id && h.pending && (s.slotCmd? c.core c.tslot).isNone then some (s.accept g { c with st := .ready }) else none
  else if s.queueUsed c.core c.queue < 16 then some (s.accept g c)
  else none

/-- PUSH (R267, R287): Offer the command in s[SA] to s[SA + 15] to the queue that its header names. The checks come before the room. -/
def execPush (d a : BitVec 6) (s : State) : Out :=
  tellerOp (fun s g =>
    if 48 < a.toNat then .illegal
    else
      let ws := (List.range 16).map fun i => g.teller.reg (a + BitVec.ofNat 6 i)
      let c := s.offered g ws
      if s.badCommand g c then .trap 1 5 0
      else
        let (s, r) := match s.tryAccept g c with | some s => (s, 0) | none => (s, 1)
        let r := s.tellerValue g 26 r
        .done r.2 [(d, BitVec.ofNat 32 r.1)] 4) s

/-! ## Starting (R288, R303, R309, R310) -/

/-- A GATE command whose group holds no credit for it; a credit is taken once, at its first start (R288, R310). -/
def State.gated (s : State) (c : Cmd) : Bool :=
  c.gate && c.start == 0 && (match s.group? c.gid with | some g => g.credits.getD c.queue 0 == 0 | none => true)

/-- The commands of a queue that do not run, in the order in which they start: those that have started before and go on, ready held ones,
then the queue (R288, R293, R309, R376). -/
def State.waiting (s : State) (core q : Nat) : List Cmd :=
  let mine := s.cmds.filter fun c => c.core == core && c.queue == q
  let queued := mine.filter (·.st == .queued)
  queued.filter (·.start != 0) ++ mine.filter (·.st == .ready) ++ queued.filter (·.start == 0)

/-- A DECOMP copy is bound to a table that has not been loaded: it waits, and does not start (R300). -/
def State.tableMissing (s : State) (c : Cmd) : Bool := c.decomp && decide (((s.coreAt c.core).table c.tbl).gl < c.tgen)

/-- Of commands in the order in which they start, none may: each is gated, or behind a gated one of its group (R288). -/
def State.allGated (s : State) (before : List GroupId) : List Cmd → Bool
  | [] => true
  | x :: xs => (s.gated x || before.contains x.gid) && s.allGated (x.gid :: before) xs
/-- A publication that a teller of a command's column waits for waits for the command, or for one behind it in its queue: a stop of the
column lets it come to its end first (R257, R313, R374 step 1). -/
def State.publishNeeds (s : State) (c : Cmd) : Bool :=
  s.shadows.any fun p => p.publishing && p.ctx == c.ctx &&
    (s.groups.any fun g => g.id.column == c.gid.column && g.teller.wait == some (.published p.id)) &&
    s.cmds.any fun x => p.waitFor.contains x.id && x.gid.column == c.gid.column && x.core == c.core && x.queue == c.queue
/-- Its column is stopping, or the device is quiesced (R374, R384). -/
def State.startsHeld (s : State) (c : Cmd) : Bool := (s.stopOf c.gid.column).isSome || s.quiesce.running

/-- A command can start: nothing of its queue runs, and only gated commands, and those behind a gated one of their group, stand before it, none
of its own group (R288); its code table is there (R300); its column is not stopping, unless a publication needs it, and its core does not
stand still (R257, R374, R384, R400, R403). -/
def State.canStart (s : State) (c : Cmd) : Bool :=
  (c.st == .queued || c.st == .ready)
    && !(s.cmds.any fun x => x.core == c.core && x.queue == c.queue && x.st == .started)
    && s.allGated [] ((s.waiting c.core c.queue).takeWhile (·.id != c.id))
    && (((s.waiting c.core c.queue).takeWhile (·.id != c.id)).all fun x => x.gid != c.gid)
    && !s.gated c && !s.tableMissing c && (!s.startsHeld c || s.publishNeeds c) && !(s.coreAt c.core).standsStill

/-- Starts a command: one credit for a GATE command, its held slot freed (R309, R310). -/
def State.startCmd (s : State) (c : Cmd) : State :=
  let s := if c.gate && c.start == 0 then s.modGroup c.gid fun g => { g with credits := g.credits.modify c.queue (· - 1) } else s
  let s := if c.st == .ready then s.freeSlot c.core c.tslot else s
  { s.modCmd c.id fun c => { c with st := .started, start := s.nextId + 1 } with nextId := s.nextId + 1 }

/-- A command of a kind that can start. -/
def State.startable? (s : State) (id kind : Nat) : Option Cmd :=
  match s.cmd? id with
  | some c => if c.kind == kind && s.canStart c then some c else none
  | none => none

/-- COPY (R292): Start a COPY command moving a five-level loop nest of runs. -/
def execCopy (cmd : Nat) (s : State) : Out := .next (match s.startable? cmd 0 with | some c => s.startCmd c | none => s)
/-- GATHER (R297): Start a GATHER command moving runs at indexed sources. -/
def execGather (cmd : Nat) (s : State) : Out := .next (match s.startable? cmd 1 with | some c => s.startCmd c | none => s)
/-- MATRIX (R303): Start a MATRIX command, which claims the lends that are there and waits for the rest. -/
def execMatrix (cmd : Nat) (s : State) : Out :=
  .next (match s.startable? cmd 2 with | some c => (s.startCmd c).claimLends c.gid | none => s)
/-- TABLE (R299, R300): Start a TABLE command, once no accepted decompressing copy is bound to an older table of the slot. -/
def execTable (cmd : Nat) (s : State) : Out :=
  .next (match s.startable? cmd 3 with
    | some c =>
      if s.cmds.any fun x => x.core == c.core && x.decomp && x.tbl == cmdField c.words 96 2 && decide (x.tgen < c.tgen) then s
      else s.startCmd c
    | none => s)

/-! ## Faults, parking, resumption (R290, R293) -/

/-- A command's entry (R382); one that had started, and has not started again since it came back, is started. -/
def State.cmdPart (s : State) (c : Cmd) : Part :=
  let st : Nat := match c.st with | .queued => if c.start = 0 then 0 else 3 | .held => 1 | .ready => 1 | .parked _ => 2 | .started => 3
  let prog : Nat := if c.kind = 2 then c.prog
    else if c.kind ≤ 1 then packFields ((if c.finished then [0, 0, 0, c.bound 4] else c.iter).map fun i => (i, 16)) else 0
  let pend : Bool := c.isHeld && (c.st == .held || c.st == .ready) &&
    (match s.slot? c.core c.tslot with | some h => h.pending | none => false)
  .fields 128 ((c.words.map fun w => (w.toNat, 32, false)) ++ [(c.queue, 3, false), (st, 3, false), (pend.toNat, 1, false),
    ((c.gate && c.start == 0).toNat, 1, false), (c.gid.stage, 2, false), (0, 22, false), (prog, 64, false), (c.aseq, 32, false),
    (c.tgen, 32, false), (c.fmtA.toNat, 32, false), (c.fmtB.toNat, 32, false), (c.sf.toNat, 1, false), (0, 287, false)])

/-- Discards a command for a fault, which stops its group with a trap of class `cls`; the trap's record holds the command (R290). -/
def State.engineFault (s : State) (c : Cmd) (cls code : Nat) (va : Nat) : State :=
  let t : Trap := { Trap.ofEngine cls code c.gid with va := BitVec.ofNat 64 va }
  let s : State := { s with cmds := s.cmds.filter (·.id != c.id) }
  match s.savedCol? c.gid.column with
  | some col => s.trapSavedCol col t (some (c, (s.cmdPart c).bytes))
  | none =>
  let s := s.takeTrap c.gid t
  let keep (st : Stop) : Stop := if st.trap == some t then { st with cmd := some c } else st
  s.modColumn c.gid.column fun col => { col with stop := col.stop.map keep }

/-- A command with nothing of its run read or written. -/
def Cmd.newRun (c : Cmd) : Cmd := { c with readBytes := [], wrote := 0, ahead := [], past := [], idx := none }
/-- Parks a command on a translation fault: it leaves its queue, and its run, or block under TRANSPOSE, starts afresh (R293, R296). -/
def State.parkCmd (s : State) (c : Cmd) (cause va : Nat) (w : Want) : State :=
  let (fid, s) := s.record c.gid c.ctx va cause 5 w
  s.modCmd c.id fun c =>
    let iter := if c.transpose then c.iter.set 0 (c.iter.getD 0 0 / 16 * 16) else c.iter
    { c.newRun with st := .parked fid, iter := iter }

/-- COMMAND_RESUME (R293): A parked command whose record is resolved returns to the head of its queue. -/
def execCommandResume (cmd : Nat) (s : State) : Out :=
  match s.cmd? cmd with
  | none => .next s
  | some c =>
    match c.st with
    | .parked fid =>
      if s.faults.any fun f => f.ctx == c.ctx && f.fid == fid then .next s
      else .next { s with cmds := { c with st := .queued } :: s.cmds.filter (·.id != cmd) }
    | _ => .next s

/-- What an engine's access comes to when memory does not serve it: it parks, stops the group, waits, or reaches memory that does not
exist (R290, R293). -/
def Denied.command (d : Denied) (s : State) (c : Cmd) (w : Want) : Out :=
  match d with
  | .walk cause va => .next (s.parkCmd c cause va w)
  | .absent pa => .fault (.noSuchMemory pa)
  | .frozen va => .next (s.engineFault c 4 1 va)
  | .shadow va => .next (s.engineFault c 4 2 va)
  | .wstore va => .next (s.engineFault c 4 5 va)
  | .unavailable va => .next (s.engineFault c 4 13 va)
  | .held => .next s

/-- The agent of a command (R397). -/
def Cmd.reader (c : Cmd) : Reader := { col := c.gid.col, stage := c.gid.stage, tid := 0x1FE, strand := 0 }
/-- The window of a command's column: its core's base and its size. -/
def State.windowOf (s : State) (c : Cmd) : Nat × Nat :=
  match s.column? c.gid.column with | some col => (col.wbase, col.wsize) | none => (0, 0)
/-- Copies of a WSTORE_LOAD launch may write the weight store (R210). -/
def State.mayLoadWeights (s : State) (c : Cmd) : Bool := match s.launch? c.gid.launch with | some l => l.flag 85 | none => false

/-- Reads `n` bytes, within one line or of the window, for a command; `done` goes on with them (R226, R290, R339). -/
def State.engineGet (s : State) (c : Cmd) (a : TAddr) (n : Nat) (done : List Byte → State → Out) : Out :=
  match a with
  | .outside => .next (s.engineFault c 10 1 0)
  | .window off =>
    let w := s.windowOf c
    if w.2 < off + n then .next (s.engineFault c 10 1 0) else done (s.mems.scratchRead c.core (w.1 + off) n) s
  | .glob va =>
    match s.sites c.ctx .load { core := some c.core } (linePieces va.toNat n) with
    | .error d => d.command s c .load
    | .ok (xs, t) =>
      let s := t.sampleSites s c.ctx 0xFF 4 .load (some c.core) (some (c.gid.launch, c.reader)) xs
      let got := xs.foldl (fun (acc : List Byte × State) x => let p := acc.2.readSite x.1 x.2.1 x.2.2; (acc.1 ++ p.1, p.2)) ([], s)
      done got.1 got.2

/-- Writes bytes, within one line or of the window, for a command. A destination in the DST range of an open pair is redirected to its
SHD (R290, R312). -/
def State.enginePut (s : State) (c : Cmd) (a : TAddr) (bs : List Byte) (done : State → Out) : Out :=
  match a with
  | .outside => .next (s.engineFault c 10 1 0)
  | .window off =>
    let w := s.windowOf c
    if w.2 < off + bs.length then .next (s.engineFault c 10 1 0)
    else done { s with mems := s.mems.scratchWrite c.core (w.1 + off) bs }
  | .glob va =>
    let (va, shd) := match s.pairOfDst? c.ctx va.toNat with
      | some p => (p.shd + (va.toNat - p.dst), true)
      | none => (va.toNat, false)
    match s.sites c.ctx .store { weights := s.mayLoadWeights c, shd := shd, core := some c.core } (linePieces va bs.length) with
    | .error d => d.command s c .store
    | .ok (xs, t) =>
      let s := t.sampleSites s c.ctx 0xFF 5 .store (some c.core) (some (c.gid.launch, c.reader)) xs
      done (xs.foldl (fun s x => s.writeSite x.1 x.2.1 ((bs.drop (x.2.1 - va)).take x.2.2)) s)

/-! ## Runs (R292, R296, R297) -/

/-- The number of runs of a copy or gather. -/
def Cmd.runs (c : Cmd) : Nat := c.bound 1 * c.bound 2 * c.bound 3 * c.bound 4
/-- The iteration vector of run `q`, level 1 fastest. -/
def Cmd.vector (c : Cmd) (q : Nat) : List Nat :=
  [q % c.bound 1, q / c.bound 1 % c.bound 2, q / (c.bound 1 * c.bound 2) % c.bound 3, q / (c.bound 1 * c.bound 2 * c.bound 3)]
/-- The run of an iteration vector. -/
def Cmd.runOf (c : Cmd) (v : List Nat) : Nat :=
  v.getD 0 0 + c.bound 1 * (v.getD 1 0 + c.bound 2 * (v.getD 2 0 + c.bound 3 * v.getD 3 0))
/-- A sum of strides over an iteration vector; level 1's number is `i1`. -/
def strideSum (st : Nat → Int) (i1 : Nat) (v : List Nat) : Int :=
  i1 * st 1 + v.getD 1 0 * st 2 + v.getD 2 0 * st 3 + v.getD 3 0 * st 4
/-- The source of a run; that of a gather depends on the index read (R297). -/
def State.runSrc (s : State) (c : Cmd) (v : List Nat) : TAddr :=
  if c.kind = 1 then s.cmdAddr c 32 (c.idx.getD 0 * c.ss 1) else s.cmdAddr c 32 (strideSum c.ss (v.getD 0 0) v)
/-- The destination of a run, or of its block under TRANSPOSE (R292, R296). -/
def State.runDst (s : State) (c : Cmd) (v : List Nat) : TAddr :=
  s.cmdAddr c 96 (strideSum c.ds (if c.transpose then v.getD 0 0 / 16 else v.getD 0 0) v)
/-- The bytes that the destination of a run takes: 16 rows under TRANSPOSE. -/
def Cmd.dstLen (c : Cmd) : Nat := if c.transpose then 16 * c.len else c.len

/-- The address `n` bytes on. -/
def TAddr.add (a : TAddr) (n : Nat) : TAddr :=
  match a with
  | .glob va => .glob (va + BitVec.ofNat 64 n)
  | .window off => .window (off + n)
  | .outside => .outside
/-- The number of a TAddr within its space. -/
def TAddr.num (a : TAddr) : Nat :=
  match a with | .glob va => va.toNat | .window off => off | .outside => 0
/-- The next part, within one line, of `len` bytes from an address of which `done` are through. -/
def nextPart (a : TAddr) (len done : Nat) : TAddr × Nat :=
  let p := a.num + done
  (a.add done, min (len - done) (128 - p % 128))

/-- The parts, within one line each, of `len` bytes from an address, as offset and length. -/
def partsOf (a : TAddr) (len : Nat) : List (Nat × Nat) := (linePieces a.num len).map fun p => (p.1 - a.num, p.2)

/-- Under AVR, an access within one line reaches a weight-store bank in its refresh slot: it is deferred (R209, R294). -/
def State.refreshing (s : State) (c : Cmd) (a : TAddr) (w : Want) : Bool :=
  c.kind ≤ 1 && cmdField c.words 184 1 == 1 &&
    (match a with
      | .glob va =>
        match s.site c.ctx va.toNat w (some c.core) with
        | .ok (.memory (.wstore pa), _, _) => pa / 128 % 64 == s.refreshSlot
        | _ => false
      | _ => false)

/-- The next part of `len` bytes from an address of which a command has served `done` and, behind them, the parts at the offsets `ahead`, of
those that lie within the first `upTo` bytes: the first that is not deferred; none while every one that is left is (R294). -/
def State.servePart (s : State) (c : Cmd) (a : TAddr) (len upTo done : Nat) (ahead : List Nat) (w : Want) : Option (Nat × Nat) :=
  let n := (nextPart a len done).2
  if len ≤ done then none
  else if done + n ≤ upTo && !s.refreshing c (a.add done) w then some (done, n)
  else (partsOf a len).find? fun x =>
    decide (done < x.1 ∧ x.1 + x.2 ≤ upTo) && !ahead.contains x.1 && !s.refreshing c (a.add x.1) w

/-- Bytes of an access of length `n` at `a` meet `m` bytes at `b`, in one space. -/
def TAddr.meets (a : TAddr) (n : Nat) (b : TAddr) (m : Nat) : Bool :=
  match a, b with
  | .glob x, .glob y => decide (x.toNat < y.toNat + m ∧ y.toNat < x.toNat + n)
  | .window x, .window y => decide (x < y + m ∧ y < x + n)
  | _, _ => false

/-! ## Publication (R276, R313) -/

/-- The length of a COLLECT's destination range, for a communicator of `n` members (R314). -/
def Cmd.collectLen (c : Cmd) (n : Nat) : Nat := cmdField c.words 160 32 * (if cmdField c.words 198 2 = 2 then n else 1)
/-- Members of a communicator. -/
def State.commSize (s : State) (id : Nat) : Nat := match s.comms.find? (·.id == id) with | some c => c.members.length | none => 0
/-- A command has a destination in a pair's DST (R313 step 1). -/
def State.writesPair (s : State) (c : Cmd) (p : Shadow) : Bool :=
  c.ctx == p.ctx &&
    (match c.kind with
      | 0 | 1 => (List.range c.runs).any fun q => (s.runDst c (c.vector q)).meets c.dstLen (.glob (BitVec.ofNat 64 p.dst)) (p.pages * 4096)
      | 5 => (s.cmdAddr c 96 0).meets (c.collectLen (s.commSize (cmdField c.words 192 6))) (.glob (BitVec.ofNat 64 p.dst)) (p.pages * 4096)
      | _ => false)
/-- The commands of saved columns that their records hold, but for discarded ones. -/
def State.savedCmds (s : State) : List Cmd := s.saved.flatMap fun c => (c.entries.filter (!·.discarded)).map (·.cmd)
/-- A command of this id is accepted and not completed, on a core or with its saved column. -/
def State.accepted (s : State) (id : Nat) : Bool := s.cmds.any (·.id == id) || s.savedCmds.any (·.id == id)
/-- The commands that a publication waits for, those of saved columns among them (R313 step 1). -/
def State.beforePublish (s : State) (p : Shadow) (but : Nat) : List Nat :=
  ((s.cmds ++ s.savedCmds).filter fun c => c.id != but && s.writesPair c p).map (·.id)

/-- PUBL (R276, R313): Publish the shadow pair of an id and block until it is published. -/
def execPubl (a : BitVec 6) (s : State) : Out :=
  tellerOp (fun s g =>
    let id := (g.teller.reg a).toNat
    match s.shadows.find? fun p => p.ctx == g.ctx && p.id == id with
    | none => .trap 4 12 0
    | some p => .wait (if p.publishing then s else s.beginPublish p (s.beforePublish p s.nextId)) (.published id)) s

/-- Exchanges the FRAME fields of two leaves (R215, R313 step 4). -/
def State.swapFrames (s : State) (ctx a b : Nat) : State :=
  match s.leafAt ctx a, s.leafAt ctx b with
  | some x, some y =>
    let put (raw frame : Nat) : List Byte := leBytes 8 (raw - bits raw 12 40 * 4096 + frame * 4096)
    let m := s.mems.write (.lpddr x.at_) (put x.raw (bits y.raw 12 40))
    { s with mems := m.write (.lpddr y.at_) (put y.raw (bits x.raw 12 40)) }
  | _, _ => s

/-- PUBLISH (R313): Once the commands before it have completed, the pair's lines are written back and dropped, its frames exchanged, the
pair removed, in one step. -/
def execPublish (ctx pair : Nat) (s : State) : Out :=
  match s.shadows.find? fun p => p.ctx == ctx && p.id == pair with
  | none => .next s
  | some p =>
    if !p.publishing || p.waitFor.any s.accepted then .next s
    else
      let asid := (s.ctxAt ctx).asid
      let len := p.pages * 4096
      let tag : Option VTag := some { shadow := true, id := pair }
      let s := s.finish fun a => a.within asid p.dst len || a.within asid p.shd len
      let s := s.dropLines fun k _ v =>
        decide (v = tag) && tagMatch k.asid asid && (lineIn p.dst len k.line || lineIn p.shd len k.line)
      let s := (s.tlbDrop p.dst len fun t => tagMatch t asid).tlbDrop p.shd len fun t => tagMatch t asid
      let s := (List.range p.pages).foldl (fun s i => s.swapFrames ctx (p.dst + i * 4096) (p.shd + i * 4096)) s
      .next { s with shadows := s.shadows.filter fun x => !(x.ctx == ctx && x.id == pair) }

/-! ## Shadow pairs (R312) -/

/-- A page may belong to a shadow pair: a level-0 LOCAL leaf of 4 KiB with RD and WR, outside frozen ranges, software-managed regions and
the page under migration (R312). -/
def State.pairable (s : State) (ctx va : Nat) : Bool :=
  (match s.leafAt ctx va with
    | some l => l.bits == 12 && l.perm.typ == .local && l.perm.rd && l.perm.wr
    | none => false)
  && (s.freezesOver (s.ctxAt ctx).asid (va / 128)).isEmpty && (s.swmAt? ctx va).isNone
  && (match s.migration with | some m => !(m.ctx == ctx && decide (m.va < va + 4096 ∧ va < m.va + 2 ^ m.bits)) | none => true)

/-- SHADOW (R312): Start a SHADOW command: check both ranges, sweep them and open the pair. -/
def execShadow (cmd : Nat) (s : State) : Out :=
  match s.startable? cmd 4 with
  | none => .next s
  | some c =>
    let s := s.startCmd c
    let dst := (s.cmdAddr c 32 0).num
    let shd := (s.cmdAddr c 96 0).num
    let pages := cmdField c.words 160 16
    let id := cmdField c.words 176 8
    let len := pages * 4096
    let fits := (List.range pages).all fun i => s.pairable c.ctx (dst + i * 4096) && s.pairable c.ctx (shd + i * 4096)
    if !fits || decide (dst < shd + len ∧ shd < dst + len) then .next (s.engineFault c 10 8 0)
    else if 64 ≤ s.shadows.length then .next (s.engineFault c 10 7 0)
    else if s.shadows.any fun p => p.ctx == c.ctx && p.id == id then .next (s.engineFault c 10 10 0)
    else
      let asid := (s.ctxAt c.ctx).asid
      let s := (s.sweepRange asid dst len).sweepRange asid shd len
      let pair : Shadow := { id := id, ctx := c.ctx, dst := dst, shd := shd, pages := pages, publishing := false, waitFor := [] }
      .next ({ s with shadows := s.shadows ++ [pair] }.modCmd cmd fun c => { c with finished := true })

/-! ## Completion (R288, R303, R309) -/

/-- A copy's trigger reaches its held slot (R309). -/
def State.trigger (s : State) (c : Cmd) : State :=
  match s.slot? c.core c.tslot with
  | none => { s with held := s.held ++ [{ core := c.core, slot := c.tslot, owner := c.gid, pending := true }] }
  | some h =>
    if h.owner != c.gid then s.engineFault c 10 5 0
    else if h.pending then s.engineFault c 10 4 0
    else
      let s := s.modSlot c.core c.tslot fun h => { h with pending := true }
      match s.slotCmd? c.core c.tslot with
      | some m => s.modCmd m.id fun m => { m with st := .ready }
      | none => s

/-- Every accumulator that a MATRIX command has claimed returns to its strand (R186, R303). -/
def State.handBack (s : State) (c : Cmd) : State :=
  let back (st : Strand) : Strand := if st.own == .claimed c.id then { st with own := .strand } else st
  s.modGroup c.gid fun g =>
    let threads := g.threads.map fun t => { t with strands := t.strands.map back }
    { g with threads := threads }

/-- What the last update of a command's sync word adds (R292, R296, R298, R299, R303, R312, R315). -/
def Cmd.lastCount (c : Cmd) : Nat := match c.kind with | 0 | 1 => c.dstLen | 5 => c.wrote | _ => 1

/-- A copy that publishes waits for its publication: `taken` once that has begun, on pair `prog` (R288 step 2, R313). -/
def State.publication (s : State) (c : Cmd) : Option State :=
  if !c.autoPub then none
  else if c.taken then (if s.shadows.any fun p => p.ctx == c.ctx && p.id == c.prog && p.publishing then some s else none)
  else
    match s.pairOfDst? c.ctx (s.cmdAddr c 96 0).num with
    | none => none
    | some p =>
      let s := s.modCmd c.id fun x => { x with taken := true, prog := p.id }
      let drop (x : Shadow) : Shadow := { x with waitFor := x.waitFor.filter (· != c.id) }
      some (if p.publishing then { s with shadows := updWhere (fun x => x.ctx == p.ctx && x.id == p.id) drop s.shadows }
            else s.beginPublish p (s.beforePublish p c.id))

/-- A COLLECT completes while its column is off its core: the completion joins the column's record (R382); a discarded column has none. -/
def State.deferred (s : State) (c : Cmd) : State :=
  let gone (s : State) : State := { s with cmds := s.cmds.filter (·.id != c.id) }
  match s.savedCol? c.gid.column with
  | none => gone s
  | some col => gone (s.noteDeferred col c.syncIdx c.evin c.gid.stage c.wrote)

/-- COMMAND_COMPLETE (R288): A command whose writes are performed completes: publication, hand-back, the last update of its sync word,
its event pulse, its trigger. -/
def execCommandComplete (cmd : Nat) (s : State) : Out :=
  match s.cmd? cmd with
  | none => .next s
  | some c =>
    if c.st != .started || !c.finished then .next s
    else if (s.column? c.gid.column).isNone then .next (s.deferred c)
    else
      match s.publication c with
      | some s => .next s
      | none =>
        let s := if c.kind = 2 then s.handBack c else s
        let r := if c.syncIdx = 0xFFFF then (s, false)
          else s.syncUpdate c.core ((s.windowOf c).1 + 16 * c.syncIdx) 0 (BitVec.ofNat 32 c.lastCount)
        if r.2 then .next (r.1.engineFault c 5 0 0)
        else
          let s := { r.1 with cmds := r.1.cmds.filter (·.id != cmd) }
          let s := if c.evin = 15 then s else s.pulse c.core c.evin 1
          .next (if cmdField c.words 9 1 = 1 then s.trigger c else s)

end Sys2Proof.Machine
end

