-- ==== Sys2Proof/Machine/Freezes.lean ====
section
/-! DEFINITION. Freezing and thawing across the pod: 17_coherence R346 to R350, R421; 13_teller R274, R275. The table is the coordinator's
where this device is the coordinator, else its mirror here (log 32). -/

namespace Sys2Proof.Machine

/-- Every device of the pod, this one included. -/
def State.devices (s : State) : List Nat := s.chip :: s.peers
/-- An entry of the freeze table. -/
def State.freeze? (s : State) (id : Nat) : Option Freeze := s.freezes.find? (·.id == id)
/-- Changes an entry of the freeze table. -/
def State.modFreeze (s : State) (id : Nat) (f : Freeze → Freeze) : State := { s with freezes := updWhere (·.id == id) f s.freezes }

/-! ## The coordinator's decision (R274, R346, R347) -/

/-- Two ranges of pages share none. -/
def rangesApart (v n w m : Nat) : Bool := decide (v + n ≤ w ∨ w + m ≤ v)
/-- One range of pages lies within another. -/
def rangeWithin (v n w m : Nat) : Bool := decide (w ≤ v ∧ v + n ≤ w + m)

/-- What the coordinator decides: the request waits for an identical entry to be freed, is refused, raises the count of an identical
freeze, or takes a new id (R274, R346, R350). -/
inductive FrzOutcome where
  | later
  | refused (code : Nat)
  | again (id : Nat)
  | fresh (id : Nat)
  deriving DecidableEq, Repr

/-- A freeze that R274 calls active (R346). -/
def Freeze.active (f : Freeze) : Bool := f.st == .freezing || f.st == .active

/-- The coordinator's decision on a request. -/
def State.decideFreeze (s : State) (q : FrzReq) : FrzOutcome :=
  let mine := s.freezes.filter (·.asid == q.asid)
  match mine.find? fun f => f.vpn == q.vpn && f.pages == q.pages with
  | some f =>
    if !f.active || f.count == 0 then .later else if 65535 ≤ f.count then .refused 10 else .again f.id
  | none =>
    if (mine.filter (·.active)).any fun f =>
        !rangesApart q.vpn q.pages f.vpn f.pages && !rangeWithin q.vpn q.pages f.vpn f.pages && !rangeWithin f.vpn f.pages q.vpn q.pages
    then .refused 8
    else
      match ((List.range 255).map (· + 1)).find? fun id => s.freezes.all (·.id != id) with
      | some id => .fresh id
      | none => .refused 10

/-- The coordinator's answer to a request: another chip's goes there; a teller of this device takes its trap, or the id whose freeze it
waits for (R274). -/
def State.answerFreeze (s : State) (q : FrzReq) (r : Except Nat Nat) : State :=
  match q.gid with
  | none => s.toPeer q.chip 0 (match r with | .error code => .frzAnswer q.id code 0 | .ok id => .frzAnswer q.id 0 id)
  | some gid =>
    match s.group? gid with
    | none => s
    | some g =>
      match g.teller.wait with
      | some (.freeze d id) =>
        if id ≠ q.id then s
        else
          match r with
          | .ok n => s.modTeller gid fun t => { t with wait := some (.frozen d n) }
          | .error code => (s.modTeller gid fun t => { t with wait := none }).takeTrap gid (Trap.ofTeller 4 code gid g.teller.pc)
      | _ => s

/-- A request accepted for a freeze: a teller of this device waits for that freeze; another chip is answered once it has completed (R347
step 6). -/
def State.awaitFreeze (s : State) (q : FrzReq) (f : Freeze) : State :=
  if q.gid.isSome || f.st == .active then s.answerFreeze q (.ok f.id)
  else s.modFreeze f.id fun f => { f with waiters := f.waiters ++ [(q.chip, q.id)] }

/-- FREEZE_REQUEST (R274, R346, R347 steps 1 and 2): The coordinator decides the first request that does not wait for an identical entry to
be freed, and sends what changes in its table to every device. On another device, the first request leaves for the coordinator. -/
def execFreezeRequest (s : State) : Out :=
  if !s.isCoord then
    match s.frzReqs.find? fun q => !q.sent with
    | none => .next s
    | some q =>
      let gone (q : FrzReq) : FrzReq := { q with sent := true }
      .next ({ s with frzReqs := updWhere (·.id == q.id) gone s.frzReqs }.toCoord (.freeze q.chip q.id q.asid q.vpn q.pages))
  else
    match s.frzReqs.find? fun q => s.decideFreeze q != .later with
    | none => .next s
    | some q =>
      let s := { s with frzReqs := s.frzReqs.filter fun x => !(x.id == q.id && x.chip == q.chip) }
      match s.decideFreeze q with
      | .later => .next s
      | .refused code => .next (s.answerFreeze q (.error code))
      | .again id =>
        let s := s.modFreeze id fun f => { f with count := f.count + 1 }
        .next (match s.freeze? id with | some f => (s.tellMirrors f f.st.code).awaitFreeze q f | none => s)
      | .fresh id =>
        let f : Freeze := { id := id, asid := q.asid, vpn := q.vpn, pages := q.pages, count := 1, st := .freezing, origin := q.chip,
                            acks := [], marked := [], dropped := false, waiters := [] }
        .next (({ s with freezes := s.freezes ++ [f] }.tellMirrors f 1).awaitFreeze q f)

/-! ## Acknowledgements (R347, R349) -/

/-- A device, `chip`, acknowledges what an entry's state asks; this one only once it is `ready`. At the coordinator the last of them makes
the table go on; another device tells the coordinator. -/
def State.ackFreeze (s : State) (f : Freeze) (chip : Nat) (ready : Bool) (goOn : State) : State :=
  if !s.devices.contains chip || f.acks.contains chip || (chip == s.chip && !ready) then s
  else if s.isCoord then
    if s.devices.all fun d => d == chip || f.acks.contains d then goOn else s.modFreeze f.id fun f => { f with acks := chip :: f.acks }
  else if chip == s.chip then
    (s.modFreeze f.id fun f => { f with acks := chip :: f.acks }).toCoord (.frzAck f.id chip f.st.code)
  else s

/-! ## Marking (R347 steps 3 to 6, R421) -/

/-- The pages of a freeze whose frames are in host bias, by VA and frame (R347 step 3). -/
def State.hostBiased (s : State) (f : Freeze) : List (Nat × Nat) :=
  if s.bias.isEmpty then []
  else
    match s.ctxOfAsid? f.asid with
    | none => []
    | some ctx => (List.range f.pages).filterMap fun i =>
        let va := (f.vpn + i) * 4096
        match s.leafAt ctx va with
        | some l => match l.placeAt va with | .lpddr pa => if s.bias.contains (pa / 4096) then some (va, pa / 4096) else none | _ => none
        | none => none

/-- The migration in progress is of a page of a freeze's range and has not switched (R347 step 3). -/
def State.abandonFor (s : State) (f : Freeze) : State :=
  match s.migration with
  | none => s
  | some m =>
    if (s.ctxAt m.ctx).asid == f.asid && !rangesApart f.vpn f.pages (m.va / 4096) (2 ^ m.bits / 4096) then s.abandonMigration else s

/-- A half of a cloud copy is clean: one that is M goes back to the host and is held again, shared (R348, R354, R355, log 141). -/
def State.cleanHalf (s : State) (b : BridgeHalf) (data : List Byte) : State :=
  if b.inLine && b.st == .m then
    let s := (s.evictHalf b data).send (.d2h d2hRdShared b.hpa [])
    { s with bridge := { b with st := .s } :: s.bridge }
  else s
/-- A home keeps its copy of a line as a cloud copy: dirty data goes to memory, that of a host line to the host, and a line without a tag
takes the freeze's (R347 step 4, R348). -/
def State.toCloud (s : State) (id : Nat) (h : L2Line) : State :=
  let s := match h.place with
    | .host hpa => (halvesOf hpa).foldl (fun (s : State) a =>
        match s.half? a with
        | some b => s.cleanHalf b (((lineBytes h.data).drop (a % 128)).take 64)
        | none => s) s
    | p => if h.dirty then { s with mems := s.mems.write p (lineBytes h.data) } else s
  s.modL2 h.key fun l =>
    { l with dirty := false, dir := .i, sharers := [], vtag := some (l.vtag.getD { shadow := false, id := id }) }

/-- A home marks a range: owners recalled, the stores that L1s hold and those performed in part brought home with them, L1 and code-store
copies dropped, its own copies kept as cloud copies, the write check installed (R336, R347 step 4). -/
def State.markHome (s : State) (f : Freeze) (slice : Nat) : State :=
  let mine (k : LineKey) : Bool :=
    tagMatch k.asid f.asid && decide (f.vpn ≤ k.line / 32 ∧ k.line / 32 < f.vpn + f.pages) && homeSlice k.line == slice
  let s := s.finish fun a => a.within f.asid (f.vpn * 4096) (f.pages * 4096)
  let s := { s with code := s.code.filter fun l => !mine l.key }
  let s := (s.l1.filter fun l => mine l.key).foldl State.evictL1 s
  let s := (s.l2.filter fun l => mine l.key).foldl (fun s h => match s.l2Key? h.key with | some h => s.toCloud f.id h | none => s) s
  s.modFreeze f.id fun f => { f with marked := slice :: f.marked }

/-- FREEZE_RANGE (R347 steps 3 and 4, R421): A home of this device takes the mark of a freeze. Before the first, a migration of the range
is abandoned and its pages in host bias are flipped to device bias, which the marks wait for. -/
def execFreezeRange (id slice : Nat) (s : State) : Out :=
  match s.freeze? id with
  | none => .next s
  | some f =>
    if f.st != .freezing || decide (288 ≤ slice) || f.marked.contains slice then .next s
    else
      match s.hostBiased f with
      | [] => .next ((s.abandonFor f).markHome f slice)
      | pages =>
        let word (frame : Nat) : BitVec 64 := BitVec.ofNat 64 (frame % 2 ^ 40 + f.asid % 2 ^ 16 * 2 ^ 42)
        let asked (frame : Nat) : Bool := s.flips.any (fun x => x.internal && x.cmd == word frame)
          || (match s.flip with | some r => r.flip.internal && r.frame == frame | none => false)
        let new := (pages.filter fun p => !asked p.2).map fun p => ({ cmd := word p.2, va := BitVec.ofNat 64 p.1, internal := true } : Flip)
        .next { s.abandonFor f with flips := s.flips ++ new }

/-- The coordinator's entry becomes active, and every `frz` of another chip that waited for it is answered (R347 step 6). -/
def State.freezeActive (s : State) (f : Freeze) : State :=
  let s := (s.modFreeze f.id fun f => { f with acks := [], st := .active, waiters := [] }).tellMirrors f 2
  f.waiters.foldl (fun s w => s.toPeer w.1 0 (.frzAnswer w.2 0 f.id)) s

/-- FREEZE_ACK (R347 steps 5 and 6): A device acknowledges; this one once its 288 slices are marked. When all have, the freeze is active
and its `frz` goes on. -/
def execFreezeAck (id chip : Nat) (s : State) : Out :=
  match s.freeze? id with
  | none => .next s
  | some f => .next (if f.st == .freezing then s.ackFreeze f chip (decide (288 ≤ f.marked.length)) (s.freezeActive f) else s)

/-! ## Thawing (R349) -/

/-- THAW_REQUEST (R349 step 1): The coordinator starts a thaw and sends DROP. -/
def execThawRequest (s : State) : Out :=
  match s.thawReqs.find? fun q => s.freezes.any fun f => f.id == q.2 && f.asid == q.1 && f.st == .active && f.count == 0 with
  | none => .next s
  | some q =>
    let s := { s with thawReqs := s.thawReqs.erase q }.modFreeze q.2 fun f => { f with st := .dropping, acks := [], dropped := false }
    .next (match s.freeze? q.2 with | some f => s.tellMirrors f 3 | none => s)

/-- FLASH_DROP (R349 step 2): Drop every line that carries a freeze's id from every code store, L1 and L2; the halves of such a line of host
memory return to the host (R355). -/
def execFlashDrop (id : Nat) (s : State) : Out :=
  match s.freeze? id with
  | none => .next s
  | some f =>
    if f.st != .dropping || f.dropped then .next s
    else
      let tag : Option VTag := some { shadow := false, id := id }
      let keep (v : Option VTag) : Bool := decide (v ≠ tag)
      let s := (s.l2.filter fun l => !keep l.vtag).foldl (fun s l =>
        match l.place with | .host hpa => s.returnHalves hpa l.data | _ => s) s
      let s := { s with code := s.code.filter fun l => keep l.vtag, l1 := s.l1.filter fun l => keep l.vtag,
                        l2 := s.l2.filter fun l => keep l.vtag }
      .next (s.modFreeze id fun f => { f with dropped := true })

/-- The coordinator's entry goes on to unmarking (R349 step 3). -/
def State.freezeUnmarking (s : State) (f : Freeze) : State :=
  (s.modFreeze f.id fun f => { f with acks := [], st := .unmarking }).tellMirrors f 4

/-- DROP_ACK (R349 steps 2 and 3): A device acknowledges its drop, this one once no fill of the range is on its way; when all have, the homes
are to unmark. -/
def execDropAck (id chip : Nat) (s : State) : Out :=
  match s.freeze? id with
  | none => .next s
  | some f =>
    let ready := f.dropped && !s.hostBusy f.asid (f.vpn * 4096) (f.pages * 4096)
    .next (if f.st == .dropping then s.ackFreeze f chip ready (s.freezeUnmarking f) else s)

/-- UNMARK (R349 step 3): A home removes the range from its write check. -/
def execUnmark (id slice : Nat) (s : State) : Out :=
  match s.freeze? id with
  | none => .next s
  | some f => if f.st != .unmarking then .next s else .next (s.modFreeze id fun f => { f with marked := f.marked.filter (· != slice) })

/-- UNMARK_ACK (R349 step 4): A device acknowledges, this one once no home of it is marked; when all have, the entry is freed. -/
def execUnmarkAck (id chip : Nat) (s : State) : Out :=
  match s.freeze? id with
  | none => .next s
  | some f =>
    .next (if f.st == .unmarking then
      s.ackFreeze f chip f.marked.isEmpty ({ s with freezes := s.freezes.filter (·.id != id) }.tellMirrors f 0) else s)

end Sys2Proof.Machine
end

