-- ==== Sys2Proof/Machine/HostLink.lean ====
section
/-! DEFINITION. Software-managed regions, bias flips, the host's accesses to device memory, snoops of the half-line bridge:
17_coherence R342 to R345, R350 to R356. -/

namespace Sys2Proof.Machine

/-! ## Software-managed regions (R343 to R345) -/

/-- The leaves that map a region, each once. -/
def State.leavesOf (s : State) (ctx base : Nat) : List Leaf :=
  ((List.range 512).filterMap fun i => s.leafAt ctx (base + i * 4096)).foldl
    (fun ls l => if ls.any (·.base == l.base) then ls else ls ++ [l]) []
/-- A migration in progress touches a range of a context. -/
def State.migrates (s : State) (ctx base len : Nat) : Bool :=
  match s.migration with | some m => m.ctx == ctx && decide (m.va < base + len ∧ base < m.va + 2 ^ m.bits) | none => false
/-- An open shadow pair of a context touches a range. -/
def State.shadows? (s : State) (ctx base len : Nat) : Bool :=
  s.shadows.any fun p => p.ctx == ctx &&
    (decide (p.dst < base + len ∧ base < p.dst + p.pages * 4096) || decide (p.shd < base + len ∧ base < p.shd + p.pages * 4096))
/-- A freeze of an ASID touches a range. -/
def State.freezes? (s : State) (asid base len : Nat) : Bool :=
  s.freezes.any fun f => f.asid == asid && decide (f.vpn * 4096 < base + len ∧ base < (f.vpn + f.pages) * 4096)

/-- Regions in the table, those about to enter it included, so that switches of several contexts never pass 1,024 (R342). -/
def State.regions (s : State) : Nat :=
  s.swm.length + (s.ctxs.filter fun c => match c.swmBusy with | some (enter, _, _) => enter | none => false).length
/-- The cause for which a switch is refused, the lowest that applies, or 0 (R345). -/
def State.swmCause (s : State) (ctx base : Nat) (enter : Bool) : Nat :=
  let there := (s.swmAt? ctx base).isSome
  if enter && decide (1024 ≤ s.regions) then 1
  else if !enter && !there then 2
  else if enter && there then 3
  else if s.freezes? (s.ctxAt ctx).asid base (2 ^ 21) || s.shadows? ctx base (2 ^ 21) || s.migrates ctx base (2 ^ 21) then 4
  else if (s.leavesOf ctx base).any fun l => l.perm.typ != .local then 5
  else 0

/-- The owner mask that SWMMASK names: the logical cores whose bits are set; none while its page holds requests. A mask that cannot be read
is free (log 5). -/
def State.ownerMask (s : State) (ctx : Nat) : Option (List Nat × State) :=
  let owners (r : List Byte × State) : List Nat × State := ((List.range 240).filter (leNat r.1).testBit, r.2)
  match s.vaRead ctx (s.ctxAt ctx).swmmask.toNat 32 with
  | .ok r => some (owners r)
  | .error .held => none
  | .error _ => some (owners (s.drawBytes 32))

/-- A write to SWMCTL (R343, R345): ignored while BUSY; refused for a cause; else the switch begins and holds new requests, once its mask
can be read. -/
def State.swmSwitch (s : State) (ctx : Nat) (enter : Bool) : State :=
  let c := s.ctxAt ctx
  let base := c.swmbase.toNat / 2 ^ 21 * 2 ^ 21
  if c.swmBusy.isSome || !c.exist then s
  else
    match s.swmCause ctx base enter with
    | 0 =>
      match (if enter then s.ownerMask ctx else some ([], s)) with
      | none => s.holdEvent (.swm ctx)
      | some (owners, s) => s.modCtx ctx fun c => { c with swmBusy := some (enter, base, owners) }
    | e => s.modCtx ctx fun c => { c with swmErr := e }

/-- SWM_ENTER (R344): Start making a region software-managed. -/
def execSwmEnter (ctx : Nat) (s : State) : Out := .next (s.swmSwitch ctx true)
/-- SWM_RETURN (R344): Start returning a region to the directory. -/
def execSwmReturn (ctx : Nat) (s : State) : Out := .next (s.swmSwitch ctx false)

/-- A leaf's word with another SWM bit (R215). -/
def withSwm (raw : Nat) (b : Bool) : Nat := raw - bits raw 7 1 * 128 + b.toNat * 128

/-- The leaves that map a region of a context get an SWM bit (R344 step 4). -/
def State.setSwm (s : State) (ctx base : Nat) (b : Bool) : State :=
  (s.leavesOf ctx base).foldl (fun s l => s.putEntries (s.entriesWith l.slots fun w => withSwm w b)) s

/-- SWM_SWITCH_DONE (R344 steps 2 to 5): Every cache drops the region after writing back, the region enters or leaves the table, its leaves'
SWM bits change, its TLB entries go, and DONE increments; records that waited for the region are written. -/
def execSwmSwitchDone (ctx : Nat) (s : State) : Out :=
  match (s.ctxAt ctx).swmBusy with
  | none => .next s
  | some (enter, base, owners) =>
    let s := s.sweepRange (s.ctxAt ctx).asid base (2 ^ 21)
    let rest := s.swm.filter fun r => !(r.ctx == ctx && r.base == base)
    let new : List SwmRegion := if enter then [{ ctx := ctx, base := base, owners := owners }] else []
    let s := { s with swm := rest ++ new }.setSwm ctx base enter
    .next (s.modCtx ctx fun c => { c with swmBusy := none, swmDone := c.swmDone + 1 }).releaseRecs

/-! ## Bias flips (R352, R353) -/

/-- Flips by command accepted and not done (R352). -/
def State.flipsQueued (s : State) : Nat :=
  (s.flips.filter fun f => !f.internal).length + (match s.flip with | some r => (!r.flip.internal).toNat | none => 0)
/-- A command is done or refused, with its outcome (R352). -/
def State.biasEnd (s : State) (f : Flip) (err : Nat) : State :=
  if f.internal then s else { s with mgmt := { s.mgmt with biasDone := s.mgmt.biasDone + 1, biasErr := err } }

/-- A write to BIASCMD queues a flip with the BIASVA it finds; with 16 queued it is refused (R352). -/
def State.queueFlip (s : State) (v : BitVec 64) (toHost : Bool) : State :=
  let cmd : BitVec 64 := if toHost then v ||| (1#64 <<< 40) else v &&& ~~~(1#64 <<< 40)
  let f : Flip := { cmd := cmd, va := s.mgmt.biasva, internal := false }
  if 16 ≤ s.flipsQueued then s.biasEnd f 4 else { s with flips := s.flips ++ [f] }

/-- BIAS_TO_HOST (R352): Queue a flip of a page to host bias. -/
def execBiasToHost (v : BitVec 64) (s : State) : Out := .next (if s.recovery then s else s.queueFlip v true)
/-- BIAS_TO_DEVICE (R352): Queue a flip of a page to device bias. -/
def execBiasToDevice (v : BitVec 64) (s : State) : Out := .next (if s.recovery then s else s.queueFlip v false)

/-- FRAME of a flip. -/
def Flip.frame (f : Flip) : Nat := f.cmd.toNat % 2 ^ 40
/-- ASID of a flip. -/
def Flip.asid (f : Flip) : Nat := (f.cmd.extractLsb' 42 16).toNat
/-- The page's VA. -/
def Flip.page (f : Flip) : Nat := f.va.toNat / 4096 * 4096
/-- NOMAP of a flip. -/
def Flip.noMap (f : Flip) : Bool := f.cmd.getLsbD 58
/-- The contexts in which a flip's VA is looked up: that of its ASID, or every one when the page is global (R352). -/
def State.flipCtxs (s : State) (f : Flip) : List Nat :=
  (List.range 256).filter fun k => let c := s.ctxAt k; c.exist && (f.cmd.getLsbD 41 || c.asid == f.asid)
/-- The VA translates to FRAME. -/
def State.flipMaps (s : State) (f : Flip) (ctx : Nat) : Bool :=
  match s.leafAt ctx f.page with
  | some l => l.placeAt f.page == .lpddr (f.frame * 4096) && (!f.cmd.getLsbD 41 || l.glob)
  | none => false

/-- The causes of R352, the lowest that applies, or 0; a freeze's own flips are not refused for it. -/
def State.flipCause (s : State) (f : Flip) : Nat :=
  let ctxs := s.flipCtxs f
  if !f.noMap && !ctxs.any (s.flipMaps f) then 1
  else if Config.hostVisibleBytes < (f.frame + 1) * 4096 then 2
  else if !f.noMap && !f.internal && ctxs.any fun k =>
      s.freezes? (s.ctxAt k).asid f.page 4096 || s.shadows? k f.page 4096 || s.migrates k f.page 4096 then 3
  else 0

/-- FLIP_START (R352, R353 step 1): The next queued flip starts: it is refused, done at once, or holds new accesses to its page; a flip to
device bias sends BISnpInv for each of the page's 64 host lines. -/
def execFlipStart (s : State) : Out :=
  match s.flip, s.flips with
  | none, f :: rest =>
    let s := { s with flips := rest }
    let toHost := f.cmd.getLsbD 40
    match s.flipCause f with
    | 0 =>
      if s.bias.contains f.frame == toHost then .next (s.biasEnd f 0)
      else
        let owed := if toHost then [] else List.range 64
        let run : FlipRun := { flip := f, frame := f.frame, toHost := toHost, owed := owed, step2 := !toHost }
        .next (owed.foldl (fun s i => s.send (.biSnpInv (f.frame * 4096 + 64 * i))) { s with flip := some run })
    | e => .next (s.biasEnd f e)
  | _, _ => .next s

/-- BIRSP (R353 step 2): The host answers for one line; its dirty data goes to LPDDR-5X. -/
def execBirsp (half : Nat) (data : Option (List Byte)) (s : State) : Out :=
  match s.flip with
  | none => .next s
  | some r =>
    if !r.owed.contains half then .next s
    else
      let s := match data with
        | some bs => { s with mems := s.mems.write (.lpddr (r.frame * 4096 + 64 * half)) (slice bs 0 64) }
        | none => s
      .next { s with flip := some { r with owed := r.owed.filter (· != half) } }

/-! ## Host accesses to device memory (R350 to R352) -/

/-- A physical range is not host-visible (R351), or the HDM range is not decoded (R418). -/
def State.hidden (s : State) (pa n : Nat) : Bool := s.recovery || decide (Config.hostVisibleBytes < pa + n)

/-- A physical byte belongs to a LOCAL page of a frozen range whose home holds the mark (R350). -/
def State.frozenPa (s : State) (pa : Nat) : Bool :=
  s.freezes.any fun f =>
    match s.ctxOfAsid? f.asid with
    | none => false
    | some ctx => (List.range f.pages).any fun i =>
        let va := (f.vpn + i) * 4096
        match s.leafAt ctx va with
        | some l => l.placeAt va == .lpddr (pa / 4096 * 4096) && s.frozenLine f.asid ((va + pa % 4096) / 128)
        | none => false

/-- A host access is performed: a read without any snoop of device caches; a write to a LOCAL page of a frozen range gets an error
response and writes nothing (R350, R352). -/
def State.hostAccess (s : State) (a : HostAcc) : State :=
  match a with
  | .read pa n => if s.hidden pa n then s.send .hostError else s.send (.hostData (s.mems.read (.lpddr pa) n))
  | .write pa data =>
    if s.hidden pa data.length || ((List.range data.length).any fun i => s.frozenPa (pa + i)) then s.send .hostError
    else { s with mems := s.mems.write (.lpddr pa) data }
/-- Device physical addresses of a host access, its first and last. -/
def HostAcc.span (a : HostAcc) : Nat × Nat := match a with | .read pa n => (pa, pa + (n - 1)) | .write pa d => (pa, pa + (d.length - 1))
/-- The bridge holds a host access: it is to the page of a flip whose step 2 has begun, to host bias until the writeback (R353), to device
bias after the lines' BISnpInv (R360). -/
def State.holdsHost (s : State) (a : HostAcc) : Bool :=
  match s.flip with
  | some r => r.step2 && decide (a.span.1 / 4096 ≤ r.frame ∧ r.frame ≤ a.span.2 / 4096)
  | none => false
/-- A host access arrives: it is held, or performed. -/
def State.hostArrives (s : State) (a : HostAcc) : State :=
  if s.holdsHost a then { s with heldHost := s.heldHost ++ [a] } else s.hostAccess a
/-- A host address lies below the HDM decoder's base (R351, R358), or nothing is decoded. -/
def State.undecoded (s : State) (addr : Nat) : Bool := s.recovery || decide (addr < s.mgmt.hdmBase)

/-- HOST_MEM_READ (R352, R353, R360): The host reads device memory at a host address of the HDM range. -/
def execHostMemRead (addr n : Nat) (s : State) : Out :=
  .next (if s.undecoded addr then s.send .hostError else s.hostArrives (.read (addr - s.mgmt.hdmBase) n))
/-- HOST_MEM_WRITE (R350, R352, R353, R360): The host writes device memory at a host address of the HDM range. -/
def execHostMemWrite (addr : Nat) (data : List Byte) (s : State) : Out :=
  .next (if s.undecoded addr then s.send .hostError else s.hostArrives (.write (addr - s.mgmt.hdmBase) data))

/-! ## The end of a flip (R353, R360) -/

/-- The held host accesses are performed in their order of arrival; sweeps that waited for them may start (R218). -/
def State.releaseHost (s : State) : State :=
  let go (c : Ctx) : Ctx := { c with sweeps := c.sweeps.map fun w => { w with behind := false } }
  s.heldHost.foldl State.hostAccess { s with heldHost := [], ctxs := s.ctxs.map go }
/-- The line of a key belongs to the page of a flip. -/
def Flip.hasLine (f : Flip) (k : LineKey) : Bool :=
  !f.noMap && lineIn f.page 4096 k.line && (if f.cmd.getLsbD 41 then k.asid.isNone else tagMatch k.asid f.asid)

/-- An access is to the page of a flip. -/
def Flip.hasAcc (f : Flip) (a : Acc) : Bool :=
  !f.noMap && !a.seg7 && decide (a.va.toNat < f.page + 4096 ∧ f.page < a.va.toNat + a.size) && (f.cmd.getLsbD 41 || a.asid == f.asid)

/-- FLIP_DONE (R353 steps 1 to 4): A flip to host bias leaves step 1, from then on holding host accesses to the page; next every cache drops
the page after writing back. To device bias, every BIRsp is in. The bias bit changes, host accesses held are performed, and only then the
held device accesses go on (R360). -/
def execFlipDone (s : State) : Out :=
  match s.flip with
  | none => .next s
  | some r =>
    if !r.step2 then .next { s with flip := some { r with step2 := true } }
    else if !r.owed.isEmpty then .next s
    else
      let s := s.finish r.flip.hasAcc
      let s := if r.toHost then s.dropLines fun k _ _ => r.flip.hasLine k else s
      let rest := s.bias.filter (· != r.frame)
      let s : State := { s with bias := if r.toHost then r.frame :: rest else rest }
      .next ({ s.releaseHost with flip := none }.biasEnd r.flip 0).releaseRecs

/-! ## Snoops (R355, R356) -/

/-- The host takes a half: its data goes back when it is M (R355). -/
def State.answerSnoop (s : State) (h : BridgeHalf) (data : List Byte) : State :=
  let s := { s with bridge := s.bridge.filter (·.hpa != h.hpa) }
  if h.st == .m then ({ s with mems := s.mems.write (.host h.hpa) data }).send (.snpResp h.hpa (some data)) else s.send (.snpResp h.hpa none)

/-- A half moves to the bridge's buffer with its data; of more than 8,192 the oldest returns to the host (R354, R355). -/
def State.toBuffer (s : State) (h : BridgeHalf) (data : List Byte) : State :=
  let s := s.modHalf h.hpa fun x => { x with inLine := false, data := data, stamp := s.stamp }
  let s := { s with stamp := s.stamp + 1 }
  let buffered := s.bridge.filter fun x => !x.inLine
  if buffered.length ≤ 8192 then s
  else match oldestBy (·.stamp) buffered with | some o => s.evictHalf o o.data | none => s

/-- A snoop of a half, answered as an invalidation: the device line it lies in is dropped, dirty bytes recalled first, and the other half
kept in the buffer (R355). A cloud copy, which is never dirty, gives up the half and stays, serving the value at the mark (R350). -/
def State.snoop (s : State) (hpa : Nat) : State :=
  let hpa := hpa / 64 * 64
  match s.half? hpa with
  | none => s.send (.snpResp hpa none)
  | some h =>
    if h.st == .i then s.send (.snpResp hpa none)
    else if !h.inLine then s.answerSnoop h h.data
    else if (match s.l2Key? h.key with | some l => isCloud l.vtag | none => false) then s.answerSnoop h []
    else
      let s := s.homeTake h.key
      let line := match s.l2Key? h.key with | some l => lineBytes l.data | none => s.mems.read (.host (hpa / 128 * 128)) 128
      let s := { s with l2 := s.l2.filter (·.key != h.key) }
      let part (a : Nat) : List Byte := (line.drop (a % 128)).take 64
      let other := if hpa % 128 = 0 then hpa + 64 else hpa - 64
      let s := match s.half? other with
        | some o => if o.inLine then s.toBuffer o (part other) else s
        | none => s
      match s.half? hpa with
      | some h => s.answerSnoop h (part hpa)
      | none => s

/-- SNP_DATA (R355): Host SnpData to a half. -/
def execSnpData (hpa : Nat) (s : State) : Out := .next (s.snoop hpa)
/-- SNP_INV (R355): Host SnpInv to a half. -/
def execSnpInv (hpa : Nat) (s : State) : Out := .next (s.snoop hpa)
/-- SNP_CUR (R355): Host SnpCur to a half. -/
def execSnpCur (hpa : Nat) (s : State) : Out := .next (s.snoop hpa)

end Sys2Proof.Machine
end

