-- ==== Sys2Proof/Machine/Codec.lean ====
section
/-! DEFINITION. How the sections of a state image whose layout the spec leaves to the device hold their contents (20_interrupts R385):
every value as little-endian words of eight bytes, field by field, lists after their length. DESIGN CHOICE (log 40). -/

namespace Sys2Proof.Machine

/-- How a type is written as numbers and read back with the rest. -/
structure Codec (α : Type) where
  enc : α → List Nat
  dec : List Nat → Option (α × List Nat)

/-- Goes on with what was read. -/
def bindNext {α β : Type} (r : Option (α × List Nat)) (f : α → List Nat → Option β) : Option β :=
  match r with | some x => f x.1 x.2 | none => none

/-- A number. -/
def Codec.nat : Codec Nat where
  enc x := [x]
  dec l := match l with | x :: l => some (x, l) | [] => none
/-- A bit vector. -/
def Codec.bv (n : Nat) : Codec (BitVec n) where
  enc x := [x.toNat]
  dec l := match l with | x :: l => some (BitVec.ofNat n x, l) | [] => none
/-- A truth value. -/
def Codec.bool : Codec Bool where
  enc x := [x.toNat]
  dec l := match l with | x :: l => some (x != 0, l) | [] => none
/-- A pair. -/
def Codec.pair {α β : Type} (a : Codec α) (b : Codec β) : Codec (α × β) where
  enc x := a.enc x.1 ++ b.enc x.2
  dec l := bindNext (a.dec l) fun x l => bindNext (b.dec l) fun y l => some ((x, y), l)
/-- Something that may be absent. -/
def Codec.opt {α : Type} (a : Codec α) : Codec (Option α) where
  enc x := match x with | none => [0] | some y => 1 :: a.enc y
  dec l := match l with
    | 0 :: l => some (none, l)
    | 1 :: l => bindNext (a.dec l) fun x l => some (some x, l)
    | _ => none
/-- Reads `n` values. -/
def Codec.many {α : Type} (a : Codec α) : Nat → List Nat → Option (List α × List Nat)
  | 0, l => some ([], l)
  | n + 1, l => bindNext (a.dec l) fun x l => bindNext (a.many n l) fun xs l => some (x :: xs, l)
/-- A list, after its length. -/
def Codec.list {α : Type} (a : Codec α) : Codec (List α) where
  enc xs := xs.length :: xs.flatMap a.enc
  dec l := match l with | n :: l => a.many n l | [] => none

/-- The bytes of a value. -/
def Codec.bytes {α : Type} (a : Codec α) (x : α) : List Byte := (a.enc x).flatMap (leBytes 8)
/-- A value from its bytes, which hold nothing else. -/
def Codec.ofBytes {α : Type} (a : Codec α) (bs : List Byte) : Option α :=
  match a.dec ((chunks 8 (bs.length / 8) bs).map leNat) with | some (x, []) => some x | _ => none

/-- `SweepReq`, field by field. -/
def sweepReqCodec : Codec SweepReq where
  enc x := Codec.nat.enc x.base ++ Codec.nat.enc x.pages ++ Codec.bool.enc x.glob ++ Codec.bool.enc x.behind
  dec l :=
    bindNext (Codec.nat.dec l) fun base' l =>
    bindNext (Codec.nat.dec l) fun pages' l =>
    bindNext (Codec.bool.dec l) fun glob' l =>
    bindNext (Codec.bool.dec l) fun behind' l =>
    some ({ base := base', pages := pages', glob := glob', behind := behind' }, l)

/-- `Ring`, field by field. -/
def ringCodec : Codec Ring where
  enc x := (Codec.bv 64).enc x.base ++ Codec.nat.enc x.log2n ++ (Codec.bv 32).enc x.prod ++ (Codec.bv 32).enc x.cons ++
    (Codec.bv 32).enc x.lost
  dec l :=
    bindNext ((Codec.bv 64).dec l) fun base' l =>
    bindNext (Codec.nat.dec l) fun log2n' l =>
    bindNext ((Codec.bv 32).dec l) fun prod' l =>
    bindNext ((Codec.bv 32).dec l) fun cons' l =>
    bindNext ((Codec.bv 32).dec l) fun lost' l =>
    some ({ base := base', log2n := log2n', prod := prod', cons := cons', lost := lost' }, l)

/-- `Ctx`, field by field. -/
def ctxCodec : Codec Ctx where
  enc x := Codec.bool.enc x.exist ++ Codec.nat.enc x.asid ++ Codec.nat.enc x.root ++ Codec.bool.enc x.mig ++
    Codec.bool.enc x.debug ++ (Codec.bv 8).list.enc x.staging ++ Codec.bool.enc x.ovf ++ Codec.bool.enc x.bad ++
    Codec.bool.enc x.badacc ++ Codec.bool.enc x.reclost ++ Codec.nat.enc x.drops ++
    (Codec.bv 32).enc x.lastDrop ++ (Codec.bv 32).enc x.lastLost ++ (Codec.bv 64).enc x.swbase ++
    (Codec.bv 32).enc x.swDone ++ Codec.bool.enc x.swovf ++ sweepReqCodec.list.enc x.sweeps ++
    (Codec.bv 32).enc x.ptseq ++ (Codec.bv 64).enc x.hotcfg ++ Codec.nat.list.enc x.hotCount ++
    (Codec.bv 64).enc x.swmbase ++ (Codec.bv 64).enc x.swmmask ++ (Codec.bv 32).enc x.swmDone ++
    Codec.nat.enc x.swmErr ++ (Codec.bool.pair (Codec.nat.pair Codec.nat.list)).opt.enc x.swmBusy ++
    (Codec.bv 64).enc x.svbase ++ (Codec.bv 32).enc x.svslots ++ Codec.nat.list.enc x.slots ++
    (Codec.bv 64).enc x.capbase ++ (Codec.bv 64).enc x.capsize ++ (Codec.bv 64).enc x.caplist ++
    (Codec.bv 64).enc x.replog ++ (Codec.bv 64).enc x.trcctl ++ (Codec.bv 64).enc x.vectors ++
    (Codec.bv 64).enc x.dbgva ++ ringCodec.list.enc x.rings ++ (Codec.bv 32).enc x.faultId ++
    (Codec.bv 32).enc x.trapSeq
  dec l :=
    bindNext (Codec.bool.dec l) fun exist' l =>
    bindNext (Codec.nat.dec l) fun asid' l =>
    bindNext (Codec.nat.dec l) fun root' l =>
    bindNext (Codec.bool.dec l) fun mig' l =>
    bindNext (Codec.bool.dec l) fun debug' l =>
    bindNext ((Codec.bv 8).list.dec l) fun staging' l =>
    bindNext (Codec.bool.dec l) fun ovf' l =>
    bindNext (Codec.bool.dec l) fun bad' l =>
    bindNext (Codec.bool.dec l) fun badacc' l =>
    bindNext (Codec.bool.dec l) fun reclost' l =>
    bindNext (Codec.nat.dec l) fun drops' l =>
    bindNext ((Codec.bv 32).dec l) fun lastDrop' l =>
    bindNext ((Codec.bv 32).dec l) fun lastLost' l =>
    bindNext ((Codec.bv 64).dec l) fun swbase' l =>
    bindNext ((Codec.bv 32).dec l) fun swDone' l =>
    bindNext (Codec.bool.dec l) fun swovf' l =>
    bindNext (sweepReqCodec.list.dec l) fun sweeps' l =>
    bindNext ((Codec.bv 32).dec l) fun ptseq' l =>
    bindNext ((Codec.bv 64).dec l) fun hotcfg' l =>
    bindNext (Codec.nat.list.dec l) fun hotCount' l =>
    bindNext ((Codec.bv 64).dec l) fun swmbase' l =>
    bindNext ((Codec.bv 64).dec l) fun swmmask' l =>
    bindNext ((Codec.bv 32).dec l) fun swmDone' l =>
    bindNext (Codec.nat.dec l) fun swmErr' l =>
    bindNext ((Codec.bool.pair (Codec.nat.pair Codec.nat.list)).opt.dec l) fun swmBusy' l =>
    bindNext ((Codec.bv 64).dec l) fun svbase' l =>
    bindNext ((Codec.bv 32).dec l) fun svslots' l =>
    bindNext (Codec.nat.list.dec l) fun slots' l =>
    bindNext ((Codec.bv 64).dec l) fun capbase' l =>
    bindNext ((Codec.bv 64).dec l) fun capsize' l =>
    bindNext ((Codec.bv 64).dec l) fun caplist' l =>
    bindNext ((Codec.bv 64).dec l) fun replog' l =>
    bindNext ((Codec.bv 64).dec l) fun trcctl' l =>
    bindNext ((Codec.bv 64).dec l) fun vectors' l =>
    bindNext ((Codec.bv 64).dec l) fun dbgva' l =>
    bindNext (ringCodec.list.dec l) fun rings' l =>
    bindNext ((Codec.bv 32).dec l) fun faultId' l =>
    bindNext ((Codec.bv 32).dec l) fun trapSeq' l =>
    some ({ exist := exist', asid := asid', root := root', mig := mig', debug := debug', staging := staging',
            ovf := ovf', bad := bad', badacc := badacc', reclost := reclost', drops := drops', lastDrop := lastDrop',
            lastLost := lastLost', swbase := swbase', swDone := swDone', swovf := swovf', sweeps := sweeps',
            ptseq := ptseq', hotcfg := hotcfg', hotCount := hotCount', swmbase := swmbase', swmmask := swmmask',
            swmDone := swmDone', swmErr := swmErr', swmBusy := swmBusy', svbase := svbase', svslots := svslots',
            slots := slots', capbase := capbase', capsize := capsize', caplist := caplist', replog := replog',
            trcctl := trcctl', vectors := vectors', dbgva := dbgva', rings := rings', faultId := faultId',
            trapSeq := trapSeq' }, l)

/-- `SwmRegion`, field by field. -/
def swmRegionCodec : Codec SwmRegion where
  enc x := Codec.nat.enc x.ctx ++ Codec.nat.enc x.base ++ Codec.nat.list.enc x.owners
  dec l :=
    bindNext (Codec.nat.dec l) fun ctx' l =>
    bindNext (Codec.nat.dec l) fun base' l =>
    bindNext (Codec.nat.list.dec l) fun owners' l =>
    some ({ ctx := ctx', base := base', owners := owners' }, l)

/-- `ColId`, field by field. -/
def colIdCodec : Codec ColId where
  enc x := Codec.nat.enc x.launch ++ Codec.nat.enc x.col
  dec l :=
    bindNext (Codec.nat.dec l) fun launch' l =>
    bindNext (Codec.nat.dec l) fun col' l =>
    some ({ launch := launch', col := col' }, l)

/-- `FaultRec`, field by field. -/
def faultRecCodec : Codec FaultRec where
  enc x := Codec.nat.enc x.fid ++ Codec.nat.enc x.ctx ++ colIdCodec.enc x.col ++ Codec.nat.enc x.page ++
    Codec.nat.enc x.cause ++ Codec.nat.enc x.access ++ Codec.nat.enc x.refault ++ (Codec.bv 64).enc x.va ++
    Codec.bool.enc x.written ++ Codec.nat.enc x.stage ++ Codec.bool.enc x.rd ++ Codec.bool.enc x.wr ++
    Codec.bool.enc x.ex ++ (Codec.bv 32).list.enc x.replay
  dec l :=
    bindNext (Codec.nat.dec l) fun fid' l =>
    bindNext (Codec.nat.dec l) fun ctx' l =>
    bindNext (colIdCodec.dec l) fun col' l =>
    bindNext (Codec.nat.dec l) fun page' l =>
    bindNext (Codec.nat.dec l) fun cause' l =>
    bindNext (Codec.nat.dec l) fun access' l =>
    bindNext (Codec.nat.dec l) fun refault' l =>
    bindNext ((Codec.bv 64).dec l) fun va' l =>
    bindNext (Codec.bool.dec l) fun written' l =>
    bindNext (Codec.nat.dec l) fun stage' l =>
    bindNext (Codec.bool.dec l) fun rd' l =>
    bindNext (Codec.bool.dec l) fun wr' l =>
    bindNext (Codec.bool.dec l) fun ex' l =>
    bindNext ((Codec.bv 32).list.dec l) fun replay' l =>
    some ({ fid := fid', ctx := ctx', col := col', page := page', cause := cause', access := access',
            refault := refault', va := va', written := written', stage := stage', rd := rd', wr := wr', ex := ex',
            replay := replay' }, l)

/-- `Submitted`, field by field. -/
def submittedCodec : Codec Submitted where
  enc x := Codec.nat.enc x.ctx ++ (Codec.bv 8).list.enc x.block ++ (Codec.nat.pair Codec.nat).enc x.arrived ++
    Codec.nat.enc x.replog ++ Codec.bool.enc x.slotted
  dec l :=
    bindNext (Codec.nat.dec l) fun ctx' l =>
    bindNext ((Codec.bv 8).list.dec l) fun block' l =>
    bindNext ((Codec.nat.pair Codec.nat).dec l) fun arrived' l =>
    bindNext (Codec.nat.dec l) fun replog' l =>
    bindNext (Codec.bool.dec l) fun slotted' l =>
    some ({ ctx := ctx', block := block', arrived := arrived', replog := replog', slotted := slotted' }, l)

/-- `GroupId`, field by field. -/
def groupIdCodec : Codec GroupId where
  enc x := Codec.nat.enc x.launch ++ Codec.nat.enc x.col ++ Codec.nat.enc x.stage
  dec l :=
    bindNext (Codec.nat.dec l) fun launch' l =>
    bindNext (Codec.nat.dec l) fun col' l =>
    bindNext (Codec.nat.dec l) fun stage' l =>
    some ({ launch := launch', col := col', stage := stage' }, l)

/-- `Launch`, field by field. -/
def launchCodec : Codec Launch where
  enc x := Codec.nat.enc x.seq ++ Codec.nat.enc x.ctx ++ Codec.nat.enc x.asid ++ (Codec.bv 8).list.enc x.block ++
    Codec.nat.list.enc x.waits ++ Codec.nat.enc x.refused ++
    (Codec.nat.pair (Codec.bv 8).list).list.enc x.kernels ++ Codec.nat.enc x.nextCol ++ Codec.nat.enc x.ndisc ++
    Codec.nat.enc x.ngroups ++ Codec.nat.enc x.vcycles ++ (Codec.bv 32).enc x.status ++
    (Codec.nat.pair (Codec.nat.pair (Codec.nat.pair (Codec.nat.pair Codec.nat)))).opt.enc x.fault ++
    Codec.nat.opt.enc x.tstart ++ (Codec.bv 32).enc x.clkreq ++ Codec.bool.enc x.sole ++
    (Codec.nat.pair Codec.nat).opt.enc x.blockedAt ++ Codec.bool.enc x.blocked50 ++ Codec.bool.enc x.capDone ++
    Codec.bool.enc x.capFail ++ Codec.bool.enc x.capTrunc ++ Codec.bool.enc x.rDiverge ++
    Codec.nat.enc x.capPos ++ (Codec.nat.pair Codec.nat).list.opt.enc x.replay ++
    groupIdCodec.list.enc x.doneGroups ++ Codec.bool.enc x.ended
  dec l :=
    bindNext (Codec.nat.dec l) fun seq' l =>
    bindNext (Codec.nat.dec l) fun ctx' l =>
    bindNext (Codec.nat.dec l) fun asid' l =>
    bindNext ((Codec.bv 8).list.dec l) fun block' l =>
    bindNext (Codec.nat.list.dec l) fun waits' l =>
    bindNext (Codec.nat.dec l) fun refused' l =>
    bindNext ((Codec.nat.pair (Codec.bv 8).list).list.dec l) fun kernels' l =>
    bindNext (Codec.nat.dec l) fun nextCol' l =>
    bindNext (Codec.nat.dec l) fun ndisc' l =>
    bindNext (Codec.nat.dec l) fun ngroups' l =>
    bindNext (Codec.nat.dec l) fun vcycles' l =>
    bindNext ((Codec.bv 32).dec l) fun status' l =>
    bindNext ((Codec.nat.pair (Codec.nat.pair (Codec.nat.pair (Codec.nat.pair Codec.nat)))).opt.dec l) fun fault' l =>
    bindNext (Codec.nat.opt.dec l) fun tstart' l =>
    bindNext ((Codec.bv 32).dec l) fun clkreq' l =>
    bindNext (Codec.bool.dec l) fun sole' l =>
    bindNext ((Codec.nat.pair Codec.nat).opt.dec l) fun blockedAt' l =>
    bindNext (Codec.bool.dec l) fun blocked50' l =>
    bindNext (Codec.bool.dec l) fun capDone' l =>
    bindNext (Codec.bool.dec l) fun capFail' l =>
    bindNext (Codec.bool.dec l) fun capTrunc' l =>
    bindNext (Codec.bool.dec l) fun rDiverge' l =>
    bindNext (Codec.nat.dec l) fun capPos' l =>
    bindNext ((Codec.nat.pair Codec.nat).list.opt.dec l) fun replay' l =>
    bindNext (groupIdCodec.list.dec l) fun doneGroups' l =>
    bindNext (Codec.bool.dec l) fun ended' l =>
    some ({ seq := seq', ctx := ctx', asid := asid', block := block', waits := waits', refused := refused',
            kernels := kernels', nextCol := nextCol', ndisc := ndisc', ngroups := ngroups', vcycles := vcycles',
            status := status', fault := fault', tstart := tstart', clkreq := clkreq', sole := sole',
            blockedAt := blockedAt', blocked50 := blocked50', capDone := capDone', capFail := capFail',
            capTrunc := capTrunc', rDiverge := rDiverge', capPos := capPos', replay := replay',
            doneGroups := doneGroups', ended := ended' }, l)

/-- `OrdEntry`, field by field. -/
def ordEntryCodec : Codec OrdEntry where
  enc x := Codec.nat.enc x.launch ++ Codec.nat.enc x.va ++ (Codec.bv 32).enc x.v ++ Codec.nat.enc x.col ++
    Codec.nat.enc x.stage ++ Codec.nat.enc x.tid ++ Codec.nat.enc x.seq ++ Codec.nat.enc x.asid
  dec l :=
    bindNext (Codec.nat.dec l) fun launch' l =>
    bindNext (Codec.nat.dec l) fun va' l =>
    bindNext ((Codec.bv 32).dec l) fun v' l =>
    bindNext (Codec.nat.dec l) fun col' l =>
    bindNext (Codec.nat.dec l) fun stage' l =>
    bindNext (Codec.nat.dec l) fun tid' l =>
    bindNext (Codec.nat.dec l) fun seq' l =>
    bindNext (Codec.nat.dec l) fun asid' l =>
    some ({ launch := launch', va := va', v := v', col := col', stage := stage', tid := tid', seq := seq', asid := asid' }, l)

/-- `StopReason`, by its constructor's number. -/
def stopReasonCodec : Codec StopReason where
  enc x := match x with
    | .preempt => 0 :: []
    | .switchOut => 1 :: []
    | .trap => 2 :: []
    | .quiesce => 3 :: []
  dec l := match l with
    | 0 :: l => some (.preempt, l)
    | 1 :: l => some (.switchOut, l)
    | 2 :: l => some (.trap, l)
    | 3 :: l => some (.quiesce, l)
    | _ => none

/-- `Trap`, field by field. -/
def trapCodec : Codec Trap where
  enc x := Codec.nat.enc x.cls ++ Codec.nat.enc x.code ++ Codec.nat.enc x.stage ++ Codec.bool.enc x.teller ++
    Codec.bool.enc x.engine ++ Codec.bool.enc x.late ++ Codec.nat.enc x.tid ++ Codec.nat.enc x.strand ++
    (Codec.bv 64).enc x.pc ++ (Codec.bv 64).enc x.va ++ Codec.bool.enc x.atIssue
  dec l :=
    bindNext (Codec.nat.dec l) fun cls' l =>
    bindNext (Codec.nat.dec l) fun code' l =>
    bindNext (Codec.nat.dec l) fun stage' l =>
    bindNext (Codec.bool.dec l) fun teller' l =>
    bindNext (Codec.bool.dec l) fun engine' l =>
    bindNext (Codec.bool.dec l) fun late' l =>
    bindNext (Codec.nat.dec l) fun tid' l =>
    bindNext (Codec.nat.dec l) fun strand' l =>
    bindNext ((Codec.bv 64).dec l) fun pc' l =>
    bindNext ((Codec.bv 64).dec l) fun va' l =>
    bindNext (Codec.bool.dec l) fun atIssue' l =>
    some ({ cls := cls', code := code', stage := stage', teller := teller', engine := engine', late := late',
            tid := tid', strand := strand', pc := pc', va := va', atIssue := atIssue' }, l)

/-- `Sleeper`, field by field. -/
def sleeperCodec : Codec Sleeper where
  enc x := Codec.nat.enc x.stage ++ Codec.nat.enc x.tid ++ Codec.nat.enc x.n ++ Codec.nat.enc x.bar ++
    (Codec.bv 64).enc x.pc ++ (Codec.bv 64).enc x.next
  dec l :=
    bindNext (Codec.nat.dec l) fun stage' l =>
    bindNext (Codec.nat.dec l) fun tid' l =>
    bindNext (Codec.nat.dec l) fun n' l =>
    bindNext (Codec.nat.dec l) fun bar' l =>
    bindNext ((Codec.bv 64).dec l) fun pc' l =>
    bindNext ((Codec.bv 64).dec l) fun next' l =>
    some ({ stage := stage', tid := tid', n := n', bar := bar', pc := pc', next := next' }, l)

/-- `Kept`, by its constructor's number. -/
def keptCodec : Codec Kept where
  enc x := match x with
    | .strand stage' tid' n' seq' know' after' lent' fenced' over_' => 0 :: Codec.nat.enc stage' ++ Codec.nat.enc tid' ++ Codec.nat.enc n' ++ Codec.nat.enc seq' ++ Codec.nat.list.enc know' ++ Codec.nat.list.enc after' ++ Codec.nat.list.enc lent' ++ (Codec.nat.pair Codec.nat).list.enc fenced' ++ Codec.bool.enc over_'
    | .greg stage' tid' g' know' after' fenced' => 1 :: Codec.nat.enc stage' ++ Codec.nat.enc tid' ++ Codec.nat.enc g' ++ Codec.nat.list.enc know' ++ Codec.nat.list.enc after' ++ (Codec.nat.pair Codec.nat).list.enc fenced'
    | .barrier stage' b' before' owed' => 2 :: Codec.nat.enc stage' ++ Codec.nat.enc b' ++ Codec.nat.list.enc before' ++ (Codec.nat.pair Codec.nat.list).list.enc owed'
    | .teller stage' after' => 3 :: Codec.nat.enc stage' ++ Codec.nat.list.enc after'
  dec l := match l with
    | 0 :: l => bindNext (Codec.nat.dec l) fun stage' l => bindNext (Codec.nat.dec l) fun tid' l => bindNext (Codec.nat.dec l) fun n' l => bindNext (Codec.nat.dec l) fun seq' l => bindNext (Codec.nat.list.dec l) fun know' l => bindNext (Codec.nat.list.dec l) fun after' l => bindNext (Codec.nat.list.dec l) fun lent' l => bindNext ((Codec.nat.pair Codec.nat).list.dec l) fun fenced' l => bindNext (Codec.bool.dec l) fun over_' l => some (.strand stage' tid' n' seq' know' after' lent' fenced' over_', l)
    | 1 :: l => bindNext (Codec.nat.dec l) fun stage' l => bindNext (Codec.nat.dec l) fun tid' l => bindNext (Codec.nat.dec l) fun g' l => bindNext (Codec.nat.list.dec l) fun know' l => bindNext (Codec.nat.list.dec l) fun after' l => bindNext ((Codec.nat.pair Codec.nat).list.dec l) fun fenced' l => some (.greg stage' tid' g' know' after' fenced', l)
    | 2 :: l => bindNext (Codec.nat.dec l) fun stage' l => bindNext (Codec.nat.dec l) fun b' l => bindNext (Codec.nat.list.dec l) fun before' l => bindNext ((Codec.nat.pair Codec.nat.list).list.dec l) fun owed' l => some (.barrier stage' b' before' owed', l)
    | 3 :: l => bindNext (Codec.nat.dec l) fun stage' l => bindNext (Codec.nat.list.dec l) fun after' l => some (.teller stage' after', l)
    | _ => none

/-- `DqEntry`, field by field. -/
def dqEntryCodec : Codec DqEntry where
  enc x := (Codec.bv 32).enc x.seq ++ (Codec.bv 32).enc x.value ++ Codec.nat.enc x.readers
  dec l :=
    bindNext ((Codec.bv 32).dec l) fun seq' l =>
    bindNext ((Codec.bv 32).dec l) fun value' l =>
    bindNext (Codec.nat.dec l) fun readers' l =>
    some ({ seq := seq', value := value', readers := readers' }, l)

/-- `CmdState`, by its constructor's number. -/
def cmdStateCodec : Codec CmdState where
  enc x := match x with
    | .queued => 0 :: []
    | .held => 1 :: []
    | .ready => 2 :: []
    | .parked fid' => 3 :: Codec.nat.enc fid'
    | .started => 4 :: []
  dec l := match l with
    | 0 :: l => some (.queued, l)
    | 1 :: l => some (.held, l)
    | 2 :: l => some (.ready, l)
    | 3 :: l => bindNext (Codec.nat.dec l) fun fid' l => some (.parked fid', l)
    | 4 :: l => some (.started, l)
    | _ => none

/-- `Cmd`, field by field. -/
def cmdCodec : Codec Cmd where
  enc x := Codec.nat.enc x.id ++ Codec.nat.enc x.core ++ Codec.nat.enc x.queue ++ groupIdCodec.enc x.gid ++
    Codec.nat.enc x.ctx ++ (Codec.bv 32).list.enc x.words ++ cmdStateCodec.enc x.st ++ Codec.nat.enc x.aseq ++
    Codec.nat.enc x.tgen ++ (Codec.bv 32).enc x.fmtA ++ (Codec.bv 32).enc x.fmtB ++ Codec.bool.enc x.sf ++
    Codec.nat.list.enc x.iter ++ Codec.nat.enc x.prog ++ (Codec.bv 8).list.enc x.readBytes ++
    Codec.nat.enc x.wrote ++ (Codec.nat.pair (Codec.bv 8).list).list.enc x.ahead ++
    (Codec.nat.pair Codec.nat).list.enc x.past ++ Codec.bool.enc x.finished ++ Codec.bool.enc x.taken ++
    Codec.nat.opt.enc x.collNo ++ Codec.nat.opt.enc x.idx ++ Codec.nat.list.enc x.idxs ++ Codec.nat.enc x.start
  dec l :=
    bindNext (Codec.nat.dec l) fun id' l =>
    bindNext (Codec.nat.dec l) fun core' l =>
    bindNext (Codec.nat.dec l) fun queue' l =>
    bindNext (groupIdCodec.dec l) fun gid' l =>
    bindNext (Codec.nat.dec l) fun ctx' l =>
    bindNext ((Codec.bv 32).list.dec l) fun words' l =>
    bindNext (cmdStateCodec.dec l) fun st' l =>
    bindNext (Codec.nat.dec l) fun aseq' l =>
    bindNext (Codec.nat.dec l) fun tgen' l =>
    bindNext ((Codec.bv 32).dec l) fun fmtA' l =>
    bindNext ((Codec.bv 32).dec l) fun fmtB' l =>
    bindNext (Codec.bool.dec l) fun sf' l =>
    bindNext (Codec.nat.list.dec l) fun iter' l =>
    bindNext (Codec.nat.dec l) fun prog' l =>
    bindNext ((Codec.bv 8).list.dec l) fun readBytes' l =>
    bindNext (Codec.nat.dec l) fun wrote' l =>
    bindNext ((Codec.nat.pair (Codec.bv 8).list).list.dec l) fun ahead' l =>
    bindNext ((Codec.nat.pair Codec.nat).list.dec l) fun past' l =>
    bindNext (Codec.bool.dec l) fun finished' l =>
    bindNext (Codec.bool.dec l) fun taken' l =>
    bindNext (Codec.nat.opt.dec l) fun collNo' l =>
    bindNext (Codec.nat.opt.dec l) fun idx' l =>
    bindNext (Codec.nat.list.dec l) fun idxs' l =>
    bindNext (Codec.nat.dec l) fun start' l =>
    some ({ id := id', core := core', queue := queue', gid := gid', ctx := ctx', words := words', st := st',
            aseq := aseq', tgen := tgen', fmtA := fmtA', fmtB := fmtB', sf := sf', iter := iter', prog := prog',
            readBytes := readBytes', wrote := wrote', ahead := ahead', past := past', finished := finished',
            taken := taken', collNo := collNo', idx := idx', idxs := idxs', start := start' }, l)

/-- `SavedCmd`, field by field. -/
def savedCmdCodec : Codec SavedCmd where
  enc x := cmdCodec.enc x.cmd ++ Codec.bool.enc x.discarded
  dec l :=
    bindNext (cmdCodec.dec l) fun cmd' l =>
    bindNext (Codec.bool.dec l) fun discarded' l =>
    some ({ cmd := cmd', discarded := discarded' }, l)

/-- `SavedCol`, field by field. -/
def savedColCodec : Codec SavedCol where
  enc x := colIdCodec.enc x.id ++ Codec.nat.enc x.ctx ++ stopReasonCodec.enc x.reason ++ Codec.nat.opt.enc x.slot ++
    (Codec.bv 8).list.enc x.record ++ ((Codec.bv 8).pair (Codec.bv 8)).list.enc x.sealed ++
    trapCodec.opt.enc x.trap ++ (Codec.bv 32).enc x.trapSeq ++ Codec.nat.enc x.missing ++
    (trapCodec.pair ((Codec.bv 32).pair Codec.nat)).list.enc x.owed ++ sleeperCodec.list.enc x.asleep ++
    (Codec.nat.pair Codec.nat).list.enc x.triggers ++
    (Codec.nat.pair (Codec.nat.pair (Codec.bv 32))).list.enc x.exited ++
    (Codec.nat.pair (Codec.nat.pair (Codec.bv 64).opt)).list.enc x.parked ++ keptCodec.list.enc x.kept ++
    (Codec.nat.pair dqEntryCodec).list.enc x.oldDq ++ savedCmdCodec.list.enc x.entries ++
    Codec.bool.enc x.placeable
  dec l :=
    bindNext (colIdCodec.dec l) fun id' l =>
    bindNext (Codec.nat.dec l) fun ctx' l =>
    bindNext (stopReasonCodec.dec l) fun reason' l =>
    bindNext (Codec.nat.opt.dec l) fun slot' l =>
    bindNext ((Codec.bv 8).list.dec l) fun record' l =>
    bindNext (((Codec.bv 8).pair (Codec.bv 8)).list.dec l) fun sealed' l =>
    bindNext (trapCodec.opt.dec l) fun trap' l =>
    bindNext ((Codec.bv 32).dec l) fun trapSeq' l =>
    bindNext (Codec.nat.dec l) fun missing' l =>
    bindNext ((trapCodec.pair ((Codec.bv 32).pair Codec.nat)).list.dec l) fun owed' l =>
    bindNext (sleeperCodec.list.dec l) fun asleep' l =>
    bindNext ((Codec.nat.pair Codec.nat).list.dec l) fun triggers' l =>
    bindNext ((Codec.nat.pair (Codec.nat.pair (Codec.bv 32))).list.dec l) fun exited' l =>
    bindNext ((Codec.nat.pair (Codec.nat.pair (Codec.bv 64).opt)).list.dec l) fun parked' l =>
    bindNext (keptCodec.list.dec l) fun kept' l =>
    bindNext ((Codec.nat.pair dqEntryCodec).list.dec l) fun oldDq' l =>
    bindNext (savedCmdCodec.list.dec l) fun entries' l =>
    bindNext (Codec.bool.dec l) fun placeable' l =>
    some ({ id := id', ctx := ctx', reason := reason', slot := slot', record := record', sealed := sealed',
            trap := trap', trapSeq := trapSeq', missing := missing', owed := owed', asleep := asleep',
            triggers := triggers', exited := exited', parked := parked', kept := kept', oldDq := oldDq',
            entries := entries', placeable := placeable' }, l)

/-- `PageType`, by its constructor's number. -/
def pageTypeCodec : Codec PageType where
  enc x := match x with
    | .local => 0 :: []
    | .host => 1 :: []
    | .remote => 2 :: []
    | .wstore => 3 :: []
  dec l := match l with
    | 0 :: l => some (.local, l)
    | 1 :: l => some (.host, l)
    | 2 :: l => some (.remote, l)
    | 3 :: l => some (.wstore, l)
    | _ => none

/-- `Perm`, field by field. -/
def permCodec : Codec Perm where
  enc x := Codec.bool.enc x.rd ++ Codec.bool.enc x.wr ++ Codec.bool.enc x.ex ++ Codec.bool.enc x.swm ++
    pageTypeCodec.enc x.typ
  dec l :=
    bindNext (Codec.bool.dec l) fun rd' l =>
    bindNext (Codec.bool.dec l) fun wr' l =>
    bindNext (Codec.bool.dec l) fun ex' l =>
    bindNext (Codec.bool.dec l) fun swm' l =>
    bindNext (pageTypeCodec.dec l) fun typ' l =>
    some ({ rd := rd', wr := wr', ex := ex', swm := swm', typ := typ' }, l)

/-- `Place`, by its constructor's number. -/
def placeCodec : Codec Place where
  enc x := match x with
    | .lpddr pa' => 0 :: Codec.nat.enc pa'
    | .wstore pa' => 1 :: Codec.nat.enc pa'
    | .host pa' => 2 :: Codec.nat.enc pa'
    | .remote chip' asid' va' => 3 :: Codec.nat.enc chip' ++ Codec.nat.enc asid' ++ Codec.nat.enc va'
  dec l := match l with
    | 0 :: l => bindNext (Codec.nat.dec l) fun pa' l => some (.lpddr pa', l)
    | 1 :: l => bindNext (Codec.nat.dec l) fun pa' l => some (.wstore pa', l)
    | 2 :: l => bindNext (Codec.nat.dec l) fun pa' l => some (.host pa', l)
    | 3 :: l => bindNext (Codec.nat.dec l) fun chip' l => bindNext (Codec.nat.dec l) fun asid' l => bindNext (Codec.nat.dec l) fun va' l => some (.remote chip' asid' va', l)
    | _ => none

/-- `TlbEntry`, field by field. -/
def tlbEntryCodec : Codec TlbEntry where
  enc x := Codec.nat.enc x.ctrl ++ Codec.nat.enc x.base ++ Codec.nat.enc x.bits ++ Codec.nat.opt.enc x.asid ++
    permCodec.enc x.perm ++ placeCodec.enc x.place ++ Codec.nat.enc x.mig ++ Codec.nat.enc x.stamp
  dec l :=
    bindNext (Codec.nat.dec l) fun ctrl' l =>
    bindNext (Codec.nat.dec l) fun base' l =>
    bindNext (Codec.nat.dec l) fun bits' l =>
    bindNext (Codec.nat.opt.dec l) fun asid' l =>
    bindNext (permCodec.dec l) fun perm' l =>
    bindNext (placeCodec.dec l) fun place' l =>
    bindNext (Codec.nat.dec l) fun mig' l =>
    bindNext (Codec.nat.dec l) fun stamp' l =>
    some ({ ctrl := ctrl', base := base', bits := bits', asid := asid', perm := perm', place := place', mig := mig',
            stamp := stamp' }, l)

/-- `GReg`, field by field. -/
def gRegCodec : Codec GReg where
  enc x := (Codec.bv 32).enc x.val ++ Codec.bool.enc x.p ++ (Codec.bv 3).enc x.c ++ Codec.nat.enc x.w ++
    Codec.nat.enc x.visible ++ Codec.nat.list.enc x.know ++ Codec.nat.list.enc x.after ++
    (Codec.nat.pair Codec.nat).list.enc x.fenced ++ (Codec.bv 64).enc x.pc
  dec l :=
    bindNext ((Codec.bv 32).dec l) fun val' l =>
    bindNext (Codec.bool.dec l) fun p' l =>
    bindNext ((Codec.bv 3).dec l) fun c' l =>
    bindNext (Codec.nat.dec l) fun w' l =>
    bindNext (Codec.nat.dec l) fun visible' l =>
    bindNext (Codec.nat.list.dec l) fun know' l =>
    bindNext (Codec.nat.list.dec l) fun after' l =>
    bindNext ((Codec.nat.pair Codec.nat).list.dec l) fun fenced' l =>
    bindNext ((Codec.bv 64).dec l) fun pc' l =>
    some ({ val := val', p := p', c := c', w := w', visible := visible', know := know', after := after',
            fenced := fenced', pc := pc' }, l)

/-- `LoadForm`, by its constructor's number. -/
def loadFormCodec : Codec LoadForm where
  enc x := match x with
    | .scalar bytes' signed' d' => 0 :: Codec.nat.enc bytes' ++ Codec.bool.enc signed' ++ Codec.nat.enc d'
    | .pair d' => 1 :: Codec.nat.enc d'
    | .words first' count' => 2 :: Codec.nat.enc first' ++ Codec.nat.enc count'
    | .codes first' count' fmt' => 3 :: Codec.nat.enc first' ++ Codec.nat.enc count' ++ (Codec.bv 32).opt.enc fmt'
    | .old d' count' => 4 :: Codec.nat.enc d' ++ Codec.nat.enc count'
    | .gen d' => 5 :: Codec.nat.enc d'
  dec l := match l with
    | 0 :: l => bindNext (Codec.nat.dec l) fun bytes' l => bindNext (Codec.bool.dec l) fun signed' l => bindNext (Codec.nat.dec l) fun d' l => some (.scalar bytes' signed' d', l)
    | 1 :: l => bindNext (Codec.nat.dec l) fun d' l => some (.pair d', l)
    | 2 :: l => bindNext (Codec.nat.dec l) fun first' l => bindNext (Codec.nat.dec l) fun count' l => some (.words first' count', l)
    | 3 :: l => bindNext (Codec.nat.dec l) fun first' l => bindNext (Codec.nat.dec l) fun count' l => bindNext ((Codec.bv 32).opt.dec l) fun fmt' l => some (.codes first' count' fmt', l)
    | 4 :: l => bindNext (Codec.nat.dec l) fun d' l => bindNext (Codec.nat.dec l) fun count' l => some (.old d' count', l)
    | 5 :: l => bindNext (Codec.nat.dec l) fun d' l => some (.gen d', l)
    | _ => none

/-- `AtomOp`, by its constructor's number. -/
def atomOpCodec : Codec AtomOp where
  enc x := match x with
    | .add => 0 :: []
    | .and => 1 :: []
    | .or => 2 :: []
    | .xor => 3 :: []
    | .mins => 4 :: []
    | .maxs => 5 :: []
    | .minn => 6 :: []
    | .maxn => 7 :: []
    | .xchg => 8 :: []
  dec l := match l with
    | 0 :: l => some (.add, l)
    | 1 :: l => some (.and, l)
    | 2 :: l => some (.or, l)
    | 3 :: l => some (.xor, l)
    | 4 :: l => some (.mins, l)
    | 5 :: l => some (.maxs, l)
    | 6 :: l => some (.minn, l)
    | 7 :: l => some (.maxn, l)
    | 8 :: l => some (.xchg, l)
    | _ => none

/-- `RmwOp`, by its constructor's number. -/
def rmwOpCodec : Codec RmwOp where
  enc x := match x with
    | .int op' => 0 :: atomOpCodec.enc op'
    | .fadd => 1 :: []
    | .fmin => 2 :: []
    | .fmax => 3 :: []
    | .ord => 4 :: []
    | .cas expected' new' bytes' => 5 :: Codec.nat.enc expected' ++ Codec.nat.enc new' ++ Codec.nat.enc bytes'
  dec l := match l with
    | 0 :: l => bindNext (atomOpCodec.dec l) fun op' l => some (.int op', l)
    | 1 :: l => some (.fadd, l)
    | 2 :: l => some (.fmin, l)
    | 3 :: l => some (.fmax, l)
    | 4 :: l => some (.ord, l)
    | 5 :: l => bindNext (Codec.nat.dec l) fun expected' l => bindNext (Codec.nat.dec l) fun new' l => bindNext (Codec.nat.dec l) fun bytes' l => some (.cas expected' new' bytes', l)
    | _ => none

/-- `AccKind`, by its constructor's number. -/
def accKindCodec : Codec AccKind where
  enc x := match x with
    | .load form' => 0 :: loadFormCodec.enc form'
    | .store data' => 1 :: (Codec.bv 8).list.enc data'
    | .rmw op' v' form' => 2 :: rmwOpCodec.enc op' ++ (Codec.bv 32).enc v' ++ loadFormCodec.opt.enc form'
    | .prefetch l2Only' => 3 :: Codec.bool.enc l2Only'
    | .writeBack keep' => 4 :: Codec.bool.enc keep'
  dec l := match l with
    | 0 :: l => bindNext (loadFormCodec.dec l) fun form' l => some (.load form', l)
    | 1 :: l => bindNext ((Codec.bv 8).list.dec l) fun data' l => some (.store data', l)
    | 2 :: l => bindNext (rmwOpCodec.dec l) fun op' l => bindNext ((Codec.bv 32).dec l) fun v' l => bindNext (loadFormCodec.opt.dec l) fun form' l => some (.rmw op' v' form', l)
    | 3 :: l => bindNext (Codec.bool.dec l) fun l2Only' l => some (.prefetch l2Only', l)
    | 4 :: l => bindNext (Codec.bool.dec l) fun keep' l => some (.writeBack keep', l)
    | _ => none

/-- `Scope`, by its constructor's number. -/
def scopeCodec : Codec Scope where
  enc x := match x with
    | .grp => 0 :: []
    | .dev => 1 :: []
    | .sys => 2 :: []
  dec l := match l with
    | 0 :: l => some (.grp, l)
    | 1 :: l => some (.dev, l)
    | 2 :: l => some (.sys, l)
    | _ => none

/-- `Order`, by its constructor's number. -/
def orderCodec : Codec Order where
  enc x := match x with
    | .relaxed => 0 :: []
    | .acquire => 1 :: []
    | .release => 2 :: []
    | .acqRel => 3 :: []
  dec l := match l with
    | 0 :: l => some (.relaxed, l)
    | 1 :: l => some (.acquire, l)
    | 2 :: l => some (.release, l)
    | 3 :: l => some (.acqRel, l)
    | _ => none

/-- `Hint`, by its constructor's number. -/
def hintCodec : Codec Hint where
  enc x := match x with
    | .normal => 0 :: []
    | .stream => 1 :: []
    | .keep => 2 :: []
  dec l := match l with
    | 0 :: l => some (.normal, l)
    | 1 :: l => some (.stream, l)
    | 2 :: l => some (.keep, l)
    | _ => none

/-- `AccState`, by its constructor's number. -/
def accStateCodec : Codec AccState where
  enc x := match x with
    | .open_ => 0 :: []
    | .performed level' => 1 :: Codec.nat.enc level'
    | .parked fid' => 2 :: Codec.nat.enc fid'
    | .faulted cls' code' => 3 :: Codec.nat.enc cls' ++ Codec.nat.enc code'
  dec l := match l with
    | 0 :: l => some (.open_, l)
    | 1 :: l => bindNext (Codec.nat.dec l) fun level' l => some (.performed level', l)
    | 2 :: l => bindNext (Codec.nat.dec l) fun fid' l => some (.parked fid', l)
    | 3 :: l => bindNext (Codec.nat.dec l) fun cls' l => bindNext (Codec.nat.dec l) fun code' l => some (.faulted cls' code', l)
    | _ => none

/-- `Acc`, field by field. -/
def accCodec : Codec Acc where
  enc x := Codec.nat.enc x.id ++ Codec.nat.enc x.bundle ++ groupIdCodec.enc x.gid ++ Codec.nat.enc x.tid ++
    Codec.nat.enc x.n ++ Codec.nat.enc x.seq ++ Codec.nat.list.enc x.know ++ Codec.nat.list.enc x.after ++
    (Codec.nat.pair Codec.nat).list.enc x.fenced ++ (Codec.nat.pair (Codec.bv 8).list).list.enc x.units ++
    tlbEntryCodec.list.enc x.pins ++ Codec.bool.enc x.vec ++ (Codec.bv 64).enc x.pc ++
    (Codec.nat.pair gRegCodec).opt.enc x.coin ++ Codec.nat.enc x.core ++ Codec.nat.enc x.ctx ++
    Codec.nat.enc x.asid ++ Codec.bool.enc x.seg7 ++ (Codec.bv 64).enc x.va ++ Codec.nat.enc x.size ++
    accKindCodec.enc x.kind ++ scopeCodec.enc x.scope ++ orderCodec.enc x.order ++ hintCodec.enc x.hint ++
    accStateCodec.enc x.st ++ (Codec.bv 8).list.enc x.got ++ (Codec.bv 64).enc x.cont ++ Codec.nat.enc x.at_ ++
    Codec.nat.enc x.since
  dec l :=
    bindNext (Codec.nat.dec l) fun id' l =>
    bindNext (Codec.nat.dec l) fun bundle' l =>
    bindNext (groupIdCodec.dec l) fun gid' l =>
    bindNext (Codec.nat.dec l) fun tid' l =>
    bindNext (Codec.nat.dec l) fun n' l =>
    bindNext (Codec.nat.dec l) fun seq' l =>
    bindNext (Codec.nat.list.dec l) fun know' l =>
    bindNext (Codec.nat.list.dec l) fun after' l =>
    bindNext ((Codec.nat.pair Codec.nat).list.dec l) fun fenced' l =>
    bindNext ((Codec.nat.pair (Codec.bv 8).list).list.dec l) fun units' l =>
    bindNext (tlbEntryCodec.list.dec l) fun pins' l =>
    bindNext (Codec.bool.dec l) fun vec' l =>
    bindNext ((Codec.bv 64).dec l) fun pc' l =>
    bindNext ((Codec.nat.pair gRegCodec).opt.dec l) fun coin' l =>
    bindNext (Codec.nat.dec l) fun core' l =>
    bindNext (Codec.nat.dec l) fun ctx' l =>
    bindNext (Codec.nat.dec l) fun asid' l =>
    bindNext (Codec.bool.dec l) fun seg7' l =>
    bindNext ((Codec.bv 64).dec l) fun va' l =>
    bindNext (Codec.nat.dec l) fun size' l =>
    bindNext (accKindCodec.dec l) fun kind' l =>
    bindNext (scopeCodec.dec l) fun scope' l =>
    bindNext (orderCodec.dec l) fun order' l =>
    bindNext (hintCodec.dec l) fun hint' l =>
    bindNext (accStateCodec.dec l) fun st' l =>
    bindNext ((Codec.bv 8).list.dec l) fun got' l =>
    bindNext ((Codec.bv 64).dec l) fun cont' l =>
    bindNext (Codec.nat.dec l) fun at_' l =>
    bindNext (Codec.nat.dec l) fun since' l =>
    some ({ id := id', bundle := bundle', gid := gid', tid := tid', n := n', seq := seq', know := know', after := after',
            fenced := fenced', units := units', pins := pins', vec := vec', pc := pc', coin := coin', core := core',
            ctx := ctx', asid := asid', seg7 := seg7', va := va', size := size', kind := kind', scope := scope',
            order := order', hint := hint', st := st', got := got', cont := cont', at_ := at_', since := since' }, l)

/-- `CodeTable`, field by field. -/
def codeTableCodec : Codec CodeTable where
  enc x := Codec.nat.enc x.ga ++ Codec.nat.enc x.gl ++ Codec.nat.list.enc x.lens
  dec l :=
    bindNext (Codec.nat.dec l) fun ga' l =>
    bindNext (Codec.nat.dec l) fun gl' l =>
    bindNext (Codec.nat.list.dec l) fun lens' l =>
    some ({ ga := ga', gl := gl', lens := lens' }, l)

/-- `Contribution`, field by field. -/
def contributionCodec : Codec Contribution where
  enc x := Codec.nat.enc x.comm ++ Codec.nat.enc x.seq ++ Codec.nat.enc x.rank ++ (Codec.bv 2).enc x.op ++
    (Codec.bv 2).enc x.dtype ++ Codec.nat.enc x.len ++ Codec.nat.enc x.root ++ (Codec.bv 8).list.enc x.data
  dec l :=
    bindNext (Codec.nat.dec l) fun comm' l =>
    bindNext (Codec.nat.dec l) fun seq' l =>
    bindNext (Codec.nat.dec l) fun rank' l =>
    bindNext ((Codec.bv 2).dec l) fun op' l =>
    bindNext ((Codec.bv 2).dec l) fun dtype' l =>
    bindNext (Codec.nat.dec l) fun len' l =>
    bindNext (Codec.nat.dec l) fun root' l =>
    bindNext ((Codec.bv 8).list.dec l) fun data' l =>
    some ({ comm := comm', seq := seq', rank := rank', op := op', dtype := dtype', len := len', root := root',
            data := data' }, l)

/-- `Migration`, field by field. -/
def migrationCodec : Codec Migration where
  enc x := Codec.nat.enc x.ctx ++ Codec.nat.enc x.va ++ Codec.nat.enc x.bits ++ placeCodec.enc x.oldPlace ++
    Codec.nat.enc x.newFrame ++ Codec.bool.enc x.toLpddr ++ (Codec.nat.pair Codec.nat).list.enc x.slots ++
    Codec.bool.enc x.switching
  dec l :=
    bindNext (Codec.nat.dec l) fun ctx' l =>
    bindNext (Codec.nat.dec l) fun va' l =>
    bindNext (Codec.nat.dec l) fun bits' l =>
    bindNext (placeCodec.dec l) fun oldPlace' l =>
    bindNext (Codec.nat.dec l) fun newFrame' l =>
    bindNext (Codec.bool.dec l) fun toLpddr' l =>
    bindNext ((Codec.nat.pair Codec.nat).list.dec l) fun slots' l =>
    bindNext (Codec.bool.dec l) fun switching' l =>
    some ({ ctx := ctx', va := va', bits := bits', oldPlace := oldPlace', newFrame := newFrame', toLpddr := toLpddr',
            slots := slots', switching := switching' }, l)

/-- `Shadow`, field by field. -/
def shadowCodec : Codec Shadow where
  enc x := Codec.nat.enc x.id ++ Codec.nat.enc x.ctx ++ Codec.nat.enc x.dst ++ Codec.nat.enc x.shd ++
    Codec.nat.enc x.pages ++ Codec.bool.enc x.publishing ++ Codec.nat.list.enc x.waitFor
  dec l :=
    bindNext (Codec.nat.dec l) fun id' l =>
    bindNext (Codec.nat.dec l) fun ctx' l =>
    bindNext (Codec.nat.dec l) fun dst' l =>
    bindNext (Codec.nat.dec l) fun shd' l =>
    bindNext (Codec.nat.dec l) fun pages' l =>
    bindNext (Codec.bool.dec l) fun publishing' l =>
    bindNext (Codec.nat.list.dec l) fun waitFor' l =>
    some ({ id := id', ctx := ctx', dst := dst', shd := shd', pages := pages', publishing := publishing',
            waitFor := waitFor' }, l)

end Sys2Proof.Machine
end

