-- ==== Sys2Proof/Machine/Copies.lean ====
section
/-! DEFINITION. The copy engine and the collective engine at work: 14_engines R292 to R300, R314, R315; 17_coherence R339. -/

namespace Sys2Proof.Machine

/-! ## Canonical codes (R298, R299) -/

/-- A code of a table: its length, its value, its symbol. -/
structure Code where
  len : Nat
  val : Nat
  sym : Nat
  deriving DecidableEq, Repr

/-- The codes of one length, from the value `first` on, in the order of their symbols. -/
def codesOfLen (lens : List Nat) (len first : Nat) : List Code :=
  let syms := (List.range lens.length).filter fun s => lens.getD s 0 == len
  (List.range syms.length).map fun i => { len := len, val := first + i, sym := syms.getD i 0 }
/-- The canonical codes of `n` lengths from `len` on; `first` is the next code of that length (R299). -/
def canonFrom (lens : List Nat) : Nat → Nat → Nat → List Code
  | 0, _, _ => []
  | n + 1, len, first =>
    let here := codesOfLen lens len first
    here ++ canonFrom lens n (len + 1) (2 * (first + here.length))
/-- The canonical codes of a table. -/
def canonical (lens : List Nat) : List Code := canonFrom lens 12 1 0
/-- A table of lengths is good: 0 to 12, a symbol present, Σ 2^(−length) at most 1 (R299). -/
def tableOk (lens : List Nat) : Bool :=
  lens.all (· ≤ 12) && lens.any (· != 0) && decide ((lens.map fun n => if n = 0 then 0 else 2 ^ (12 - n)).sum ≤ 2 ^ 12)

/-- How the decode of a stream stands: more bits wanted, all symbols there, an unassigned code reached. -/
inductive Decoded where
  | more | done | bad
  deriving DecidableEq, Repr

/-- One code from bit `pos` of a stream of `n` bits: `len` bits are read, worth `v`; `fuel` more lengths. -/
def decodeOne (cs : List Code) (stream n pos : Nat) : Nat → Nat → Nat → Option (Code) × Decoded
  | 0, _, _ => (none, .bad)
  | fuel + 1, len, v =>
    match cs.find? fun c => c.len == len && c.val == v with
    | some c => (some c, .done)
    | none =>
      if !(cs.any fun c => decide (len < c.len) && c.val / 2 ^ (c.len - len) == v) then (none, .bad)
      else if n ≤ pos + len then (none, .more)
      else decodeOne cs stream n pos fuel (len + 1) (2 * v + bits stream (pos + len) 1)

/-- Decodes up to `count` symbols from bit `pos` on (R298). -/
def decodeStream (cs : List Code) (stream n : Nat) : Nat → Nat → List Byte × Decoded
  | 0, _ => ([], .done)
  | count + 1, pos =>
    match decodeOne cs stream n pos 13 0 0 with
    | (some c, _) =>
      let r := decodeStream cs stream n count (pos + c.len)
      (BitVec.ofNat 8 c.sym :: r.1, r.2)
    | (none, st) => ([], st)

/-- What a decompressing copy has decoded from the source words read so far (R298). -/
def State.decoded (s : State) (c : Cmd) : List Byte × Decoded :=
  decodeStream (canonical ((s.coreAt c.core).table c.tbl).lens) (leNat c.readBytes) (8 * c.readBytes.length) c.len 0

/-! ## Transposition (R295, R296) -/

/-- The bytes that row data puts into plane `p` of a block: bit j is bit w − 1 − p of element j. -/
def planeRow (row : Nat) (w k p : Nat) : List Byte :=
  leBytes (k / 8) ((List.range k).foldl (fun acc j => acc + (if row.testBit (w * j + (w - 1 - p)) then 2 ^ j else 0)) 0)
/-- Where row `r`'s part of plane `p` lies in its block. -/
def planeAt (k p r : Nat) : Nat := 2 * k * p + k / 8 * r

/-! ## Overlap of source and destination (R292) -/

/-- The bytes of a run's source: of a stream, the words that its decode has read (R298). -/
def Cmd.srcLen (c : Cmd) : Nat := if c.decomp then c.readBytes.length else c.len
/-- The sources of this run and of the earlier ones of a command; of a gather, those that its indices have named (R292, R297). -/
def State.sourcesSoFar (s : State) (c : Cmd) : List TAddr :=
  if c.kind = 1 then (c.idx.toList ++ c.idxs).map fun (i : Nat) => s.cmdAddr c 32 ((i : Int) * c.ss 1)
  else (List.range (c.runOf c.iter + 1)).map fun r => s.runSrc c (c.vector r)
/-- Which of the destination's bytes are source bytes of this run or an earlier one of the command: their contents are unspecified. -/
def State.overlapped (s : State) (c : Cmd) (a : TAddr) (n : Nat) : List Bool :=
  let near := (s.sourcesSoFar c).filter fun x => x.meets c.srcLen a n
  (List.range n).map fun i => near.any fun x => x.meets c.srcLen (a.add i) 1

/-- Bytes to be written, free where the command's source overlaps them (R292; log 5). -/
def State.settleOverlap (s : State) (c : Cmd) (a : TAddr) (bs : List Byte) : List Byte × State :=
  let o := s.overlapped c a bs.length
  if o.any id then
    let (free, s) := s.drawBytes bs.length
    ((List.range bs.length).map fun i => if o.getD i false then free.getD i 0 else bs.getD i 0, s)
  else (bs, s)

/-! ## Collectives (R314, R315) -/

/-- The communicator of a COLLECT. -/
def Cmd.comm (c : Cmd) : Nat := cmdField c.words 192 6
/-- OP, DTYPE, LEN, ROOT. -/
def Cmd.collectParts (c : Cmd) : BitVec 2 × BitVec 2 × Nat × Nat :=
  (BitVec.ofNat 2 (cmdField c.words 198 2), BitVec.ofNat 2 (cmdField c.words 200 2), cmdField c.words 160 32, cmdField c.words 202 8)
/-- The communicator as the host configured it (R413). -/
def State.commOf? (s : State) (c : Cmd) : Option Comm := s.comms.find? (·.id == c.comm)
/-- Bytes of this member's SRC that the collective needs: all of them for a reduction, none of a broadcast's other members. -/
def State.collectSrcLen (s : State) (c : Cmd) : Nat :=
  let (op, _, len, root) := c.collectParts
  if op = 3 then len * s.commSize c.comm
  else if op = 1 then (match s.commOf? c with | some k => if k.rank = root then len else 0 | none => 0)
  else len

/-- One combination of two 4-byte elements (R315). -/
def combine (dtype : BitVec 2) (a b : Word) : Word :=
  match dtype with
  | 0 => (addF32 a b).1
  | 1 => a + b
  | 2 => minMaxF32 true a b
  | _ =>
    let half (x y : Nat) : Nat := (formFloat ((bf16.value x).add (bf16.value y) .rne).1 bf16 .zero).1
    BitVec.ofNat 32 (half (a.toNat % 65536) (b.toNat % 65536) + 65536 * half (a.toNat / 65536) (b.toNat / 65536))

/-- The reduction of contributions in rank order (R315). -/
def reduceWords (dtype : BitVec 2) : List (List Word) → List Word
  | [] => []
  | x :: xs => xs.foldl (fun a b => List.zipWith (combine dtype) a b) x

/-- The parts of the m-th collective of a communicator that are here, by rank. -/
def State.partsOf (s : State) (c : Cmd) : List Contribution :=
  let n := s.commSize c.comm
  (List.range n).filterMap fun r => s.collect.find? fun x => x.comm == c.comm && x.seq == c.prog && x.rank == r
/-- The members agree (R315). -/
def agree (xs : List Contribution) : Bool :=
  match xs with
  | [] => true
  | x :: _ => xs.all fun y => y.op == x.op && y.dtype == x.dtype && y.len == x.len && y.root == x.root

/-- What is written on this member (R315). -/
def State.collectResult (s : State) (c : Cmd) : List Byte :=
  let xs := s.partsOf c
  let rank := match s.commOf? c with | some k => k.rank | none => 0
  let (op, dtype, len, root) := c.collectParts
  let reduce (ds : List (List Byte)) : List Byte := (reduceWords dtype (ds.map wordsOf)).flatMap wordBytes
  match op with
  | 0 => if rank = root then reduce (xs.map (·.data)) else []
  | 1 => match xs.find? (·.rank == root) with | some x => x.data | none => []
  | 2 => xs.flatMap (·.data)
  | _ => reduce (xs.map fun x => slice x.data (len * rank) len)

/-- This member's part goes to every member, here and over the pod (R315). -/
def State.contribute (s : State) (c : Cmd) (data : List Byte) : State :=
  match s.commOf? c with
  | none => s
  | some k =>
    let (op, dtype, len, root) := c.collectParts
    let x : Contribution := { comm := c.comm, seq := c.prog, rank := k.rank, op := op, dtype := dtype, len := len, root := root, data := data }
    let s := { s with collect := s.collect ++ [x] }.modCmd c.id fun c => { c with taken := true, readBytes := [] }
    (k.members.filter (· != s.mgmt.chipid.toNat % 256)).foldl (fun s m => s.toPeer m 0 (.collective x)) s

/-- The collective engine takes a COLLECT command: the m-th of its communicator, which it stays when it starts again after a fault
(R293, R315). A destination outside an open pair is refused; a
communicator with no member set is refused the same way. -/
def State.takeCollect (s : State) (cmd : Nat) (op : Nat) : State :=
  match s.startable? cmd 5 with
  | none => s
  | some c =>
    if cmdField c.words 198 2 ≠ op then s
    else
      let s := s.startCmd c
      let len := c.collectLen (s.commSize c.comm)
      let inside := match s.cmdAddr c 96 0 with
        | .glob dst => (match s.pairOfDst? c.ctx dst.toNat with | some p => decide (dst.toNat + len ≤ p.dst + p.pages * 4096) | none => false)
        | _ => false
      if !inside || s.commSize c.comm == 0 then s.engineFault c 10 8 0
      else
        let next := match s.collSeq.find? (·.1 == c.comm) with | some p => p.2 | none => 0
        let m := c.collNo.getD next
        let s := if c.collNo.isSome then s else { s with collSeq := (c.comm, next + 1) :: s.collSeq.filter (·.1 != c.comm) }
        let s := s.modCmd cmd fun c => { c with prog := m, collNo := some m }
        match s.cmd? cmd with
        | some c => if s.collectSrcLen c = 0 then s.contribute c [] else s
        | none => s

/-- COLLECT_REDUCE (R315): Start a collective reduction to the root. -/
def execCollectReduce (cmd : Nat) (s : State) : Out := .next (s.takeCollect cmd 0)
/-- COLLECT_BROADCAST (R315): Start a broadcast from the root. -/
def execCollectBroadcast (cmd : Nat) (s : State) : Out := .next (s.takeCollect cmd 1)
/-- COLLECT_ALL_GATHER (R315): Start an all-gather. -/
def execCollectAllGather (cmd : Nat) (s : State) : Out := .next (s.takeCollect cmd 2)
/-- COLLECT_REDUCE_SCATTER (R315): Start a reduce-scatter. -/
def execCollectReduceScatter (cmd : Nat) (s : State) : Out := .next (s.takeCollect cmd 3)

/-! ## Engine reads (R292, R297 to R299, R315, R339) -/

/-- Takes the parts that lie next behind what is there from those served ahead, `fuel` of them at most. -/
def takeAhead : Nat → List Byte → List (Nat × List Byte) → List Byte × List (Nat × List Byte)
  | 0, got, ahead => (got, ahead)
  | fuel + 1, got, ahead =>
    match ahead.find? (·.1 == got.length) with
    | some x => takeAhead fuel (got ++ x.2) (ahead.filter (·.1 != x.1))
    | none => (got, ahead)
/-- A command has read a part of its run, in its place or ahead (R294). -/
def Cmd.got (c : Cmd) (off : Nat) (bs : List Byte) : Cmd :=
  if off = c.readBytes.length then
    let r := takeAhead c.ahead.length (c.readBytes ++ bs) c.ahead
    { c with readBytes := r.1, ahead := r.2 }
  else { c with ahead := (off, bs) :: c.ahead }
/-- A command has read a part of its current run. -/
def State.gotBytes (s : State) (c : Cmd) (off : Nat) (bs : List Byte) : State := s.modCmd c.id fun c => c.got off bs

/-- The next part of a command's source to be read, of `len` bytes from an address. -/
def State.nextRead (s : State) (c : Cmd) (a : TAddr) (len : Nat) : Option (Nat × Nat) :=
  s.servePart c a len len c.readBytes.length (c.ahead.map (·.1)) .load
/-- Reads the next part of `len` bytes from an address; `done` goes on with its offset and its bytes. -/
def State.readPart (s : State) (c : Cmd) (a : TAddr) (len : Nat) (done : Nat → List Byte → State → Out) : Out :=
  match s.nextRead c a len with
  | some (off, n) => s.engineGet c (a.add off) n (done off)
  | none => .next s

/-- Its column has begun to stop, and a copy or a TABLE stands at a run boundary: it starts no further run, unless a publication in progress
needs it (R257, R374). -/
def State.haltsAt (s : State) (c : Cmd) : Bool :=
  (c.kind ≤ 1 || c.kind == 3) && !s.publishNeeds c && (match s.stopOf c.gid.column with | some st => st.begun | none => false) && c.readBytes.isEmpty
    && c.ahead.isEmpty && c.wrote == 0 && c.past.isEmpty && !c.decomp && (!c.transpose || c.iter.getD 0 0 % 16 == 0)

/-- Where a gather reads the index of its current run (R297). -/
def State.indexAt (s : State) (c : Cmd) : TAddr := s.cmdAddr c 448 (4 * (c.runOf c.iter : Int))
/-- Where a decompressing copy reads its next word (R298). -/
def State.streamAt (s : State) (c : Cmd) : TAddr := (s.runSrc c c.iter).add c.readBytes.length

/-- A command has a read to make now (R292, R294, R297 to R299, R315). -/
def State.readWork (s : State) (c : Cmd) : Bool :=
  c.st == .started && !c.finished && !s.haltsAt c &&
    (match c.kind with
      | 0 | 1 =>
        if c.kind = 1 ∧ c.idx.isNone then !s.refreshing c (s.indexAt c) .load
        else if c.decomp then !s.tableMissing c && c.wrote == 0 && decide ((s.decoded c).2 = .more) && !s.refreshing c (s.streamAt c) .load
        else (s.nextRead c (s.runSrc c c.iter) c.len).isSome
      | 3 => true
      | 5 => !c.taken
      | _ => false)

/-- What of `len` bytes at an address a command writes next, of the first `have_` that it has (R294). -/
def State.nextWrite (s : State) (c : Cmd) (a : TAddr) (len have_ : Nat) : Option (Nat × Nat) :=
  s.servePart c a len have_ c.wrote (c.past.map (·.1)) .store

/-- A command has a write to make now, or the fault of a bad stream to raise (R292, R296, R298, R315). -/
def State.writeWork (s : State) (c : Cmd) : Bool :=
  c.st == .started && !c.finished &&
    (match c.kind with
      | 0 | 1 =>
        if c.decomp then
          !s.tableMissing c &&
            (match s.decoded c with
              | (_, .more) => false
              | (bs, st) => decide (c.wrote < bs.length) || decide (st = .bad))
        else if c.transpose then decide (c.len ≤ c.readBytes.length ∧ c.wrote < c.len)
        else (s.nextWrite c (s.runDst c c.iter) c.len c.readBytes.length).isSome
      | 5 => c.taken && decide (s.commSize c.comm ≤ (s.partsOf c).length)
      | _ => false)

/-- The copy queue of a core whose turn it is: of those with an access to make, the next after the one that had the last turn (R288). -/
def State.copyQueue (s : State) (core : Nat) : Option Nat :=
  ((List.range 4).map fun i => ((s.coreAt core).copyTurn + 1 + i) % 4).find? fun q =>
    s.cmds.any fun c => c.core == core && c.queue == q && (s.readWork c || s.writeWork c)
/-- A command's access may be served now: it is of the collective engine, or its copy queue has the turn (R288). -/
def State.hasTurn (s : State) (c : Cmd) : Bool := decide (3 < c.queue) || s.copyQueue c.core == some c.queue
/-- A command's copy queue has had its turn. -/
def State.tookTurn (s : State) (c : Cmd) : State := if c.queue ≤ 3 then s.modCore c.core fun k => { k with copyTurn := c.queue } else s

/-- A TABLE command's lengths are all read: a good table replaces the slot's (R299, R300). -/
def State.loadTable (s : State) (c : Cmd) (bs : List Byte) : State :=
  let lens := bs.map (·.toNat)
  if tableOk lens then
    (s.modTable c.core (cmdField c.words 96 2) fun t => { t with gl := c.tgen, lens := lens }).modCmd c.id fun c =>
      { c with finished := true, readBytes := [] }
  else s.engineFault c 10 3 0

/-- ENGINE_READ (R339): A running command's next read: of a gather's index, of a source line, of the decompression stage's next word, of a
table's lengths, of a member's contribution; the copy queues take turns (R288). -/
def execEngineRead (cmd : Nat) (s : State) : Out :=
  match s.cmd? cmd with
  | none => .next s
  | some c =>
    if !s.readWork c || !s.hasTurn c then .next s
    else
      let s := s.tookTurn c
      match c.kind with
      | 0 | 1 =>
        if c.kind = 1 ∧ c.idx.isNone then
          let a := s.indexAt c
          if a.num % 4 ≠ 0 then .next (s.engineFault c 4 3 a.num)
          else s.engineGet c a 4 fun bs s => .next (s.modCmd cmd fun c => { c with idx := some (leNat bs) })
        else if c.decomp then s.engineGet c (s.streamAt c) 4 fun bs s => .next (s.gotBytes c c.readBytes.length bs)
        else s.readPart c (s.runSrc c c.iter) c.len fun off bs s => .next (s.gotBytes c off bs)
      | 3 =>
        s.readPart c (s.cmdAddr c 32 0) 256 fun off bs s =>
          let all := c.readBytes ++ bs
          .next (if 256 ≤ all.length then s.loadTable c all else s.gotBytes c off bs)
      | 5 =>
        s.readPart c (s.cmdAddr c 32 0) (s.collectSrcLen c) fun off bs s =>
          let all := c.readBytes ++ bs
          .next (if s.collectSrcLen c ≤ all.length then s.contribute c all else s.gotBytes c off bs)
      | _ => .next s

/-! ## Engine writes (R292, R296, R298, R315, R339) -/

/-- Passes the parts that lie next behind what is written, of those written ahead, `fuel` of them at most. -/
def passAhead : Nat → Nat → List (Nat × Nat) → Nat × List (Nat × Nat)
  | 0, n, past => (n, past)
  | fuel + 1, n, past =>
    match past.find? (·.1 == n) with
    | some x => passAhead fuel (n + x.2) (past.filter (·.1 != x.1))
    | none => (n, past)
/-- A command has written `n` bytes of its run at an offset, in their place or ahead (R294). -/
def Cmd.wroteAt (c : Cmd) (off n : Nat) : Cmd :=
  if off = c.wrote then
    let r := passAhead c.past.length (c.wrote + n) c.past
    { c with wrote := r.1, past := r.2 }
  else { c with past := (off, n) :: c.past }
/-- `n` bytes of a command's current run are written at an offset. -/
def State.wroteBytes (s : State) (c : Cmd) (off n : Nat) : State := s.modCmd c.id fun c => c.wroteAt off n

/-- Writes the next part of the `len` bytes at an address, of which `bs` are the first. -/
def State.writePart (s : State) (c : Cmd) (a : TAddr) (len : Nat) (bs : List Byte) : Out :=
  match s.nextWrite c a len bs.length with
  | none => .next s
  | some (off, n) =>
    let (data, s) := s.settleOverlap c (a.add off) (slice bs off n)
    s.enginePut c (a.add off) data fun s => .next (s.wroteBytes c off n)

/-- Writes the next plane's part of a transposed row (R296). -/
def State.writePlane (s : State) (c : Cmd) : Out :=
  let w := (opFmt (cmdField c.words 180 4) c.fmtA).w
  let k := 8 * c.len / w
  let p := c.wrote / (k / 8)
  let a := (s.runDst c c.iter).add (planeAt k p (c.iter.getD 0 0 % 16))
  let (data, s) := s.settleOverlap c a (planeRow (leNat c.readBytes) w k p)
  s.enginePut c a data fun s => .next (s.wroteBytes c c.wrote (k / 8))

/-- The parts of the collective that a command belongs to are no longer needed here. -/
def State.dropParts (s : State) (c : Cmd) : State :=
  { s with collect := s.collect.filter fun x => !(x.comm == c.comm && x.seq == c.prog) }

/-- ENGINE_WRITE (R339): A running command's next write: of a run whose source is read, of a transposed row's plane, of decoded symbols, of
a collective's result once every member's part is here; the copy queues take turns (R288). -/
def execEngineWrite (cmd : Nat) (s : State) : Out :=
  match s.cmd? cmd with
  | none => .next s
  | some c =>
    if !s.writeWork c || !s.hasTurn c then .next s
    else
      let s := s.tookTurn c
      match c.kind with
      | 0 | 1 =>
        if c.decomp then
          let (bs, _) := s.decoded c
          if c.wrote < bs.length then s.writePart c (s.runDst c c.iter) bs.length bs else .next (s.engineFault c 10 2 0)
        else if c.transpose then s.writePlane c
        else s.writePart c (s.runDst c c.iter) c.len c.readBytes
      | 5 =>
        let xs := s.partsOf c
        if !agree xs then .next ((s.dropParts c).engineFault c 10 6 0)
        else
          let bs := s.collectResult c
          if c.wrote < bs.length then
            let p := nextPart (s.cmdAddr c 96 0) bs.length c.wrote
            s.enginePut c p.1 ((bs.drop c.wrote).take p.2) fun s => .next (s.wroteBytes c c.wrote p.2)
          else .next ((s.dropParts c).modCmd cmd fun c => { c with finished := true })
      | _ => .next s

/-- COPY_RUN_PERFORMED (R292, R296): A run is performed: its bytes, or those of the block that it ends, are added to the sync word, and the
next run begins. The last run leaves the command to complete, which makes its update. -/
def execCopyRunPerformed (cmd : Nat) (s : State) : Out :=
  match s.cmd? cmd with
  | none => .next s
  | some c =>
    if c.st != .started || c.finished || decide (1 < c.kind) || decide (c.wrote < c.len) then .next s
    else
      let q := c.runOf c.iter + 1
      if c.runs ≤ q then .next (s.modCmd cmd fun c => { c with finished := true })
      else
        let s := s.modCmd cmd fun c => { c.newRun with iter := c.vector q, idxs := c.idx.toList ++ c.idxs }
        if c.syncIdx = 0xFFFF ∨ (c.transpose ∧ q % c.bound 1 % 16 ≠ 0) then .next s
        else
          let r := s.syncUpdate c.core ((s.windowOf c).1 + 16 * c.syncIdx) 0 (BitVec.ofNat 32 c.dstLen)
          match r.1.cmd? cmd, r.2 with
          | some c, true => .next (r.1.engineFault c 5 0 0)
          | _, _ => .next r.1

end Sys2Proof.Machine
end

