-- ==== Sys2Proof/Machine/Saves.lean ====
section
/-! DEFINITION. Stopping a column and writing its save record, trap notices, the host's answer to a trap: 10_memory R220; 20_interrupts
R368 to R383. -/

namespace Sys2Proof.Machine

/-! ## The save record of a column (R378 to R382) -/

/-- The resident groups of a column, by stage. -/
def State.columnGroups (s : State) (c : ColId) : List Group :=
  (List.range 4).filterMap fun k => s.group? { launch := c.launch, col := c.col, stage := k }
/-- The commands of a column that its record holds, those first that may have claimed lends, so that four bits name them (R380 CMD, log
144): a COLLECT that the collective engine has taken runs on (R374 step 4). -/
def State.columnCmds (s : State) (c : ColId) : List Cmd :=
  let mine := s.cmds.filter fun x => x.gid.column == c && !(x.kind == 5 && x.st == .started && x.taken)
  let claims (x : Cmd) : Bool := x.kind == 2 && x.start != 0
  mine.filter claims ++ mine.filter (!claims ·)
/-- The access that a parked strand is parked with. -/
def State.parkedAcc? (s : State) (g : GroupId) (tid n : Nat) : Option Acc :=
  s.accs.find? fun a => a.gid == g && a.tid == tid && a.n == n && a.isParked
/-- Strands per thread (R380). -/
def Kernel.strands (k : Kernel) : Nat := ((List.range 16).filter k.smask.getLsbD).length

/-- A strand's entry (R380) on vector cycle `cyc`. -/
def State.strandPart (s : State) (g : Group) (cmds : List Cmd) (cyc tid : Nat) (st : Strand) : Part :=
  let parked := match st.state with | .parked f => some f | _ => none
  let acc := if parked.isSome then s.parkedAcc? g.id tid st.n else none
  let own := match st.own with
    | .strand => (0, 0)
    | .offered => (1, 0)
    | .claimed id => (2, cmds.findIdx fun (c : Cmd) => c.id == id)
  let paddr : Nat := match acc, parked with
    | some a, _ => a.va.toNat
    | none, some f => (match s.faults.find? fun x => x.ctx == g.ctx && x.fid == f with | some x => x.va.toNat | none => 0)
    | none, none => 0
  let pc : Addr := match acc with | some a => a.pc | none => st.pc
  .fields 256 (((List.range 32).map fun j => ((st.elem j).toNat, 32, true)) ++
    [(st.flags.word.toNat, 5, true), (0, 3, false), (match st.state with | .live => 0 | .finished => 1 | .parked _ => 2, 2, false),
     (own.1, 2, false), (own.2, 4, false), (st.rstack.length, 4, true), (min 7 (st.ready - cyc), 3, false), (0, 9, false),
     (st.cursor.toNat, 32, false), (pc.toNat, 64, true)] ++ stackFields st.rstack ++
    [(paddr, 64, false), (parked.getD 0, 32, false), (0, 288, false)])

/-- A thread's section (R380). -/
def State.threadPart (s : State) (g : Group) (cmds : List Cmd) (cyc : Nat) (t : Thread) : Part :=
  .join (gregPart t.gregs :: t.strands.map (s.strandPart g cmds cyc t.tid))

/-- The decision-queue entries that a record holds: from the oldest live one on, those freed before it with count 0. -/
def Group.dqSpan (g : Group) : Nat := min 64 (g.dq.foldl (fun m e => max m (g.dqNext - e.seq).toNat) 0)

/-- A teller section (R381). -/
def Group.tellerPart (g : Group) : Part :=
  let t := g.teller
  let n := g.dqSpan
  let entry (i : Nat) : List (Nat × Nat × Bool) :=
    match (if i < n then g.dq.find? fun e => e.seq == g.dqNext - BitVec.ofNat 32 (n - i) else none) with
    | some e => [(e.value.toNat, 32, false), (e.readers, 14, false), (0, 18, false)]
    | none => [(0, 64, false)]
  .fields 1024 (((List.range 64).map fun i => (if i = 0 then 0 else (t.s.getD i 0).toNat, 32, true)) ++ [(t.pc.toNat, 64, true)] ++
    stackFields t.rstack ++ [(t.rstack.length, 4, true), (t.isDefault.toNat, 1, false), (0, 11, false), (t.wake.toNat, 16, true),
      (0, 32, false), (g.dqNext.toNat, 32, false), (n, 7, false), (0, 25, false)] ++ (List.range 64).flatMap entry ++ [(0, 1344, false)])

/-- Bytes of a group section. -/
def Group.sectionLen (g : Group) : Nat := 1280 + 256 * g.kernel.nbar + pad256 (g.t * (320 + 256 * g.kernel.strands))

/-- A group section that begins at byte `off` (R379); `trap` is the column's. -/
def State.groupPart (s : State) (cmds : List Cmd) (trap : Option Trap) (off : Nat) (g : Group) : Part :=
  let k := g.kernel
  let tr : List (Nat × Nat × Bool) := match trap with
    | some t => if t.stage == g.id.stage then t.fields.map fun f => (f.1, f.2, false) else [(0, 32, false)]
    | none => [(0, 32, false)]
  let header := Part.fields 256 ([(k.kidx, 16, false), (g.id.stage, 2, false), (g.t, 10, false), (0, 4, false), (k.smask.toNat, 16, false),
    (k.ngpr, 7, false), (k.nbar, 5, false), (k.dqd, 7, false), (g.sfmode.toNat, 1, true), (g.stany.toNat, 1, false), (0, 59, false),
    (g.status.toNat, 32, true)] ++ tr ++ [(g.cycle, 64, false)] ++ g.nf.map (fun w => (w.toNat, 32, true)) ++
    [(bitSet ((g.threads.filter (·.retired)).map (·.tid)), 512, false), (off + 256, 64, false), (off + 1280, 64, false),
     (off + 1280 + 256 * k.nbar, 64, false), (0, 832, false)])
  let threads := Part.join (g.threads.map (s.threadPart g cmds (s.cycle g.core)))
  .join [header, g.tellerPart, .join ((List.range k.nbar).map fun b => (g.bar b).part), threads.padded]

/-- The code tables that saved DECOMP copies are bound to, as loaded (R382). -/
def State.boundTables (s : State) (core : Nat) (cmds : List Cmd) : List (Nat × List Nat) :=
  (List.range 4).filterMap fun k =>
    let t := (s.coreAt core).table k
    if cmds.any fun c => c.decomp && c.tbl == k && c.tgen == t.gl then some (k, t.lens) else none

/-- The engine section (R382). -/
def State.enginePart (s : State) (col : Column) (cmds : List Cmd) : Part :=
  let gs := s.columnGroups col.id
  let routes := s.routes.filter fun r => r.gid.column == col.id
  let tables := s.boundTables col.core cmds
  let header := Part.fields 16 [(cmds.length, 8, false), (routes.length, 8, false), (gs.length, 4, false), (tables.length, 3, false),
    (0, 6, false), (0, 99, false)]
  let route (r : Route) : Part := .fields 16 [(r.out, 4, false), (r.gid.stage, 2, false), (0, 26, false), (r.word.toNat, 32, false),
    (r.count, 12, false), (0, 52, false)]
  let group (g : Group) : Part := .fields 16 ([(g.id.stage, 2, false), (g.pushed.toNat, 7, false), (0, 7, false)] ++
    (List.range 7).map fun q => (g.credits.getD q 0, 16, false))
  let table (t : Nat × List Nat) : Part := .fields 272 ([(t.1, 128, false)] ++ (List.range 256).map fun i => (t.2.getD i 0, 8, false))
  .join ([header] ++ cmds.map s.cmdPart ++ routes.map route ++ gs.map group ++ tables.map table)

/-- NSTAGE of a launch block; 0 is taken as 1 (R78). -/
def Launch.stages (l : Launch) : Nat := max 1 (numAt l.block 14 1)
/-- Grid dimensions (R78). -/
def Launch.grid (l : Launch) : Nat × Nat × Nat := (numAt l.block 16 4, numAt l.block 20 4, numAt l.block 24 4)
/-- The coordinate of a column: x fastest, then y, then z (R81). -/
def Launch.coord (l : Launch) (col : Nat) : Nat × Nat × Nat :=
  let (x, y, _) := l.grid
  (col % x, col / x % y, col / (x * y))

/-- The whole record of a column (R378); `reason` is the code of REASON, `extra` the discarded command of an engine's trap. -/
def State.recordPart (s : State) (col : Column) (reason : Nat) (trap : Option Trap) (seq : Word) (extra : Option Cmd) : Part :=
  let cmds := s.columnCmds col.id ++ extra.toList
  let gs := s.columnGroups col.id
  let offs := gs.foldl (fun (acc : List (Nat × Nat) × Nat) g => (acc.1 ++ [(g.id.stage, acc.2)], acc.2 + g.sectionLen)) ([], 256)
  let goff (k : Nat) : Nat := match offs.1.find? (·.1 == k) with | some x => x.2 | none => 0
  let woff := offs.2
  let eoff := woff + pad256 col.wsize
  let engine := (s.enginePart col cmds).padded
  let l := s.launch? col.id.launch
  let (x, y, z) := match l with | some l => l.coord col.id.col | none => (0, 0, 0)
  let stages := match l with | some l => l.stages | none => gs.length
  let header := Part.fields 256 ([(0x47525653, 32, false), (1, 16, false), (0, 16, false), (s.launchIdOf col.id.launch, 32, false),
    (x, 32, false), (y, 32, false), (z, 32, false), (stages, 3, false), (reason, 3, false), (0, 26, false), (col.missing, 32, false),
    (if reason = 2 then seq.toNat else 0, 32, false), (col.wsize, 32, false), (eoff + engine.bytes.length, 64, false)] ++
    ((List.range 4).map fun k => (goff k, 64, false)) ++ [(woff, 64, true), (eoff, 64, false), (0, 1280, false)])
  .join ([header] ++ gs.map (fun g => s.groupPart cmds trap (goff g.id.stage) g) ++
    [(Part.free (s.mems.scratchRead col.core col.wbase col.wsize)).padded, engine])

/-! ## Draining (R374 steps 1, 3, 4) -/

/-- The record of a parked access that an open one is held behind: that one cannot be performed before the replay either. -/
def State.behindParked (s : State) (a : Acc) : Option Nat :=
  if a.isOpen && !a.isPrefetch then
    s.accs.findSome? fun b => match b.st with | .parked f => if a.heldBy b then some f else none | _ => none
  else none
/-- Accesses that `p` selects and that are held behind a parked one park with it, for replay (R324). -/
def State.parkBehind (s : State) (p : Acc → Bool) : State :=
  let park (a : Acc) : Acc := match s.behindParked a with | some f => if p a then { a with st := .parked f } else a | none => a
  { s with accs := s.accs.map park }
/-- An access is through for a stop, or parked: loads have landed, stores are performed at device scope, faults have reached the core (R324,
R374). -/
def Acc.drained (a : Acc) : Bool := a.isParked || a.isPrefetch || (decide (2 ≤ a.level) && !a.returns)
/-- A teller stands at an instruction boundary, nothing of its own in progress (R374 step 1). -/
def Teller.atBoundary (t : Teller) : Bool :=
  match t.wait with
  | some (.freeze _ _) => false
  | some (.frozen _ _) => false
  | some (.published _) => false
  | _ => true
/-- A command stands at a boundary (R374 step 4): a copy between runs or waiting for its publication, MATRIX between steps, a COLLECT in
the collective engine. -/
def State.cmdDrained (s : State) (c : Cmd) : Bool :=
  if c.st != .started then true
  else if c.kind = 5 then c.taken
  else if c.kind ≤ 1 then (if c.finished then c.taken else s.haltsAt c)
  else if c.kind = 3 then c.readBytes.isEmpty && !c.finished
  else !c.finished
/-- Steps 1 to 4 of R374 are over for a column. -/
def State.drained (s : State) (col : ColId) : Bool :=
  (s.accs.all fun a => a.gid.column != col || a.drained)
    && (s.cmds.all fun c => c.gid.column != col || s.cmdDrained c)
    && (s.columnGroups col).all fun g =>
      g.teller.atBoundary && g.threads.all fun t =>
        t.retired || ((t.strands.all fun st => st.pend.isEmpty) && t.gregs.all fun r => r.visible == 0)

/-! ## Leaving the core (R371, R373) -/

/-- What of a column's accesses outlives its residence: those that are parked and those whose acknowledgement is owed; their cycle of issue
becomes 1, or 0 when the thread has issued since (R369). -/
def State.keptAccs (s : State) (col : ColId) : List Acc :=
  (s.accs.filter fun a => a.gid.column != col || !a.isPrefetch).map fun a =>
    if a.gid.column != col then a
    else
      let late := match s.thread? a.gid a.tid with | some t => t.issuedAfter a.at_ | none => false
      let cont := match s.strand? a.gid a.tid a.n with | some st => st.pc | none => a.cont
      { a with at_ := if late then 0 else 1, cont := cont }

/-- The strands of a column that sleep at a barrier. -/
def State.sleepers (s : State) (col : ColId) : List Sleeper :=
  (s.columnGroups col).flatMap fun g => g.threads.flatMap fun t => t.strands.filterMap fun st =>
    st.sleep.map fun x => { stage := g.id.stage, tid := t.tid, n := st.n, bar := x.1, pc := st.pc, next := x.2 }

/-- What precedes the accesses of a column's agents to come (R28, R244, R324). -/
def State.keptOrder (s : State) (col : ColId) : List Kept :=
  (s.columnGroups col).flatMap fun g =>
    (g.threads.filter (!·.retired)).flatMap (fun t =>
      t.strands.map (fun st => .strand g.id.stage t.tid st.n st.seq st.know st.after st.lent st.fenced st.over_) ++
      (t.gregs.zipIdx.filter (·.1.p)).map fun r => .greg g.id.stage t.tid r.2 r.1.know r.1.after r.1.fenced) ++
    (g.bars.zipIdx.map fun b => .barrier g.id.stage b.2 b.1.before b.1.owed) ++ [.teller g.id.stage g.teller.after]
/-- The parked tellers and commands of a column. -/
def State.keptParked (s : State) (col : ColId) : List (Nat × Nat × Option Addr) :=
  ((s.columnGroups col).filterMap fun g => g.teller.parked.map fun f => (g.id.stage, f, some g.teller.pc)) ++
  s.cmds.filterMap fun c => match c.st with | .parked f => if c.gid.column == col then some (c.gid.stage, f, none) else none | _ => none
/-- The live decision-queue entries that are too old for the record (R39). -/
def State.keptDq (s : State) (col : ColId) : List (Nat × DqEntry) :=
  (s.columnGroups col).flatMap fun g => (g.dq.filter fun e => decide (64 < (g.dqNext - e.seq).toNat)).map fun e => (g.id.stage, e)

/-- Removes a column from its core: groups, queue entries, held slots, event outputs (R373); a COLLECT that the collective engine has taken
runs on, in no queue. -/
def State.vacate (s : State) (col : ColId) : State :=
  let keep := (s.columnCmds col).map (·.id)
  let unqueue (c : Cmd) : Cmd := if c.gid.column == col then { c with queue := 7 } else c
  { s with accs := s.keptAccs col, cmds := (s.cmds.filter fun c => !keep.contains c.id).map unqueue,
           groups := s.groups.filter (fun g => g.id.column != col), columns := s.columns.filter (fun c => c.id != col),
           held := s.held.filter (fun h => h.owner.column != col), routes := s.routes.filter (fun r => r.gid.column != col),
           issue := s.issue.filter (fun i => match i with | .teller g => g.column != col | .bundle _ _ _ _ => true) }

/-- A column leaves its core with its record written: it becomes a saved column. -/
def State.intoSaved (s : State) (c : Column) (st : Stop) (slot : Option Nat) (record : Part) (owed : List (Trap × Word × Nat)) : State :=
  let slots := s.held.filter fun h => h.owner.column == c.id && h.pending && (s.slotCmd? h.core h.slot).isNone
  let sv : SavedCol :=
    { id := c.id, ctx := c.ctx, reason := st.reason, slot := slot, record := if slot.isSome then [] else record.bytes,
      sealed := record.seal, trap := st.trap, trapSeq := st.trapSeq, missing := c.missing, owed := owed,
      asleep := s.sleepers c.id, triggers := slots.map fun h => (h.owner.stage, h.slot),
      exited := (s.columnGroups c.id).flatMap fun g => (g.threads.filter fun t => t.exited && !t.retired).map fun t =>
        (g.id.stage, t.tid, t.status),
      parked := s.keptParked c.id, kept := s.keptOrder c.id, oldDq := s.keptDq c.id,
      entries := (s.columnCmds c.id).map (fun x => { cmd := x, discarded := false }) ++
        st.cmd.toList.map fun x => { cmd := x, discarded := true },
      placeable := st.reason != .trap }
  { s.vacate c.id with saved := s.saved ++ [sv], exch := { s.exch with trigger := true } }

/-- The traps of a stop, each with its TRAPSEQ (R369). -/
def Stop.traps (st : Stop) : List (Trap × Word) := (st.trap.map fun t => (t, st.trapSeq)).toList ++ st.later

/-- Writes the notices of a stop that are not yet written, `saved` naming the slot once the record is complete, until the ring is full (R370). -/
def State.tellTraps (s : State) (c : Column) (time : Nat) (slot : Option Nat) : List (Trap × Word) → State
  | [] => s
  | (t, seq) :: rest =>
    let st := (s.column? c.id).bind (·.stop)
    let told := match st with | some st => (if slot.isSome then st.told else st.noticed) | none => []
    if told.contains seq then s.tellTraps c time slot rest
    else
      match s.putNotice c.ctx c.id t slot seq time with
      | none => s
      | some s =>
        let mark (st : Stop) : Stop := if slot.isSome then { st with told := seq :: st.told } else { st with noticed := seq :: st.noticed }
        (s.modColumn c.id fun x => { x with stop := x.stop.map mark }).tellTraps c time slot rest

/-- The traps of a stop whose notices with SAVED = 1 are still owed when a quiesce saves the column into a slot, or none (R370, R375). -/
def Stop.owed (st : Stop) (slot : Option Nat) : List (Trap × Word × Nat) :=
  (st.traps.filter fun t => !(slot.isSome && st.told.contains t.2)).map fun t => (t.1, t.2, st.time)

/-- Saves a drained column: into the image area under a quiesce, unless it has taken a slot already, in which its record is written anew;
else into a save slot, followed by its notices, the column staying while there is no slot or the ring is full (R370, R371, R374 steps 5 and
6). -/
def State.saveColumn (s : State) (c : Column) (st : Stop) : Out :=
  let record := s.recordPart c st.reason.code st.trap st.trapSeq st.cmd
  if s.quiesce.running && s.quiesce.phase == 2 then
    match st.slot with
    | none => .next (s.intoSaved c st none record (st.owed none))
    | some k =>
      match s.vaWrite c.ctx (s.slotAddr c.ctx k) record.bytes { shd := true } with
      | .ok s => .next (s.intoSaved c st (some k) record (st.owed (some k)))
      | .error .held => .next s
      | .error (.absent pa) => .fault (.noSuchMemory pa)
      | .error _ => .next ((s.freeSaveSlot c.ctx (some k)).intoSaved c st none record (st.owed none))
  else
    match st.slot.orElse fun _ => (s.ctxAt c.ctx).freeSlot with
    | none => .next (s.tellTraps c st.time none st.traps)
    | some k =>
      match s.vaWrite c.ctx (s.slotAddr c.ctx k) record.bytes { shd := true } with
      | .error (.absent pa) => .fault (.noSuchMemory pa)
      | .error _ => .next (s.tellTraps c st.time none st.traps)
      | .ok s =>
        let s := (s.takeSlot c.ctx k).modColumn c.id fun x => { x with stop := x.stop.map fun st => { st with slot := some k } }
        let s := s.tellTraps c st.time (some k) st.traps
        match s.stopOf c.id with
        | some now => if st.traps.all fun t => now.told.contains t.2 then .next (s.intoSaved c st (some k) record []) else .next s
        | none => .next s

/-! ## The events (R220, R371, R374) -/

/-- A strand counts as stalled on pages beside a parked one (R220). -/
def Strand.standsStill (st : Strand) : Bool :=
  match st.state with | .parked _ => true | .finished => true | .live => decide (4096 ≤ st.stalled)
/-- A teller counts as stalled on pages (R220). -/
def Teller.standsStill (t : Teller) : Bool :=
  t.isDefault || t.done || t.parked.isSome ||
    (match t.wait with
      | some (.queue _) => true
      | some .dqRoom => true
      | some (.wake _) => true
      | some (.gen _ _) => true
      | some (.barrier _) => true
      | some (.arrival _) => true
      | some .threads => true
      | _ => false)
/-- A group has retired: every thread has, and its teller is done (R21). -/
def Group.retired (g : Group) : Bool := g.threads.all (·.retired) && (g.teller.done || g.teller.isDefault)
/-- A group is stalled on pages: a strand of it is parked, one that has finished since its access was issued among them, and every other
live strand stands still, and its teller (R219, R220). -/
def State.stalledOnPages (s : State) (g : Group) : Bool :=
  let here := g.threads.filter (!·.retired)
  (here.any fun t => t.strands.any fun st =>
      (match st.state with | .parked _ => true | _ => false) || (s.parkedAcc? g.id t.tid st.n).isSome)
    && (here.all fun t => t.exited || t.strands.all (·.standsStill)) && g.teller.standsStill

/-- A stopping column may leave its core: a pre-emption or a switch-out waits while the core stands still, but for a quiesce (R384, R400,
R403). -/
def State.mayLeave (s : State) (c : Column) (st : Stop) : Bool :=
  !((s.coreAt c.core).standsStill && (st.reason == .preempt || st.reason == .switchOut) && !(s.quiesce.running && s.quiesce.phase == 2))

/-- SWITCH_OUT (R220): A column whose unretired groups are all stalled on pages is switched out, once a save slot is free that no other
stop has claimed (R371) and its core runs (R400). -/
def execSwitchOut (col : ColId) (s : State) : Out :=
  match s.column? col with
  | none => .next s
  | some c =>
    let gs := (s.columnGroups col).filter (!·.retired)
    if c.stop.isSome || gs.isEmpty || !gs.all s.stalledOnPages || s.spareSlots c.ctx == 0 || s.coreHeld c.core then .next s
    else .next (s.askStop col .switchOut)

/-- STOP_COLUMN (R374): The stopping sequence of a column begins: steps 1 and 2 hold from now on. A pre-emption or switch-out of a core that
stands still waits until the core runs (R400, R403). -/
def execStopColumn (col : ColId) (reason : StopReason) (s : State) : Out :=
  match s.column? col with
  | none => .next s
  | some c =>
    match c.stop with
    | none => .next s
    | some st =>
      if st.begun || st.reason != reason || !s.mayLeave c st then .next s
      else .next (s.modColumn col fun x => { x with stop := x.stop.map fun st => { st with begun := true } })

/-- SAVE_RECORD_WRITE (R324, R378): Accesses held behind parked ones park with them; once a stopping column has drained, its barrier file
and save record are written and its resources freed. -/
def execSaveRecordWrite (col : ColId) (s : State) : Out :=
  match s.column? col with
  | none => .next s
  | some c =>
    match c.stop with
    | none => .next s
    | some st =>
      let s := if st.begun then s.parkBehind (·.gid.column == col) else s
      if !st.begun || !s.drained col || !s.mayLeave c st then .next s else s.saveColumn c st

/-- Writes the notices owed for a saved column, as far as the ring has room. -/
def State.tellSaved (s : State) (c : SavedCol) (slot : Nat) : List (Trap × Word × Nat) → State
  | [] => s.modSaved c.id fun x => { x with owed := [] }
  | (t, seq, time) :: rest =>
    match s.putNotice c.ctx c.id t (some slot) seq time with
    | none => s.modSaved c.id fun x => { x with owed := (t, seq, time) :: rest }
    | some s => s.tellSaved c slot rest

/-- A saved column that owes notices gets a slot, when its record lies in the image area, and writes them (R221 step 7, R375). -/
def State.settleSaved (s : State) (c : SavedCol) : Out :=
  match c.slot with
  | some k => .next (s.tellSaved c k c.owed)
  | none =>
    match (s.ctxAt c.ctx).freeSlot with
    | none => .next s
    | some k =>
      match s.vaWrite c.ctx (s.slotAddr c.ctx k) c.record { shd := true } with
      | .error (.absent pa) => .fault (.noSuchMemory pa)
      | .error _ => .next s
      | .ok s =>
        let s := (s.takeSlot c.ctx k).modSaved c.id fun x => { x with slot := some k, record := [] }
        .next (s.tellSaved c k c.owed)

/-- SAVE_SLOT_FREED (R371): A free save slot goes to a column that waits for one on its core, or to one that a quiesce saved with a trap;
its notices follow. -/
def execSaveSlotFreed (ctx : Nat) (s : State) : Out :=
  let waits (c : Column) : Bool :=
    c.ctx == ctx && (match c.stop with | some st => st.begun && s.drained c.id && s.mayLeave c st | none => false)
  match s.columns.find? waits, (s.ctxAt ctx).freeSlot with
  | some c, some _ => (match c.stop with | some st => s.saveColumn c st | none => .next s)
  | _, _ =>
    if s.quiesce.running then .next s
    else
      match s.saved.find? fun c => c.ctx == ctx && !c.owed.isEmpty with
      | some c => s.settleSaved c
      | none => .next s

/-! ## The host's answer (R372, R383) -/

/-- The checks of R383 on a record's bytes: the RO bits as written, even PCs, stack depths, legal formats. -/
def recordOk (sealed : List (Byte × Byte)) (r : List Byte) : Bool :=
  let stage (k : Nat) : Bool :=
    let off := fieldAt r 0 (384 + 64 * k) 64
    if off = 0 then true
    else
      let t := fieldAt r off 1024 64
      let th := fieldAt r off 1152 64
      let n := ((List.range 16).filter (fieldAt r off 32 16).testBit).length
      let strandOk (i : Nat) : Bool :=
        let at_ := th + i / n * (320 + 256 * n) + 320 + 256 * (i % n)
        fieldAt r at_ 1088 1 == 0 && decide (fieldAt r at_ 1040 4 ≤ 8)
      ((List.range 8).all fun i => fmtLegal (BitVec.ofNat 32 (fieldAt r off (256 + 32 * i) 32)))
        && fieldAt r t 2048 2 == 0 && decide (fieldAt r t 2624 4 ≤ 8)
        && (List.range (fieldAt r off 18 10 * n)).all strandOk
  sealedBy sealed r && fieldAt r 0 0 32 == 0x47525653 && fieldAt r 0 32 16 == 1 && (List.range 4).all stage

/-- The fault of a discard joins its launch: the one of the lowest TRAPSEQ is reported (R394). -/
def Launch.discard (l : Launch) (kind cls code col seq : Nat) : Launch :=
  let keep := match l.fault with | some (_, _, _, _, q) => decide (q ≤ seq) | none => false
  { l with ndisc := min (l.ndisc + 1) (2 ^ 32 - 1), fault := if keep then l.fault else some (kind, cls, code, col, seq) }

/-- Discards a saved column: its groups complete without a status, its slot is freed, its unresolved records lapse (R372). -/
def State.discardSaved (s : State) (c : SavedCol) (kind cls code : Nat) : State :=
  let s := s.freeSaveSlot c.ctx c.slot
  let s := { s with saved := s.saved.filter (fun x => x.id != c.id), accs := s.accs.filter (fun a => a.gid.column != c.id),
                    faults := s.faults.filter (fun (f : FaultRec) => f.col != c.id) }
  s.modLaunch c.id.launch fun l => l.discard kind cls code c.id.col c.trapSeq.toNat

/-- The column saved in a slot of a context after a trap, that the host has not answered yet (R372). -/
def State.trapped? (s : State) (ctx slot : Nat) : Option SavedCol :=
  s.saved.find? fun c => c.ctx == ctx && c.slot == some slot && c.reason == .trap && !c.placeable

/-- GRP_RESUME (R372): A trapped column whose record passes the check returns to its launch; one that fails is discarded. -/
def execGrpResume (ctx slot : Nat) (s : State) : Out :=
  match s.trapped? ctx slot with
  | none => .next s
  | some c =>
    match s.recordOf? c with
    | .error .held => .next (s.holdEvent (.resume ctx slot))
    | .error (.absent pa) => .fault (.noSuchMemory pa)
    | .error _ => .next (s.discardSaved c 3 0 0)
    | .ok r => .next (if recordOk c.sealed r then s.modSaved c.id fun x => { x with placeable := true } else s.discardSaved c 3 0 0)

/-- GRP_DISCARD (R372): A trapped column is discarded; its launch reports the trap. -/
def execGrpDiscard (ctx slot : Nat) (s : State) : Out :=
  match s.trapped? ctx slot with
  | none => .next s
  | some c => .next (match c.trap with | some t => s.discardSaved c 2 t.cls t.code | none => s.discardSaved c 2 0 0)

end Sys2Proof.Machine
end

