-- ==== Sys2Proof/Machine/Launches.lean ====
section
/-! DEFINITION. Launch windows, acceptance and checks of launch blocks, input capture, completion: 04_launch R74 to R80; 02_objects R44 to
R51; 10_memory R210; 11_memory_insts R239; 22_retire_debug R393 to R398. -/

namespace Sys2Proof.Machine

/-! ## The launch window (R74 to R77) -/

/-- The low word of CSW (R77): OVF, BAD, BADACC, RECLOST, DROPS. -/
def Ctx.csw (c : Ctx) : Nat := packFields [(c.ovf.toNat, 1), (c.bad.toNat, 1), (c.badacc.toNat, 1), (c.reclost.toNat, 1), (0, 12), (c.drops, 16)]

/-- A write of one aligned word of a launch window: STAGING, or the W1C bits of CSW; the write that leaves OVF and BAD both clear
clears DROPS (R74, R77). -/
def Ctx.windowWord (c : Ctx) (off : Nat) (w : Word) : Ctx :=
  if off < 0x100 then { c with staging := patch c.staging off (wordBytes w) }
  else if off = 0x100 then
    let ovf := c.ovf && !w.getLsbD 0
    let bad := c.bad && !w.getLsbD 1
    { c with ovf := ovf, bad := bad, badacc := c.badacc && !w.getLsbD 2, reclost := c.reclost && !w.getLsbD 3,
             drops := if !ovf && !bad then 0 else c.drops }
  else c

/-- CRECVA of a launch block is 0 or misaligned, or LAUNCHID is 0: the block has no completion record (R76). -/
def noRecord (block : List Byte) : Bool :=
  fieldAt block 0 832 64 == 0 || fieldAt block 0 832 64 % 64 != 0 || numAt block 248 4 == 0

/-- A block is dropped (R76, R77). -/
def State.dropBlock (s : State) (b : Submitted) (ovf : Bool) : State :=
  s.modCtx b.ctx fun c =>
    { c with ovf := c.ovf || ovf, bad := c.bad || !ovf, drops := min 65535 (c.drops + 1), lastDrop := BitVec.ofNat 32 (numAt b.block 248 4) }

/-- All 256 launch slots are occupied, by launches and by blocks that have one and are not accepted yet (R76, R86). -/
def State.slotsFull (s : State) : Bool :=
  decide (256 ≤ s.launches.length + (s.submitted.filter fun b => b.slotted && !noRecord b.block).length)
/-- The cycle of the base die, as TIME and the place in it (R2, R76, log 134). -/
def State.now (s : State) : Nat × Nat := (s.time, s.timePhase)
/-- `b` is taken before `a` or was there before it: it arrived on an earlier cycle, or on the same one from a window of a context number no
higher (R76). -/
def Submitted.before (b a : Submitted) : Bool :=
  decide (b.arrived.1 < a.arrived.1) || (b.arrived.1 == a.arrived.1 &&
    (decide (b.arrived.2 < a.arrived.2) || (b.arrived.2 == a.arrived.2 && decide (b.ctx ≤ a.ctx))))
/-- A block arrives at the distributor, behind those before it (R75, R76). -/
def State.submit (s : State) (b : Submitted) : State :=
  { s with submitted := s.submitted.takeWhile (·.before b) ++ b :: s.submitted.dropWhile (·.before b) }
/-- The cycle of the base die is over: of the blocks that have arrived on it, in their order, each takes a launch slot, or is dropped when
every slot is occupied (R76). -/
def State.takeSlots (s : State) : State :=
  s.submitted.foldl (fun s b =>
    if b.slotted then { s with submitted := s.submitted ++ [b] }
    else if s.slotsFull then s.dropBlock b true
    else { s with submitted := s.submitted ++ [{ b with slotted := true }] }) { s with submitted := [] }

/-- A write to the launch window of a context (R74, R75): whole aligned words are taken, and one that covers part of a word is discarded
and sets BADACC; a byte of 0xF8 to 0xFF submits the staged block. -/
def State.windowWrite (s : State) (ctx off : Nat) (data : List Byte) : State :=
  if !(s.ctxAt ctx).exist || data.isEmpty || s.recovery then s
  else if off % 4 ≠ 0 ∨ data.length % 4 ≠ 0 then s.modCtx ctx fun c => { c with badacc := true }
  else
    let s := s.modCtx ctx fun c => (wordsOf data).zipIdx.foldl (fun c w => c.windowWord (off + 4 * w.2) w.1) c
    if off < 0x100 ∧ 0xF8 < off + data.length then
      s.submit { ctx := ctx, block := (s.ctxAt ctx).staging, arrived := s.now, replog := (s.ctxAt ctx).replog.toNat, slotted := false }
    else s

/-- STAGING_WRITE (R74): A write to a launch window. -/
def execStagingWrite (ctx off : Nat) (data : List Byte) (s : State) : Out := .next (s.windowWrite ctx off data)
/-- LAUNCH_SUBMIT (R75): A write to a launch window that covers a byte of 0xF8 to 0xFF submits the block as it stands after the write. -/
def execLaunchSubmit (ctx off : Nat) (data : List Byte) (s : State) : Out :=
  if off < 0x100 ∧ 0xF8 < off + data.length then .next (s.windowWrite ctx off data) else .next s

/-! ## Fields of a launch block (R78) -/

/-- Bits of a launch block. -/
def Launch.field (l : Launch) (lo n : Nat) : Nat := fieldAt l.block 0 lo n
/-- PRIO. -/
def Launch.prio (l : Launch) : Nat := l.field 86 2
/-- THREADS. -/
def Launch.threads (l : Launch) : Nat := l.field 96 16
/-- CODEVA. -/
def Launch.codeVa (l : Launch) : Nat := l.field 0 64
/-- CRECVA. -/
def Launch.crecVa (l : Launch) : Nat := l.field 832 64
/-- ARGVA. -/
def Launch.argVa (l : Launch) : Nat := l.field 768 64
/-- The kernel index of a stage. -/
def Launch.kidx (l : Launch) (stage : Nat) : Nat := if stage = 0 then l.field 64 16 else l.field (224 + 16 * (stage - 1)) 16
/-- WSTORE_LOAD. -/
def Launch.wload (l : Launch) : Bool := l.flag 85
/-- Columns of the grid. -/
def Launch.columns (l : Launch) : Nat := let (x, y, z) := l.grid; x * y * z

/-! ## The checks of R79 -/

/-- Cause 1 (R79): a reserved field, THREADS, the grid, NSTAGE, an alignment. -/
def Launch.badBlock (l : Launch) : Bool :=
  let dim (d : Nat) : Bool := d == 0 || decide (2 ^ 31 < d)
  let (x, y, z) := l.grid
  l.field 89 7 != 0 || l.field 122 6 != 0 || l.field 272 16 != 0 || l.field 1024 960 != 0 || l.field 2016 32 != 0
    || l.threads % 16 != 0 || decide (l.threads < 16 ∨ 512 < l.threads) || dim x || dim y || dim z || decide (4 < l.field 112 8)
    || l.argVa % 16 != 0 || l.codeVa % 64 != 0

/-- The object header breaks R51. -/
def badObject (h : List Byte) : Bool :=
  let need := numAt h 8 8
  numAt h 0 4 != 0x4C554743 || numAt h 4 2 != 1 || numAt h 7 1 != 4 || decide (2 < numAt h 6 1) || numAt h 32 32 != 0
    || (List.range 64).any fun b => need.testBit b && !(decide (b < 8) && Config.available b)
/-- A kernel header, followed by its strand table, breaks R51 or R49. -/
def badKernel (k : List Byte) : Bool :=
  let smask := fieldAt k 0 0 16
  let ngpr := fieldAt k 0 16 7
  let scratch := fieldAt k 0 40 20
  smask == 0 || ngpr == 0 || decide (64 < ngpr) || (fieldAt k 0 23 1 == 1 && ngpr != 64) || decide (16 < fieldAt k 0 24 5)
    || fieldAt k 0 29 3 != 0 || decide (64 < fieldAt k 0 32 7) || fieldAt k 0 39 1 != 0 || decide (786432 < scratch) || scratch % 16 != 0
    || fieldAt k 0 60 4 != 0 || fieldAt k 0 224 288 != 0
    || (List.range 16).any fun n =>
        let off := numAt k (64 + 4 * n) 4
        off % 2 != 0 || (off != 0) != smask.testBit n

/-- SMASK, NGPR, NBAR, DQD of a kernel header (R48). -/
def kernelOf (k : Nat × List Byte) : Kernel :=
  { kidx := k.1, smask := BitVec.ofNat 16 (fieldAt k.2 0 0 16), ngpr := fieldAt k.2 0 16 7, nbar := fieldAt k.2 0 24 5,
    dqd := fieldAt k.2 0 32 7 }
/-- Accumulator slots that a group of `t` threads takes on cluster `c` (R18). -/
def Kernel.slots (k : Kernel) (t c : Nat) : Nat := t * ((k.smask.getLsbD c).toNat + (k.smask.getLsbD (c + 8)).toNat)
/-- The kernels of a launch. -/
def Launch.kernelList (l : Launch) : List Kernel := l.kernels.map kernelOf
/-- The window of a column: the largest that its kernels declare (R13). -/
def Launch.window (l : Launch) : Nat := (l.kernels.map fun k => fieldAt k.2 0 40 20).foldl max 0
/-- Cause 5 (R79): the column does not fit an empty core. -/
def Launch.tooLarge (l : Launch) : Bool :=
  decide (32 < l.stages * (l.threads / 16)) || (List.range 8).any fun c => decide (512 < (l.kernelList.map fun k => k.slots l.threads c).sum)

/-- How the reads of an acceptance end. -/
inductive Loaded where
  | ok (s : State) (object : List Byte) (kernels : List (Nat × List Byte))
  | unreadable
  | wait
  | absent (pa : Nat)

/-- What a denied read of the distributor comes to (R79 cause 6). That one of a HOST page without CXLCACHE comes to cause 6 too is the model's
choice (log 131). -/
def Denied.load (d : Denied) : Loaded := match d with | .held => .wait | .absent pa => .absent pa | _ => .unreadable

/-- Reads the kernel header and the strand table of each stage whose index the object has (R51). -/
def State.loadKernels (s : State) (ctx code : Nat) (object : List Byte) : List Nat → List (Nat × List Byte) → Loaded
  | [], got => .ok s object got
  | k :: rest, got =>
    if numAt object 22 2 ≤ k then s.loadKernels ctx code object rest (got ++ [(k, [])])
    else
      match s.vaRead ctx (code + numAt object 28 4 + 64 * k) 64 { shd := true } with
      | .error d => d.load
      | .ok (h, s) =>
        match s.vaRead ctx (code + numAt h 16 4) 64 { shd := true } with
        | .error d => d.load
        | .ok (t, s) => s.loadKernels ctx code object rest (got ++ [(k, h ++ t)])

/-- The refusal cause of R79, 0 for none, in the table's order, given what was read. -/
def Launch.cause (l : Launch) (duplicate : Bool) (read : Option (List Byte × List (Nat × List Byte))) : Nat :=
  if l.badBlock then 1
  else if duplicate then 2
  else
    match read with
    | none => 6
    | some (object, kernels) =>
      if badObject object || kernels.any (fun k => badKernel k.2) then 3
      else if l.wload && !Config.available 5 then 4
      else if { l with kernels := kernels }.tooLarge then 5
      else 0

/-- A launch as accepted, before its checks. -/
def State.newLaunch (s : State) (b : Submitted) : Launch :=
  let l : Launch :=
    { seq := s.nextLaunch, ctx := b.ctx, asid := (s.ctxAt b.ctx).asid, block := b.block, waits := [], refused := 0, kernels := [],
      nextCol := 0, ndisc := 0, ngroups := 0, vcycles := 0, status := 0, fault := none, tstart := none, sole := false,
      clkreq := BitVec.ofNat 32 (numAt b.block 36 4), blockedAt := none, blocked50 := false, capDone := false, capFail := false,
      capTrunc := false, rDiverge := false, capPos := 0, replay := none, doneGroups := [], ended := false }
  let ids := (List.range 4).map fun i => numAt b.block (112 + 4 * i) 4
  let waits := (s.launches.filter fun x => x.ctx == b.ctx && x.id != 0 && ids.contains x.id).map (·.seq)
  { l with status := statusIdentity l.redop, waits := waits }

/-- The log that a launch replays, read where REPLOG pointed at its submission (R398, log 20); none while its pages hold requests. -/
def State.replayOf (s : State) (l : Launch) (b : Submitted) : Option (Option (List (Nat × Nat)) × State) :=
  if !l.captures || b.replog = 0 then some (none, s)
  else match s.readLog l.ctx b.replog s.logFuel 0 with | .ok (es, s) => some (some es, s) | .error _ => none

/-- LAUNCH_ACCEPT (R76, R79, R80): The distributor takes the oldest submitted block, once the cycle of its arrival is over: drops it, or
accepts it, resolves its prerequisites and checks it, and reads the log of a re-run (R398). -/
def execLaunchAccept (s : State) : Out :=
  match s.submitted with
  | [] => .next s
  | b :: rest =>
    let l := s.newLaunch b
    let s1 : State := { s with submitted := rest }
    if !b.slotted then .next s
    else if noRecord b.block then .next (s1.dropBlock b false)
    else
      let enter (s : State) (l : Launch) : Out := .next { s with launches := s.launches ++ [l], nextLaunch := s.nextLaunch + 1 }
      let dup := s.launches.any fun x => x.ctx == l.ctx && x.id == l.id
      if l.badBlock || dup then enter s1 { l with refused := l.cause dup none }
      else
        let read : Loaded := match s1.vaRead l.ctx l.codeVa 64 { shd := true } with
          | .error d => d.load
          | .ok (h, s) => s.loadKernels l.ctx l.codeVa h ((List.range l.stages).map l.kidx) []
        match read with
        | .wait => .next s
        | .absent pa => .fault (.noSuchMemory pa)
        | .unreadable => enter s1 { l with refused := 6 }
        | .ok s2 object kernels =>
          match s2.replayOf l b with
          | none => .next s
          | some (replay, s3) =>
            enter s3 { l with refused := l.cause dup (some (object, kernels)), kernels := kernels, replay := replay }

/-! ## Eligibility (R81, R85, R396) -/

/-- Accepted, unrefused, its waits complete (R81). -/
def Launch.eligible (l : Launch) : Bool := l.refused == 0 && l.waits.isEmpty && !l.ended
/-- A WSTORE_LOAD launch accepted before it is not complete: it places nothing (R85). -/
def State.heldBack (s : State) (l : Launch) : Bool := s.launches.any fun w => w.wload && w.refused == 0 && decide (w.seq < l.seq)

/-! ## Capture (R396) -/

/-- What reading a list of ranges gives. -/
def State.readRanges (s : State) (ctx : Nat) : List (Nat × Nat) → Except Denied (List Byte × State)
  | [] => .ok ([], s)
  | (va, n) :: rest =>
    match s.vaRead ctx va n { shd := true } with
    | .error d => .error d
    | .ok (bs, s) =>
      match s.readRanges ctx rest with
      | .error d => .error d
      | .ok (more, s) => .ok (bs ++ more, s)

/-- The descriptors of a context's CAPLIST from the `i`th on, `fuel` of them at most, as (VA, LEN), up to the first LEN of 0 (R396). -/
def State.capList (s : State) (ctx : Nat) : Nat → Nat → Except Denied (List (Nat × Nat) × State)
  | 0, _ => .ok ([], s)
  | fuel + 1, i =>
    match s.vaRead ctx ((s.ctxAt ctx).caplist.toNat + 16 * i) 16 { shd := true } with
    | .error d => .error d
    | .ok (bs, t) =>
      if numAt bs 8 8 = 0 then .ok ([], t)
      else
        match t.capList ctx fuel (i + 1) with
        | .error d => .error d
        | .ok (rs, u) => .ok ((numAt bs 0 8, numAt bs 8 8) :: rs, u)

/-- CAPTURE_INPUTS (R396): The inputs of a CAPTURE launch that has become eligible are written to the buffer: header, block, the argument
block where the list names ARGVA, once, then every listed range. When they do not fit, or the list or they cannot be read or written, CAPFAIL
(log 142). -/
def execCaptureInputs (launch : Nat) (s : State) : Out :=
  match s.launch? launch with
  | none => .next s
  | some l =>
    if !l.captures || l.capDone || !l.eligible || s.heldBack l then .next s
    else
      let c := s.ctxAt l.ctx
      let fail (s : State) : Out := .next (s.modLaunch launch fun l => { l with capDone := true, capFail := true })
      match s.capList l.ctx 64 0 with
      | .error .held => .next s
      | .error (.absent pa) => .fault (.noSuchMemory pa)
      | .error _ => fail s
      | .ok (ranges, s) =>
      let all := (ranges.find? fun r => r.1 == l.argVa && l.argVa != 0).toList ++ ranges
      if c.capsize.toNat < 320 + (all.map (·.2)).sum then fail s
      else
        match s.readRanges l.ctx all with
        | .error .held => .next s
        | .error (.absent pa) => .fault (.noSuchMemory pa)
        | .error _ => fail s
        | .ok (bs, s2) =>
          let head := leBytes 64 (packFields [(l.id, 32), (0, 32), (s.time, 64)])
          match s2.vaWrite l.ctx c.capbase.toNat (head ++ l.block ++ bs) { shd := true } with
          | .error .held => .next s
          | .error (.absent pa) => .fault (.noSuchMemory pa)
          | .error _ => fail s
          | .ok s => .next (s.modLaunch launch fun l => { l with capDone := true, capPos := 320 + bs.length })

/-! ## Completion (R239, R394, R395) -/

/-- Entry `a` is applied before entry `b` of the same location (R239). -/
def OrdEntry.before (a b : OrdEntry) : Bool :=
  let key (e : OrdEntry) : List Nat := [e.col, e.stage, e.tid, e.seq]
  decide (key a < key b)

/-- The log entries of a launch in the order of R239; the order among locations has no effect. -/
def insertEntry (e : OrdEntry) : List OrdEntry → List OrdEntry
  | [] => [e]
  | x :: xs => if x.before e then x :: insertEntry e xs else e :: x :: xs
/-- Sorted by insertion. -/
def sortEntries (es : List OrdEntry) : List OrdEntry := es.foldr insertEntry []

/-- Applies fixed-order contributions: M := M + v, rounded to nearest even (R239). A location that is no longer mapped takes none. -/
def State.applyLog (s : State) (ctx : Nat) : List OrdEntry → Except Denied State
  | [] => .ok s
  | e :: rest =>
    match s.vaUpdate ctx e.va 4 (fun old => wordBytes (addF32 (wordOf old) e.v).1) (some (.float 0 e.v)) { shd := true } with
    | .error .held => .error .held
    | .error (.absent pa) => .error (.absent pa)
    | .error _ => s.applyLog ctx rest
    | .ok (_, s) => s.applyLog ctx rest

/-- The 64 bytes of a completion record (R394). -/
def Launch.record (l : Launch) (time : Nat) : List Byte :=
  let f := if l.ended then (4, 0, 0, 0) else if l.refused ≠ 0 then (1, 0, l.refused, 0)
    else match l.fault with | some (k, cls, code, col, _) => (k, cls, code, col) | none => (0, 0, 0, 0)
  leBytes 64 (packFields [(l.id, 32), (l.asid, 16), (0, 16), (l.status.toNat, 32), (f.1, 4), (f.2.2.1, 13), (f.2.1, 4), (l.capFail.toNat, 1),
    (l.capTrunc.toNat, 1), (l.rDiverge.toNat, 1), (0, 8), (l.ndisc, 32), (f.2.2.2, 32), (l.tstart.getD time, 64), (time, 64),
    (l.vcycles, 64), (l.ngroups, 64), (0, 32), (1, 1), (0, 31)])

/-- Every group of a launch has completed or been discarded, and what it accessed is performed at system scope, or it was refused (R325,
R395). -/
def State.launchOver (s : State) (l : Launch) : Bool :=
  l.refused != 0
    || (!(s.accs.any fun a => a.gid.launch == l.seq && !a.isPrefetch) && !(s.cmds.any (·.gid.launch == l.seq))
      && (l.ended || decide (l.columns ≤ l.nextCol)) && !(s.columns.any (·.id.launch == l.seq)) && !(s.saved.any (·.id.launch == l.seq)))

/-- Writes a completion record, unless CRECVA does not translate, or its page lacks WR, is WSTORE or REMOTE, or lies in a frozen range, or
in memory that does not exist: then RECLOST and LASTLOST, for the write never faults (R395). -/
def State.writeCompletion (s : State) (l : Launch) : Except Denied State :=
  let lost : State := s.modCtx l.ctx fun c => { c with reclost := true, lastLost := BitVec.ofNat 32 l.id }
  match s.translate l.ctx l.crecVa .store none with
  | .error _ => .ok lost
  | .ok (x, _) =>
    if x.perm.typ == .remote || x.perm.typ == .wstore then .ok lost
    else
      match s.vaWrite l.ctx l.crecVa (l.record s.time) { shd := true } with
      | .error .held => .error .held
      | .error _ => .ok lost
      | .ok s => .ok s

/-- The last launch of a context that was destroyed is over: the context is gone, and the CTXCMD that destroyed it is done (R411). The
system context comes back empty after a function-level reset (R409). -/
def State.ctxGone (s : State) (ctx : Nat) : State :=
  if (s.ctxAt ctx).exist || s.launches.any (·.ctx == ctx) then s
  else
    let asid := (s.ctxAt ctx).asid
    let s := { s with tlb := s.tlb.filter fun t => t.asid != some asid }
    let s := s.modCtx ctx fun c => if ctx = 0 then { Ctx.none with exist := true, root := c.root } else .none
    if s.mgmt.ctxBusy = some ctx then { s with mgmt := { s.mgmt with ctxBusy := none, ctxErr := 0, ctxDone := s.mgmt.ctxDone + 1 } } else s

/-- LAUNCH_COMPLETE (R395): The fixed-order log is applied, the record written, the slot freed, dependants released, the completion message
sent. After a WSTORE_LOAD launch no cache holds a line of WSTORE type (R210). -/
def execLaunchComplete (launch : Nat) (s : State) : Out :=
  match s.launch? launch with
  | none => .next s
  | some l =>
    if !s.launchOver l then .next s
    else
      match s.applyLog l.ctx (sortEntries (s.ordLog.filter (·.launch == launch))) with
      | .error (.absent pa) => .fault (.noSuchMemory pa)
      | .error _ => .next s
      | .ok s1 =>
        let s1 := if l.wload && l.refused == 0 then s1.dropLines fun _ typ _ => typ == .wstore else s1
        match s1.writeCompletion l with
        | .error _ => .next s
        | .ok s2 =>
          let drop (x : Launch) : Launch := { x with waits := x.waits.filter (· != launch) }
          let s3 : State := { s2 with launches := (s2.launches.filter fun x => x.seq != launch).map drop,
                                      ordLog := s2.ordLog.filter (·.launch != launch) }
          .next ((if l.flag 88 then s3.notify (bits (s3.ctxAt l.ctx).vectors.toNat 0 11) else s3).ctxGone l.ctx)

end Sys2Proof.Machine
end

