-- ==== Sys2Proof/Machine/Placement.lean ====
section
/-! DEFINITION. Placing columns, new and saved, pre-emption, the end of a group: 01_work R8 to R22, R31, R34; 04_launch R81 to R85;
20_interrupts R372, R375 to R377, R380 to R382. -/

namespace Sys2Proof.Machine

/-! ## Free resources of a core (R82, R83) -/

/-- What a column needs of a core: the kernel and stage of each group, T, the window's bytes. -/
structure Demand where
  stages : List (Nat × Kernel)
  t : Nat
  wsize : Nat
  deriving DecidableEq, Repr

/-- Granules of 1 KiB. -/
def granules (n : Nat) : Nat := (n + 1023) / 1024
/-- The groups of a core but for those of columns given up. -/
def State.groupsOn (s : State) (core : Nat) (gone : ColId → Bool) : List Group :=
  s.groups.filter fun g => g.core == core && !gone g.id.column
/-- The columns of a core but for those given up. -/
def State.columnsOn (s : State) (core : Nat) (gone : ColId → Bool) : List Column :=
  s.columns.filter fun c => c.core == core && !gone c.id
/-- Free turns in ascending order. -/
def freeTurns (gs : List Group) : List Nat :=
  let used := gs.flatMap (·.turns)
  (List.range 32).filter fun t => !used.contains t
/-- Free teller contexts in ascending order. -/
def freeTellers (gs : List Group) : List Nat := (List.range 8).filter fun k => !gs.any (·.tctx == k)
/-- The lowest free run of granules that is long enough (R83). -/
def freeRun (cs : List Column) (n : Nat) : Option Nat :=
  let taken (g : Nat) : Bool := cs.any fun c => decide (c.wbase / 1024 ≤ g ∧ g < c.wbase / 1024 + granules c.wsize)
  (List.range (Config.scratchBytes / 1024 + 1 - n)).find? fun g => (List.range n).all fun i => !taken (g + i)
/-- A demand fits a core once columns are given up (R82). -/
def State.fits (s : State) (d : Demand) (core : Nat) (gone : ColId → Bool) : Bool :=
  let gs := s.groupsOn core gone
  let used (c : Nat) : Nat := (gs.map fun g => g.kernel.slots g.t c).sum
  let wants (c : Nat) : Nat := (d.stages.map fun x => x.2.slots d.t c).sum
  decide (d.stages.length * (d.t / 16) ≤ (freeTurns gs).length) && ((List.range 8).all fun c => decide (used c + wants c ≤ 512))
    && (freeRun (s.columnsOn core gone) (granules d.wsize)).isSome && decide (d.stages.length ≤ (freeTellers gs).length)
    && decide (gs.length + d.stages.length ≤ 8)
/-- No column is given up. -/
def noneGone (_ : ColId) : Bool := false

/-- The demand of a column never placed. -/
def Launch.demand (l : Launch) : Demand :=
  { stages := (l.kernelList.zipIdx).map fun x => (x.2, x.1), t := l.threads, wsize := l.window }

/-! ## A group as it is placed (R10, R15, R16, R22, R31, R34, R83) -/

/-- The parts of a group that its launch, its column and its place give. -/
def Launch.groupAt (l : Launch) (col stage core tctx wbase wsize cyc : Nat) (turns : List Nat) (k : Kernel) (th : List Thread) (tl : Teller) :
    Group :=
  let (x, y, z) := l.coord col
  let (nx, ny, nz) := l.grid
  let nf := List.replicate 8 fmtReset
  { id := { launch := l.seq, col := col, stage := stage }, core := core, tctx := tctx, ctx := l.ctx, launchId := BitVec.ofNat 32 l.id,
    gx := x, gy := y, gz := z, nx := nx, ny := ny, nz := nz, t := l.threads, kernel := k, turns := turns, check := l.flag 81,
    fixedOrder := l.flag 83, seg := (List.range 7).map fun i => BitVec.ofNat 64 (numAt l.block (40 + 8 * i) 8), wbase := wbase,
    wsize := wsize, nf := nf, sfmode := l.flag 82, nfOld := nf, sfOld := l.flag 82, fmtAt := cyc, cycle := 0, dq := [], dqNext := 0,
    bars := List.replicate k.nbar .reset, threads := th, teller := tl, credits := List.replicate 7 0, pushed := 0, deadlock := 0,
    status := statusIdentity l.redop, stany := false, masks := [] }

/-- The strand numbers of a kernel. -/
def Kernel.numbers (k : Kernel) : List Nat := (List.range 16).filter k.smask.getLsbD

/-- A thread at its start: every register absent, each strand at its entry of the strand table (R15, R16, R22). -/
def startThread (k : Kernel) (entry : Nat → Addr) (ready tid : Nat) : Thread :=
  { tid := tid, gregs := List.replicate 64 .reset, strands := k.numbers.map fun n => Strand.start n (entry n) ready, status := 0,
    exited := false, retired := false }

/-- A teller at its start: at its entry, or the default teller when TOFF is 0 (R31, R34). -/
def startTeller (code toff ready : Nat) : Teller :=
  { s := List.replicate 64 0, pc := BitVec.ofNat 64 (code + toff), rstack := [], wake := 0, wait := none, ready := ready,
    isDefault := toff == 0, done := false, parked := none, after := [] }

/-- A group of a column never placed before. -/
def Launch.freshGroup (l : Launch) (col core cyc wbase : Nat) (k : Nat × List Byte) (stage tctx : Nat) (turns : List Nat) : Group :=
  let kn := kernelOf k
  let entry (n : Nat) : Addr := BitVec.ofNat 64 (l.codeVa + numAt k.2 (64 + 4 * n) 4)
  l.groupAt col stage core tctx wbase l.window cyc turns kn ((List.range l.threads).map (startThread kn entry (cyc + 1)))
    (startTeller l.codeVa (fieldAt k.2 0 64 32) (cyc + 1))

/-! ## Bringing a saved column back (R372, R375 to R377, R380 to R382) -/

/-- What is kept of a strand: its accesses' count, what precedes it, what preceded its `lend`, what a fence releases (R28, R241, R244,
R303). -/
def SavedCol.strandOrder (c : SavedCol) (stage tid n : Nat) : Nat × List Nat × List Nat × List Nat × List (Nat × Nat) × Bool :=
  (c.kept.findSome? fun k => match k with
    | .strand st t m seq know after lent fenced over_ =>
      if st = stage ∧ t = tid ∧ m = n then some (seq, know, after, lent, fenced, over_) else none
    | _ => none).getD (0, List.replicate 16 0, [], [], [], false)
/-- What is kept of a register. -/
def SavedCol.gregOrder (c : SavedCol) (stage tid g : Nat) : List Nat × List Nat × List (Nat × Nat) :=
  (c.kept.findSome? fun k => match k with
    | .greg st t m know after fenced => if st = stage ∧ t = tid ∧ m = g then some (know, after, fenced) else none
    | _ => none).getD ([], [], [])
/-- What precedes the arrivals of a barrier's phase, and what it owes to threads (R244). -/
def SavedCol.barOrder (c : SavedCol) (stage b : Nat) : List Nat × List (Nat × List Nat) :=
  (c.kept.findSome? fun k => match k with
    | .barrier st m before owed => if st = stage ∧ m = b then some (before, owed) else none
    | _ => none).getD ([], [])
/-- What precedes a teller's next access. -/
def SavedCol.tellerOrder (c : SavedCol) (stage : Nat) : List Nat :=
  (c.kept.findSome? fun k => match k with | .teller st after => if st = stage then some after else none | _ => none).getD []

/-- How a strand whose entry gives `pc` sleeps, by the barriers in whose WAITING its thread stands (R377): as it slept, going on where the
record's PC now says; or, when the host has set the bit of a thread that did not sleep there, its lowest live strand, which goes on at its
PC (log 127). -/
def SavedCol.sleepOf (c : SavedCol) (stage tid n : Nat) (pc : Addr) (lowest : Bool) (waiting : List Nat) : Option (Nat × Addr) :=
  match c.asleep.find? fun x => x.stage == stage && x.tid == tid && x.n == n && waiting.contains x.bar with
  | some x => some (x.bar, if pc = x.pc then x.next else pc)
  | none =>
    if lowest then
      (waiting.find? fun b => !c.asleep.any fun x => x.stage == stage && x.tid == tid && x.bar == b).map fun b => (b, pc)
    else none

/-- A strand from its entry at byte `off` (R380). `claim` names the command of an entry's number; `lowest` that it is its thread's lowest
live strand. -/
def State.strandOf (s : State) (c : SavedCol) (r : List Byte) (off : Nat) (g : GroupId) (tid n cyc : Nat) (lowest : Bool) (waiting : List Nat)
    (claim : Nat → Nat) : Strand :=
  let f := fieldAt r off
  let (seq, know, after, lent, fenced, ended) := c.strandOrder g.stage tid n
  let accs := s.accs.filter fun a => a.gid == g && a.tid == tid && a.n == n
  let pc : Addr := BitVec.ofNat 64 (f 1088 64)
  let fid := f 1728 32
  let still := accs.find? fun a => match a.st with | .parked x => s.faults.any fun (y : FaultRec) => y.ctx == c.ctx && y.fid == x | _ => false
  let on : StrandState := if ended then .finished else .live
  let state : StrandState := match f 1032 2 with
    | 1 => .finished
    | 2 =>
      match still.map (fun a => a.st) with
      | some (AccState.parked x) => .parked x
      | _ => if accs.isEmpty && s.faults.any (fun (y : FaultRec) => y.ctx == c.ctx && y.fid == fid) then .parked fid else on
    | _ => .live
  let pc' := match accs.find? fun a => a.isParked && a.pc == pc with | some a => if f 1032 2 = 2 then a.cont else pc | none => pc
  { Strand.start n pc' (cyc + 1 + f 1044 3) with
    e := (List.range 32).map fun j => BitVec.ofNat 32 (f (32 * j) 32), flags := Flags.ofWord (BitVec.ofNat 32 (f 1024 5)),
    own := match f 1034 2 with | 1 => .offered | 2 => .claimed (claim (f 1036 4)) | _ => .strand,
    rstack := stackOf r off 1152 (f 1040 4), cursor := BitVec.ofNat 32 (f 1056 32), state := state,
    over_ := f 1032 2 == 1 || (f 1032 2 == 2 && ended), know := know, after := after,
    fenced := fenced, lent := lent,
    seq := seq, varPend := (accs.find? fun a => a.returns && !a.isWriteBack).map (·.bundle),
    issuedAt := if s.accs.any (fun a => a.gid == g && a.tid == tid && a.at_ == 0) then 2 else 0,
    sleep := c.sleepOf g.stage tid n pc lowest waiting }

/-- A group from its section at byte `off` (R379 to R381). -/
def State.groupOf (s : State) (c : SavedCol) (l : Launch) (r : List Byte) (off stage core tctx cyc wbase wsize : Nat) (turns : List Nat)
    (claim : Nat → Nat) : Group :=
  let f := fieldAt r off
  let gid : GroupId := { launch := l.seq, col := c.id.col, stage := stage }
  let toff := f 1024 64
  let boff := f 1088 64
  let thoff := f 1152 64
  let k : Kernel := { kidx := f 0 16, smask := BitVec.ofNat 16 (f 32 16), ngpr := f 48 7, nbar := f 55 5, dqd := f 60 7 }
  let bars := (List.range k.nbar).map fun b => Barrier.ofRecord r (boff + 256 * b) (c.barOrder stage b)
  let ns := k.numbers
  let size := 320 + 256 * ns.length
  let retired := f 512 512
  let thread (tid : Nat) : Thread :=
    let at_ := thoff + tid * size
    let waiting := (List.range k.nbar).filter fun b => match bars[b]? with | some x => x.waiting.contains tid | none => false
    let live := ns.zipIdx.find? fun n => fieldAt r (at_ + 320 + 256 * n.2) 1032 2 == 0
    let ex := c.exited.find? fun x => x.1 == stage && x.2.1 == tid
    if retired.testBit tid then
      { tid := tid, gregs := List.replicate 64 .reset, strands := ns.map fun n => { Strand.start n 0 0 with state := .finished, over_ := true }, status := 0,
        exited := false, retired := true }
    else
      { tid := tid, gregs := gregsOf r at_ (c.gregOrder stage tid),
        strands := ns.zipIdx.map fun n => s.strandOf c r (at_ + 320 + 256 * n.2) gid tid n.1 cyc (live == some n) waiting claim,
        status := match ex with | some x => x.2.2 | none => 0, exited := ex.isSome, retired := false }
  let t := fieldAt r toff
  let tb := bars.findIdx? (·.twait)
  let teller : Teller :=
    { s := (List.range 64).map fun i => if i = 0 then 0 else BitVec.ofNat 32 (t (32 * i) 32), pc := BitVec.ofNat 64 (t 2048 64),
      rstack := stackOf r toff 2112 (t 2624 4), wake := BitVec.ofNat 16 (t 2640 16), wait := tb.map .barrier, ready := cyc + 1,
      isDefault := t 2628 1 == 1, done := false, parked := none, after := c.tellerOrder stage }
  let next := t 2688 32
  let live := t 2720 7
  let old := (c.oldDq.filter (·.1 == stage)).map (·.2)
  let dq := old ++ (List.range live).filterMap fun i =>
    let n := t (2752 + 64 * i + 32) 14
    if n = 0 then none
    else some ({ seq := BitVec.ofNat 32 (next + 2 ^ 32 - live + i), value := BitVec.ofNat 32 (t (2752 + 64 * i) 32), readers := n } : DqEntry)
  let nf := (List.range 8).map fun i => BitVec.ofNat 32 (f (256 + 32 * i) 32)
  { l.groupAt c.id.col stage core tctx wbase wsize cyc turns k ((List.range (f 18 10)).map thread) teller with
    nf := nf, nfOld := nf, sfmode := f 67 1 == 1, sfOld := f 67 1 == 1, cycle := f 192 64, dq := dq, dqNext := BitVec.ofNat 32 next,
    bars := bars, status := BitVec.ofNat 32 (f 128 32), stany := f 68 1 == 1 }

/-- The stages of a record whose group is present, with the bytes their sections begin at. -/
def recordStages (r : List Byte) : List (Nat × Nat) :=
  (List.range 4).filterMap fun k => let off := fieldAt r 0 (384 + 64 * k) 64; if off = 0 then none else some (k, off)
/-- The demand of a saved column. -/
def recordDemand (r : List Byte) : Demand :=
  let st := recordStages r
  let kernel (off : Nat) : Kernel :=
    { kidx := fieldAt r off 0 16, smask := BitVec.ofNat 16 (fieldAt r off 32 16), ngpr := fieldAt r off 48 7, nbar := fieldAt r off 55 5,
      dqd := fieldAt r off 60 7 }
  { stages := st.map fun x => (x.1, kernel x.2), t := match st with | x :: _ => fieldAt r x.2 18 10 | [] => 0, wsize := fieldAt r 0 288 32 }

/-- A command of a record: its entry's number, the command with a new id, whether it was held and its trigger pending. -/
structure CmdEntry where
  cmd : Cmd
  state : Nat
  pend : Bool
  deriving DecidableEq, Repr

/-- The command that an entry of a saved column's engine section was (R382). -/
def SavedCol.cmdAt? (c : SavedCol) (i : Nat) : Option Cmd := (c.entries[i]?).map (·.cmd)
/-- The id of the command of an entry, which it keeps. -/
def SavedCol.cmdId (c : SavedCol) (i : Nat) : Nat := match c.cmdAt? i with | some x => x.id | none => 0
/-- A saved command stays parked until its record is resolved (R221, R293); any other is queued again. -/
def State.parkedStill (s : State) (c : SavedCol) (i : Nat) : CmdState :=
  match (c.cmdAt? i).map (fun (x : Cmd) => x.st) with
  | some (CmdState.parked fid) => if s.faults.any fun (y : FaultRec) => y.ctx == c.ctx && y.fid == fid then .parked fid else .queued
  | _ => .queued
/-- A command from its entry (R382), to be queued again: one that had started goes on from its vector or counter when it starts again. -/
def State.cmdOf (s : State) (c : SavedCol) (r : List Byte) (off core i : Nat) : CmdEntry :=
  let f := fieldAt r off
  let (collNo, idxs) := match c.cmdAt? i with | some x => (x.collNo, x.idxs) | none => (none, [])
  let words := (List.range 16).map fun w => BitVec.ofNat 32 (f (32 * w) 32)
  let x : Cmd :=
    { id := c.cmdId i, core := core, queue := f 512 3, gid := { launch := c.id.launch, col := c.id.col, stage := f 520 2 }, ctx := c.ctx,
      words := words, st := .queued, aseq := f 608 32, tgen := f 640 32, fmtA := BitVec.ofNat 32 (f 672 32), fmtB := BitVec.ofNat 32 (f 704 32),
      sf := f 736 1 == 1, iter := (List.range 4).map fun l => f (544 + 16 * l) 16, prog := f 544 32, readBytes := [], wrote := 0, ahead := [],
      past := [], finished := false, taken := false, collNo := collNo, idx := none, idxs := idxs, start := 0 }
  let finished := decide (x.kind ≤ 1 ∧ x.bound 4 ≤ x.iter.getD 3 0)
  let gate := f 519 1
  { cmd := { x with st := if f 515 3 = 1 then (if f 518 1 = 1 then .ready else .held) else s.parkedStill c i,
                    prog := if x.kind = 2 then x.prog else 0, iter := if x.kind ≤ 1 then x.iter else [0, 0, 0, 0],
                    finished := finished, start := if decide (2 ≤ f 515 3) || (x.gate && gate == 0) then 1 else 0 },
    state := f 515 3, pend := f 518 1 == 1 }

/-- The commands of a record, but for those that an engine's trap has discarded (R290, R382). -/
def State.recordCmds (s : State) (c : SavedCol) (r : List Byte) (core : Nat) : List CmdEntry :=
  let m := engineMap r
  let goes (i : Nat) : Bool := match c.entries[i]? with | some e => !e.discarded | none => false
  ((List.range m.ncmd).filter goes).map fun i => s.cmdOf c r (m.cmdAt + 128 * i) core i

/-- Started commands come first, the others in their order of acceptance (R288, R293). -/
def CmdEntry.before (a b : CmdEntry) : Bool :=
  let rank (x : CmdEntry) : Nat := if x.state = 3 then 0 else if x.state = 2 then 1 else 2
  decide (rank a < rank b) || (rank a == rank b && decide (a.cmd.aseq ≤ b.cmd.aseq))
/-- Enters a command among sorted ones. -/
def insertCmd (e : CmdEntry) : List CmdEntry → List CmdEntry
  | [] => [e]
  | x :: xs => if e.before x then e :: x :: xs else x :: insertCmd e xs

/-- The further conditions of R376 on a core: outputs, held slots and queues. -/
def State.takesBack (s : State) (c : SavedCol) (r : List Byte) (core : Nat) : Bool :=
  let m := engineMap r
  let es := s.recordCmds c r core
  let outs := (List.range m.nroute).map fun i => fieldAt r (m.routeAt + 16 * i) 0 4
  let slots := (es.filter fun e => e.cmd.isHeld && e.state == 1).map (·.cmd.tslot) ++ c.triggers.map (·.2)
  (outs.all fun o => !s.routes.any fun x => x.core == core && x.out == o) && (slots.all fun k => (s.slot? core k).isNone)
    && (List.range 7).all fun q => decide (s.queueUsed core q + (es.filter fun e => e.cmd.queue == q && !e.cmd.isHeld).length ≤ 16)

/-- A copy on the core is bound to a table that the column's own would replace: the reload waits for it (R300, R376). -/
def State.tableBusy (s : State) (r : List Byte) (core : Nat) : Bool :=
  let m := engineMap r
  (List.range m.ntbl).any fun i =>
    let k := fieldAt r (m.tblAt + 272 * i) 0 2
    s.cmds.any fun c => c.core == core && c.decomp && c.tbl == k

/-- Reloads a code table as generation GA + 1 (R376). -/
def State.reloadTable (s : State) (r : List Byte) (core i : Nat) : State :=
  let m := engineMap r
  let off := m.tblAt + 272 * i
  s.modTable core (fieldAt r off 0 2) fun t =>
    { ga := t.ga + 1, gl := t.ga + 1, lens := (List.range 256).map fun j => fieldAt r (off + 16 + j) 0 8 }

/-- The generation, on the new core, of a saved command's table: saved TABLE commands follow the reloaded tables in their own order. -/
def newGen (base : Nat) (tables : List Nat) (old : Nat) : Nat :=
  if tables.contains old then base + 1 + (tables.filter (· < old)).length else base

/-- A deferred completion is applied: the sync word's update and, where that has not trapped, the event pulse (R288, R382). -/
def State.applyDeferred (s : State) (c : ColId) (core wbase : Nat) (r : List Byte) (off : Nat) : State :=
  let f := fieldAt r off
  let gid : GroupId := { launch := c.launch, col := c.col, stage := f 20 4 }
  let u := if f 0 16 = 0xFFFF then (s, false) else s.syncUpdate core (wbase + 16 * f 0 16) 0 (BitVec.ofNat 32 (f 32 64))
  if u.2 then u.1.takeTrap gid (Trap.ofEngine 5 0 gid)
  else if f 16 4 = 15 then u.1
  else u.1.pulse core (f 16 4) 1

/-- What remains of a restored column's accesses is on the new core, and those whose record is resolved are to be performed again (R221). -/
def State.reopen (s : State) (c : SavedCol) (core cyc : Nat) : State :=
  let unresolved (f : Nat) : Bool := s.faults.any fun (y : FaultRec) => y.ctx == c.ctx && y.fid == f
  let back (a : Acc) : Acc :=
    if a.gid.column != c.id then a
    else { a with core := core, at_ := if a.at_ = 0 then 0 else max 1 cyc, since := cyc,
                  st := match a.st with | .parked f => if unresolved f then .parked f else .open_ | st => st }
  { s with accs := s.accs.map back }

/-- Places a saved column on a core, from its record (R81, R376). -/
def State.restoreColumn (s : State) (c : SavedCol) (l : Launch) (r : List Byte) (core : Nat) : State :=
  let cyc := s.cycle core
  let d := recordDemand r
  let gs := s.groupsOn core noneGone
  let turns := freeTurns gs
  let tctx := freeTellers gs
  let wbase := (freeRun (s.columnsOn core noneGone) (granules d.wsize)).getD 0 * 1024
  let m := engineMap r
  let es := (s.recordCmds c r core).foldr insertCmd []
  let per := d.t / 16
  let groups := (recordStages r).zipIdx.map fun x =>
    s.groupOf c l r x.1.2 x.1.1 core (tctx.getD x.2 0) cyc wbase d.wsize ((turns.drop (x.2 * per)).take per) c.cmdId
  let groups := groups.map fun g =>
    match (List.range m.ngrp).find? fun i => fieldAt r (m.grpAt + 16 * i) 0 2 == g.id.stage with
    | some i =>
      let f := fieldAt r (m.grpAt + 16 * i)
      { g with pushed := BitVec.ofNat 7 (f 2 7), credits := (List.range 7).map fun q => f (16 + 16 * q) 16 }
    | none => g
  let col : Column := { id := c.id, core := core, ctx := c.ctx, wbase := wbase, wsize := d.wsize, missing := c.missing, stop := none }
  let s := s.reopen c core cyc
  let mine (x : Cmd) : Cmd := if x.gid.column == c.id then { x with core := core } else x
  let s := { s with cmds := s.cmds.map mine, groups := s.groups ++ groups, columns := s.columns ++ [col], saved := s.saved.filter (fun x => x.id != c.id),
                    mems := s.mems.scratchWrite core wbase (slice r (fieldAt r 0 640 64) d.wsize) }
  let s := (List.range m.ntbl).foldl (fun s i => s.reloadTable r core i) s
  let base (k : Nat) : Nat := ((s.coreAt core).table k).ga
  let tables (k : Nat) : List Nat := (es.filter fun e => e.cmd.kind == 3 && cmdField e.cmd.words 96 2 == k).map (·.cmd.tgen)
  let rebind (x : Cmd) : Cmd :=
    if x.kind = 3 then let k := cmdField x.words 96 2; { x with tgen := newGen (base k) (tables k) x.tgen }
    else if x.decomp then { x with tgen := newGen (base x.tbl) (tables x.tbl) x.tgen }
    else x
  let cmds := es.map fun e => rebind e.cmd
  let s := (List.range 4).foldl (fun s k => s.modTable core k fun t => { t with ga := t.ga + (tables k).length }) s
  let holding := (es.filter fun e => e.cmd.isHeld && e.state == 1).map fun e =>
    ({ core := core, slot := e.cmd.tslot, owner := e.cmd.gid, pending := e.pend } : HeldSlot)
  let pending := c.triggers.map fun x =>
    ({ core := core, slot := x.2, owner := { launch := c.id.launch, col := c.id.col, stage := x.1 }, pending := true } : HeldSlot)
  let routes := (List.range m.nroute).map fun i =>
    let f := fieldAt r (m.routeAt + 16 * i)
    ({ core := core, out := f 0 4, gid := { launch := c.id.launch, col := c.id.col, stage := f 4 2 }, word := BitVec.ofNat 32 (f 32 32),
       count := f 64 12 } : Route)
  let s := { s with cmds := s.cmds ++ cmds, held := s.held ++ holding ++ pending,
                    routes := s.routes ++ routes }
  let s := s.freeSaveSlot c.ctx c.slot
  (List.range m.ndef).foldl (fun s i => s.applyDeferred c.id core wbase r (m.defAt + 16 * i)) s

/-! ## Choosing (R81, R84, R85) -/

/-- A column that could be placed next: one never placed, or a saved one with its record. -/
inductive Candidate where
  | fresh
  | back (c : SavedCol) (r : List Byte)

/-- A saved column may be placed: not awaiting the host, and its pages found when it was switched out on them (R81, R220). -/
def SavedCol.ready (c : SavedCol) : Bool := c.placeable && (c.reason != .switchOut || c.missing == 0)

/-- The next column of a launch: placeable saved ones first, the lowest index first, then the next never placed (R81). -/
def State.candidate? (s : State) (l : Launch) : Option Candidate :=
  let back := (s.saved.filter fun c => c.id.launch == l.seq && c.ready).foldl (fun best c =>
    match best with
    | none => some c
    | some (b : SavedCol) => if c.id.col < b.id.col then some c else best) none
  match back with
  | some c => (match s.recordOf? c with | .ok r => some (.back c r) | .error _ => none)
  | none => if l.nextCol < l.columns && (!l.captures || l.capDone) then some .fresh else none

/-- Launches in the order of R81: descending priority, then acceptance. -/
def Launch.servedBefore (a b : Launch) : Bool := decide (b.prio < a.prio) || (a.prio == b.prio && decide (a.seq < b.seq))
/-- Enters a launch among those in the order of R81. -/
def insertLaunch (l : Launch) : List Launch → List Launch
  | [] => [l]
  | x :: xs => if l.servedBefore x then l :: x :: xs else x :: insertLaunch l xs

/-- The eligible launches that no WSTORE_LOAD launch holds back, in the order in which they are served (R81, R85). -/
def State.inOrder (s : State) : List Launch := (s.launches.filter fun l => l.eligible && !s.heldBack l).foldr insertLaunch []
/-- A launch has a column to place: one that can be placed now, or one never placed that waits for its inputs to be captured (R81, R396). -/
def State.hasColumns (s : State) (l : Launch) : Bool := (s.candidate? l).isSome || decide (l.nextCol < l.columns)
/-- A WSTORE_LOAD launch that has become the first eligible launch, of those with columns to place, has the device to itself from now on
(R85). -/
def State.claimDevice (s : State) : State :=
  match s.inOrder.find? s.hasColumns with
  | some w => if w.wload && !w.sole then s.modLaunch w.seq fun l => { l with sole := true } else s
  | none => s
/-- The eligible launches that have a column to place and that no WSTORE_LOAD launch holds back, each with its column (R81, R85). -/
def State.serving (s : State) : List (Launch × Candidate) :=
  let ls := s.inOrder
  let ls := match s.launches.find? (·.sole) with | some w => ls.filter (fun (x : Launch) => x.seq == w.seq) | none => ls
  let cs := ls.filterMap fun l => (s.candidate? l).map fun c => (l, c)
  match cs with
  | (l, c) :: _ =>
    if l.wload then (if s.columns.any fun x => x.id.launch != l.seq then [] else [(l, c)]) else cs
  | [] => []

/-- The demand of a candidate. -/
def Candidate.demand (c : Candidate) (l : Launch) : Demand := match c with | .fresh => l.demand | .back _ r => recordDemand r
/-- A candidate fits a core once columns are given up (R82, R376). -/
def State.fitsCandidate (s : State) (l : Launch) (c : Candidate) (core : Nat) (gone : ColId → Bool) : Bool :=
  s.fits (c.demand l) core gone && (match c with
    | .fresh => true
    | .back sv r =>
      let without : State := { s with cmds := s.cmds.filter (fun (x : Cmd) => !gone x.gid.column), held := s.held.filter (fun h => !gone h.owner.column),
                                      routes := s.routes.filter fun x => !gone x.gid.column }
      without.takesBack sv r core)
/-- The lowest-numbered core on which a candidate fits (R83). -/
def State.coreFor (s : State) (l : Launch) (c : Candidate) : Option Nat := (List.range Config.cores).find? fun k => s.fitsCandidate l c k noneGone

/-! ## Pre-emption (R84, R85, R371) -/

/-- A column is on its way off its core; one that waits for a save slot after a trap is not. -/
def Column.leaving (c : Column) : Bool := match c.stop with | some st => st.reason != .trap | none => false
/-- The priority of a column's launch; a WSTORE_LOAD launch is above all (R85). -/
def State.colPrio (s : State) (c : ColId) : Nat := match s.launch? c.launch with | some x => if x.wload then 4 else x.prio | none => 0

/-- The columns of a core that a launch may displace, in the order in which they go: lowest priority, youngest launch, highest index. -/
def State.victims (s : State) (l : Launch) (core : Nat) : List Column :=
  let prio (c : Column) : Nat := s.colPrio c.id
  let before (a b : Column) : Bool :=
    decide (prio a < prio b) || (prio a == prio b && (decide (b.id.launch < a.id.launch) || (a.id.launch == b.id.launch && decide (b.id.col < a.id.col))))
  let ins (c : Column) (l : List Column) : List Column := l.takeWhile (fun x => before x c) ++ c :: l.dropWhile (fun x => before x c)
  (s.columns.filter fun c => c.core == core && c.stop.isNone && decide (prio c < l.prio)).foldr ins []

/-- The fewest columns, in order, whose removal with those of lower priority that are leaving already makes a candidate fit a core; each needs
a save slot (R84, R371). -/
def State.preemptOn (s : State) (l : Launch) (c : Candidate) (core : Nat) : Option (List Column) :=
  let vs := s.victims l core
  let leaving (id : ColId) : Bool := s.columns.any fun x => x.id == id && x.leaving && decide (s.colPrio id < l.prio)
  let n := (List.range (vs.length + 1)).find? fun n =>
    let take := vs.take n
    s.fitsCandidate l c core fun id => leaving id || take.any (·.id == id)
  match n with
  | none => none
  | some n =>
    let take := vs.take n
    if take.all fun v => decide ((take.filter (·.ctx == v.ctx)).length ≤ s.spareSlots v.ctx) then some take else none

/-- The lowest-numbered core on which pre-emption makes a candidate fit, with the columns that go (R84). -/
def State.preemption? (s : State) (l : Launch) (c : Candidate) : Option (Nat × List Column) :=
  if l.wload then none else (List.range Config.cores).findSome? fun k => (s.preemptOn l c k).map fun vs => (k, vs)

/-! ## The events -/

/-- The kernels of a launch with their strand tables as a placement reads them, or, where one cannot be read any more, as its acceptance read
it (R86, log 37); none while the requests of one are held (R344, R353). -/
def State.entryTables (s : State) (l : Launch) : Option (List (Nat × List Byte) × State) :=
  l.kernels.foldl (fun acc k => acc.bind fun acc =>
    match acc.2.vaRead l.ctx (l.codeVa + numAt k.2 16 4) 64 { shd := true } with
    | .ok (t, s) => some (acc.1 ++ [(k.1, k.2.take 64 ++ t)], s)
    | .error .held => none
    | .error _ => some (acc.1 ++ [k], acc.2)) (some ([], s))

/-- Places a column never placed on a core, its kernels with their strand tables as read. -/
def State.placeFresh (s : State) (l : Launch) (kernels : List (Nat × List Byte)) (core : Nat) : State :=
  let cyc := s.cycle core
  let gs := s.groupsOn core noneGone
  let turns := freeTurns gs
  let tctx := freeTellers gs
  let wbase := (freeRun (s.columnsOn core noneGone) (granules l.window)).getD 0 * 1024
  let per := l.threads / 16
  let groups := kernels.zipIdx.map fun (k : (Nat × List Byte) × Nat) =>
    l.freshGroup l.nextCol core cyc wbase k.1 k.2 (tctx.getD k.2 0) ((turns.drop (k.2 * per)).take per)
  let col : Column :=
    { id := { launch := l.seq, col := l.nextCol }, core := core, ctx := l.ctx, wbase := wbase, wsize := l.window, missing := 0, stop := none }
  { s with groups := s.groups ++ groups, columns := s.columns ++ [col] }.modLaunch l.seq fun l => { l with nextCol := l.nextCol + 1 }

/-- Places a column on a core, on which it starts at once (R12, R83); a column whose strand tables are held waits. -/
def State.place (s : State) (l : Launch) (c : Candidate) (core : Nat) : State :=
  let placed : Option State := match c with
    | .back sv r => some (if recordOk sv.sealed r then s.restoreColumn sv l r core else s.discardSaved sv 3 0 0)
    | .fresh => (s.entryTables l).map fun k => k.2.placeFresh l k.1 core
  match placed with
  | none => s
  | some s =>
    let s := s.modLaunch l.seq fun l => { l with tstart := some (l.tstart.getD s.time), blockedAt := none, blocked50 := false }
    { s with lastPlace := some s.time, exch := { s.exch with trigger := true } }

/-- The distributor may place: not quiesced, and 4 ns after its last placement (R81, R384). -/
def State.mayPlace (s : State) : Bool :=
  !s.quiesce.running && (match s.lastPlace with | some t => decide (t + 4 ≤ s.time) | none => true)

/-- A placement on a core waits: the core stands still (R400, R403), or a table that the column brings must wait (R300). -/
def State.placeWaits (s : State) (c : Candidate) (core : Nat) : Bool :=
  (s.coreAt core).standsStill || (match c with | .back _ r => s.tableBusy r core | .fresh => false)

/-- The index of a candidate's column. -/
def Candidate.col (c : Candidate) (l : Launch) : Nat := match c with | .fresh => l.nextCol | .back sv _ => sv.id.col
/-- The launch's next column is found blocked, if it was not so already (R84). -/
def State.noteBlocked (s : State) (l : Launch) (col : Nat) : State :=
  if l.blockedAt.any (·.1 == col) then s
  else s.modLaunch l.seq fun l => { l with blockedAt := some (col, s.time), blocked50 := false }
/-- The launch's next column has been blocked for 50 µs (R84). -/
def Launch.blockedLong (l : Launch) (col time : Nat) : Bool :=
  match l.blockedAt with | some (c, t) => c == col && (l.blocked50 || decide (t + 50000 ≤ time)) | none => false

/-- PLACE_COLUMN (R81, R83, R84): The distributor places the next column on the lowest-numbered core on which it fits. When the first
launch's column fits none and no pre-emption helps, it is blocked, and columns of later launches are placed for 50 µs, but for those of a
WSTORE_LOAD launch, which waits to be the first (R85). -/
def execPlaceColumn (s : State) : Out :=
  let s := s.claimDevice
  if !s.mayPlace then .next s
  else
    match s.serving with
    | [] => .next s
    | (l, c) :: rest =>
      match s.coreFor l c with
      | some k => if s.placeWaits c k then .next s else .next (s.place l c k)
      | none =>
        let s := s.noteBlocked l (c.col l)
        if (s.preemption? l c).isSome || l.blockedLong (c.col l) s.time then .next s
        else
          match (rest.filter fun x => !x.1.wload).findSome? fun x => (s.coreFor x.1 x.2).map fun k => (x, k) with
          | some (x, k) => if s.placeWaits x.2 k then .next s else .next (s.place x.1 x.2 k)
          | none => .next s

/-- PREEMPT (R84): Lower-priority columns of the lowest-numbered core on which that makes room are pre-empted for the blocked column, no more
than the fit needs; one of a core that stands still waits (R400, R403). -/
def execPreempt (s : State) : Out :=
  if s.quiesce.running then .next s
  else
    match s.serving with
    | [] => .next s
    | (l, c) :: _ =>
      if (s.coreFor l c).isSome then .next s
      else
        match s.preemption? l c with
        | none => .next s
        | some (k, vs) =>
          if (s.coreAt k).standsStill then .next s else .next (vs.foldl (fun s v => s.askStop v.id .preempt) s)

/-- PLACEMENT_BLOCK_TIMEOUT (R84): The first launch's column has been blocked for 50 µs: nothing else is placed. -/
def execPlacementBlockTimeout (s : State) : Out :=
  match s.serving with
  | [] => .next s
  | (l, c) :: _ => if l.blockedLong (c.col l) s.time then .next (s.modLaunch l.seq fun l => { l with blocked50 := true }) else .next s

/-! ## The end of a group (R14, R21, R34, R393) -/

/-- GROUP_COMPLETE (R21): Every thread has retired, the teller is done, no command is left: the group's resources are freed, its status and
cycles join its launch; the column's window goes with its last group (R14). -/
def execGroupComplete (gid : GroupId) (s : State) : Out :=
  match s.group? gid with
  | none => .next s
  | some g =>
    let ended := g.threads.all (·.retired) && (g.teller.done || g.teller.isDefault) && !(s.cmds.any (·.gid == gid))
      && (s.stopOf gid.column).isNone
    if !ended then .next s
    else
      let s := s.modLaunch gid.launch fun l =>
        { l with status := if g.stany then reduceStatus l.redop l.status g.status else l.status, ngroups := l.ngroups + 1,
                 vcycles := min (l.vcycles + g.cycle) (2 ^ 64 - 1), doneGroups := gid :: l.doneGroups }
      let s := s.modCore g.core fun k => { k with brkPass := k.brkPass.filter fun p => p.1 != gid }
      let s := { s with accs := s.accs.filter (fun a => a.gid != gid || !a.isPrefetch), groups := s.groups.filter (·.id != gid), routes := s.routes.filter (·.gid != gid),
                        held := s.held.filter (·.owner != gid) }
      if s.groups.any (·.id.column == gid.column) then .next s
      else .next { s with columns := s.columns.filter (·.id != gid.column), exch := { s.exch with trigger := true },
                          faults := s.faults.filter fun (f : FaultRec) => f.col != gid.column }

end Sys2Proof.Machine
end

