-- ==== Sys2Proof/Machine/Exchange.lean ====
section
/-! DEFINITION. Clock requests, the exchange, caps and telemetry: 04_launch R87 to R92; 13_teller R279; 23_host_pod R415, R416. -/

namespace Sys2Proof.Machine

/-! ## Requests and governors (R87, R88) -/

/-- A launch has a group on a die (R88). -/
def State.runsOn (s : State) (l : Launch) (die : Nat) : Bool := s.groups.any fun g => g.id.launch == l.seq && dieOf g.core == die
/-- Of the launches that `p` selects, the one of highest priority, the earliest accepted among equals (R88). -/
def State.governor (s : State) (p : Launch → Bool) : Option Launch := bestBy Launch.servedBefore (s.launches.filter p)
/-- The governor of a die. -/
def State.dieGovernor (s : State) (die : Nat) : Option Launch := s.governor (s.runsOn · die)
/-- The governor of the device. -/
def State.deviceGovernor (s : State) : Option Launch := s.governor fun l => (List.range Config.dies).any (s.runsOn l)
/-- A launch governs some die or the device (R279). -/
def State.governs (s : State) (launch : Nat) : Bool :=
  (((List.range Config.dies).map s.dieGovernor) ++ [s.deviceGovernor]).any fun g => (g.map fun l => l.seq) == some launch

/-- A preference of a request word: the ratio asked for and its coefficient; domains 0 to 3 are matrix, vector, memory, network (R87). -/
def wish (w : Word) (domain : Nat) : Option (Nat × Nat) :=
  let r := bits w.toNat (4 * domain) 4
  if r = 0 then none else some (max 4 (min 12 r), bits w.toNat (16 + 2 * domain) 2 + 1)

/-! ## Power (R89) -/

/-- BASE and the four columns of the production table, at ratios 4 to 12 (R89). -/
def powerBase : Nat := 210
def powerMat : List Nat := [18, 28, 40, 54, 70, 87, 106, 128, 152]
def powerVec : List Nat := [14, 22, 32, 43, 55, 68, 83, 100, 119]
def powerMem : List Nat := [60, 82, 104, 127, 150, 167, 185, 204, 224]
def powerNet : List Nat := [30, 37, 45, 52, 60, 66, 72, 78, 84]

/-- The lower of the configured and the thermal cap (R90). -/
def Exchange.cap (x : Exchange) : Nat := min x.pwrcap x.thermal

/-! ## The choice (R90) -/

/-- Ratios of the first positions, with their power and cost. -/
structure Partial where
  ratios : List Nat
  power : Nat
  cost : Nat
  deriving DecidableEq, Repr

/-- Larger at the first position where two differ (R90). -/
def largerFirst : List Nat → List Nat → Bool
  | a :: as, b :: bs => decide (b < a) || (a == b && largerFirst as bs)
  | _, _ => false
/-- Of lower cost, or of equal cost and larger at the first difference. -/
def Partial.better (a b : Partial) : Bool := decide (a.cost < b.cost) || (a.cost == b.cost && largerFirst a.ratios b.ratios)
/-- Enters a choice among those in ascending power, the better first. -/
def insertPartial (p : Partial) : List Partial → List Partial
  | [] => [p]
  | x :: xs => if p.power < x.power ∨ (p.power = x.power ∧ p.better x) then p :: x :: xs else x :: insertPartial p xs
/-- Keeps of choices in ascending power those that beat every cheaper one: no other can lead to the best grant. -/
def frontier : Option Partial → List Partial → List Partial
  | _, [] => []
  | none, p :: ps => p :: frontier (some p) ps
  | some b, p :: ps => if p.better b then p :: frontier (some p) ps else frontier (some b) ps

/-- One position of R90's order: the ratios it may take, with their power and cost. -/
abbrev Position := List (Nat × Nat × Nat)

/-- A domain: fixed at 4 on an idle die, else any ratio from 4 to 12 at its cost. -/
def position (idle : Bool) (table : List Nat) (w : Option (Nat × Nat)) : Position :=
  let all := (List.range 9).map fun i =>
    let r := i + 4
    let cost := match w with | none => 0 | some (want, k) => k * (if r < want then want - r else r - want)
    (r, table.getD i 0, cost)
  if idle then all.take 1 else all

/-- Extends choices by one position, within the power left. -/
def extend (budget : Nat) (ps : List Partial) (pos : Position) : List Partial :=
  let all := ps.flatMap fun p => pos.map fun o => ({ ratios := p.ratios ++ [o.1], power := p.power + o.2.1, cost := p.cost + o.2.2 } : Partial)
  frontier none ((all.filter fun p => decide (p.power ≤ budget)).foldr insertPartial [])

/-- The positions of the device in the order of R90. -/
def State.positions (s : State) : List Position :=
  let die (t : List Nat) (domain i : Nat) : Position :=
    match s.dieGovernor i with
    | none => position true t none
    | some l => position false t (wish l.clkreq domain)
  let dev (t : List Nat) (domain : Nat) : Position :=
    position false t ((s.deviceGovernor).bind fun l => wish l.clkreq domain)
  (List.range 6).map (die powerMat 0) ++ (List.range 6).map (die powerVec 1) ++ [dev powerMem 2, dev powerNet 3]

/-- The grant of fourteen ratios. -/
def Grant.ofRatios (r : List Nat) : Grant := { mat := r.take 6, vec := (r.drop 6).take 6, mem := r.getD 12 4, net := r.getD 13 4 }

/-- The least-cost admissible grant; ratio 4 everywhere with nothing running, and, OVERCAP, when none is admissible (R88, R90). -/
def State.arbitrate (s : State) : Grant × Bool :=
  if (s.deviceGovernor).isNone then (.idle, false)
  else
    let ps := s.positions.foldl (extend (s.exch.cap - powerBase)) [{ ratios := [], power := 0, cost := 0 }]
    match ps.getLast? with
    | some p => (.ofRatios p.ratios, false)
    | none => (.idle, true)

/-! ## The events -/

/-- RREQ (R279): Replace the launch's clock request; the exchange re-arbitrates when the launch governs. -/
def execRreq (a : BitVec 6) (s : State) : Out :=
  tellerOp (fun s g =>
    let governs := s.governs g.id.launch
    let s := s.modLaunch g.id.launch fun l => { l with clkreq := g.teller.reg a }
    .done (if governs then { s with exch := { s.exch with trigger := true } } else s) [] 1) s

/-- REARBITRATE (R91): A re-arbitration starts, none being under way: it chooses by the state as it stands. -/
def execRearbitrate (s : State) : Out :=
  if !s.exch.trigger || s.exch.pending.isSome then .next s
  else .next { s with exch := { s.exch with trigger := false, pending := some s.arbitrate } }

/-- Two grants, domain by domain. -/
def Grant.zip (f : Nat → Nat → Nat) (a b : Grant) : Grant :=
  { mat := List.zipWith f a.mat b.mat, vec := List.zipWith f a.vec b.vec, mem := f a.mem b.mem, net := f a.net b.net }

/-- GRANT_CHANGE (R91, R92): The exchange's next step: it lowers the clocks that fall, then raises those that rise, then, when a ratio has
changed, GRANTSEQ and GRANT change together and input 15 is posted to every teller (log 133). -/
def execGrantChange (s : State) : Out :=
  match s.exch.pending with
  | none => .next s
  | some (g, overcap) =>
    let x := { s.exch with pending := none, overcap := overcap }
    let low := x.clocks.zip min g
    if x.clocks ≠ low then .next { s with exch := { s.exch with clocks := low } }
    else if x.clocks ≠ g then .next { s with exch := { s.exch with clocks := g } }
    else if g = x.grant then .next { s with exch := x }
    else
      let post (g : Group) : Group := { g with teller := { g.teller with wake := g.teller.wake ||| 0x8000#16 } }
      .next { s with exch := { x with grant := g, seq := x.seq + 1 }, groups := s.groups.map post }

/-- The configured cap takes a value; one outside 500 to 1,300 W is ignored and sets CAPERR (R415). -/
def State.setCap (s : State) (w : Nat) : State :=
  if w < 500 ∨ 1300 < w then { s with exch := { s.exch with caperr := true } }
  else if w = s.exch.pwrcap then s
  else { s with exch := { s.exch with pwrcap := w, trigger := true } }

/-- PWRCAP_WRITE (R415): Set the configured power cap. -/
def execPwrcapWrite (v : BitVec 64) (s : State) : Out := .next (if s.recovery then s else s.setCap (v.toNat % 2 ^ 11))

/-- THERMAL_STEP (R415): Every 10 ms, by the junction temperatures of the dies in eighths of °C, the thermal cap falls or rises by 25 W. -/
def execThermalStep (temps : List Int) (s : State) : Out :=
  let t := s.exch.thermal
  let new := if temps.any fun x => decide (800 ≤ x) then max 500 (t - 25)
    else if (temps.all fun x => decide (x ≤ 760)) ∧ t < s.exch.pwrcap then min s.exch.pwrcap (t + 25)
    else t
  if new = t then .next s else .next { s with exch := { s.exch with thermal := new, trigger := true } }

/-- TELEMETRY_SAMPLE (R416): One sample: the module's power in mW, the junction temperatures of the base die and the six dies, the ratio
words. -/
def execTelemetrySample (power : Nat) (temps : List Int) (s : State) : Out :=
  let temp (i : Nat) : BitVec 64 := (BitVec.ofInt 16 (temps.getD i 0)).setWidth 64
  let regs := BitVec.ofNat 64 (power % 2 ^ 32) :: (List.range 7).map temp ++ (List.range 6).map fun d => (s.ratioWord d).setWidth 64
  .next { s with mgmt := { s.mgmt with telemetry := regs } }

end Sys2Proof.Machine
end

