-- ==== Sys2Proof/Machine/Quiesce.lean ====
section
/-! DEFINITION. Quiesce and the state image: 20_interrupts R384 to R387. -/

namespace Sys2Proof.Machine

/-! ## Quiesce (R384) -/

/-- Every peer of the pod has reported phase 1. -/
def State.peersReported (s : State) : Bool := s.peers.all s.quiesce.reported.contains
/-- Every collective that this member has started has its part, and none whose every part is here is unfinished: it completes in phase 2
(R384). -/
def State.collectivesOver (s : State) : Bool :=
  s.cmds.all fun c => !(c.kind == 5 && c.st == .started && (!c.taken || decide (s.commSize c.comm ≤ (s.partsOf c).length)))
/-- With every report in and the collectives that every member has started complete, phase 2 is over and phase 3 stops every column. -/
def State.toPhase3 (s : State) : State :=
  if s.quiesce.running && s.quiesce.phase == 1 && s.peersReported && s.collectivesOver then
    s.columns.foldl (fun s c => s.askStop c.id .quiesce) { s with quiesce := { s.quiesce with phase := 2 } }
  else s
/-- No access is in flight but those parked on a fault, which only a replay lets go on (R384 phase 1, R324). -/
def State.accessesOver (s : State) : Bool := s.accs.all Acc.drained
/-- Phase 3 has nothing left to wait for: columns saved, engines at a boundary, no flit, no CXL request and no held record outstanding. -/
def State.phase3Over (s : State) : Bool :=
  s.columns.isEmpty && s.accessesOver && (s.cmds.all fun c => c.st != .started || (c.kind == 5 && c.taken))
    && (s.linkRx.all fun r => r.queue.isEmpty) && s.hostReqs.isEmpty && s.flip.isNone && s.heldHost.isEmpty && s.heldRecs.isEmpty
/-- Every dirty line is written to its home memory: those of the L1s, then those of the L2; lines of host memory return to the host. -/
def State.cleanAll (s : State) : State :=
  let s := s.l1.foldl State.writeBackL1 s
  let clean (l : L1Line) : L1Line := { l with dirty := 0 }
  let s : State := { s with l1 := s.l1.map clean }
  (s.l2.filter fun (l : L2Line) => l.dirty).foldl (fun s l =>
    match l.place with
    | .host _ => s.evictL2 l.key
    | p => { s with mems := s.mems.write p (lineBytes l.data) }.modL2 l.key fun l => { l with dirty := false }) s

/-- A write of QCTL, which reads back what it wrote (R384, R410): bit 0 starts a quiesce, nothing being placed, formed or started any more;
bit 1 ends one after phase 3, and the saved columns are placed again. A bit that finds nothing to start or to end does nothing (log 147). -/
def State.writeQctl (s : State) (v : BitVec 64) : State :=
  let t : State := { s with mgmt := { s.mgmt with qctl := v &&& 3 } }
  if s.recovery then s
  else if v.getLsbD 0 && !s.quiesce.running then { t with quiesce := { s.quiesce with running := true, phase := 0 } }
  else if v.getLsbD 1 && s.quiesce.running && s.quiesce.phase == 3 then
    { t with quiesce := { running := false, phase := 0, reported := [], ended := 0 } }
  else t

/-- QUIESCE_START (R384): A write of 1 to QCTL[0] starts a quiesce: nothing is placed, formed or started any more. -/
def execQuiesceStart (s : State) : Out := .next (s.writeQctl 1)

/-- QUIESCE_PHASE1_DONE (R384): With the accesses in flight complete, phase 1 is reported to every peer; with the peers' reports and the
collectives complete, phase 2 ends; and, every column saved and every link idle, phase 3 writes back the caches and ends. -/
def execQuiescePhase1Done (s : State) : Out :=
  if !s.quiesce.running then .next s
  else if s.quiesce.phase = 0 then
    let s := s.parkBehind fun _ => true
    if !s.accessesOver then .next s
    else
      let s := s.peers.foldl (fun s p => s.toPeer p 0 (.phase1 s.chip)) s
      .next { s with quiesce := { s.quiesce with phase := 1 } }.toPhase3
  else if s.quiesce.phase = 1 then .next s.toPhase3
  else if s.quiesce.phase = 2 ∧ s.phase3Over then
    let s := s.cleanAll
    .next { s with quiesce := { s.quiesce with phase := 3, ended := s.time } }
  else .next s

/-- A peer's report of phase 1 is noted; the last starts phase 3. -/
def State.peerReport (s : State) (chip : Nat) : State :=
  { s with quiesce := { s.quiesce with reported := chip :: s.quiesce.reported.filter (· != chip) } }.toPhase3

/-- PEER_PHASE1 (R384): A peer's phase-1 report arrives. -/
def execPeerPhase1 (chip : Nat) (s : State) : Out := .next (s.peerReport chip)

/-- QUIESCE_END (R384): A write of 1 to QCTL[1] ends a quiesce after phase 3; the saved columns are placed again. -/
def execQuiesceEnd (s : State) : Out := .next (s.writeQctl 2)

/-! ## The state image (R385, R386) -/

/-- A section: its type, its index, its contents. -/
abbrev Section := Nat × Nat × List Byte

/-- The bytes of a section: header, contents, padding to 64 (R385). -/
def sectionBytes (x : Section) : List Byte :=
  let n := 16 + x.2.2.length
  leBytes 16 (packFields [(x.1, 8), (x.2.1, 8), (0, 48), (x.2.2.length, 64)]) ++ x.2.2 ++ List.replicate ((n + 63) / 64 * 64 - n) 0

/-- A freeze entry's 16 bytes (R346). -/
def Freeze.bytes (f : Freeze) : List Byte :=
  leBytes 16 (packFields [(f.vpn, 45), (0, 3), (f.asid, 16), (f.pages, 21), (f.id, 8), (f.count, 16), (f.st.code, 3), (f.origin, 8), (0, 8)])
/-- A freeze from its entry: a mark in every slice once it is active (R347). -/
def freezeOf (bs : List Byte) : Freeze :=
  let f := fieldAt bs 0
  let st := FrzState.ofCode (f 109 3)
  { id := f 85 8, asid := f 48 16, vpn := f 0 45, pages := f 64 21, count := f 93 16, st := st, origin := f 112 8, acks := [],
    marked := if st = .freezing then [] else List.range 288, dropped := false, waiters := [] }

/-- A context table's contents: the contexts, the software-managed regions, the fault records, REFAULT of resolved ones. -/
def ctxTableCodec : Codec (List (Nat × Ctx) × List SwmRegion × List FaultRec × List (ColId × Nat × Nat)) :=
  (Codec.nat.pair ctxCodec).list.pair (swmRegionCodec.list.pair (faultRecCodec.list.pair (colIdCodec.pair (Codec.nat.pair .nat)).list))
/-- The launches' contents: launches, the next acceptance number and the next id, submitted blocks, the fixed-order log, the saved columns but for their
records, what stands of their accesses. -/
def launchesCodec : Codec (List Launch × (Nat × Nat) × List Submitted × List OrdEntry × List SavedCol × List Acc) :=
  launchCodec.list.pair ((Codec.nat.pair .nat).pair (submittedCodec.list.pair (ordEntryCodec.list.pair (savedColCodec.list.pair accCodec.list))))
/-- The engines' contents: code-table slots by core, the collective engine, the migration engine. -/
def enginesCodec : Codec (List (List CodeTable) × (List Cmd × List Contribution × List (Nat × Nat)) ×
    Option Migration × List ((Nat × Nat) × Nat) × List (Nat × Nat)) :=
  codeTableCodec.list.list.pair ((cmdCodec.list.pair (contributionCodec.list.pair (Codec.nat.pair .nat).list)).pair
    (migrationCodec.opt.pair (((Codec.nat.pair .nat).pair .nat).list.pair (Codec.nat.pair .nat).list)))
/-- The clock requests' contents: each launch's request, the configured cap. -/
def clocksCodec : Codec (List (Nat × Word) × Nat) := (Codec.nat.pair (Codec.bv 32)).list.pair .nat

/-- The 4 KiB frames of LPDDR-5X that hold a byte that is not the empty one, as (address, length). -/
def State.rangesInUse (s : State) : List (Nat × Nat) :=
  (s.mems.lpddr.foldr (fun c l => if l.any (·.1 == c.1 / 4096 * 4096) then l else (c.1 / 4096 * 4096, 4096) :: l) [])

/-- The record of a saved column, wherever it lies; nothing where its slot cannot be read. -/
def State.savedBytes (s : State) (c : SavedCol) : List Byte := match s.recordOf? c with | .ok r => r | .error _ => []

/-- The sections of the state image but for the signature, in ascending type and index; none holds the number of a core or a controller,
which a column gets anew where it is placed (R385). -/
def State.sections (s : State) : List Section :=
  let ctxs := (List.range 256).filterMap fun k =>
    if (s.ctxAt k).exist then some (k, { s.ctxAt k with hotCount := List.replicate 32 0 }) else none
  let accs := s.accs.map fun a => { a with core := 0 }
  let cmds := s.cmds.map fun c => { c with core := 0 }
  let biasByte (i : Nat) : Byte := BitVec.ofNat 8 (bitSet ((List.range 8).filter fun j => s.bias.contains (8 * i + j)))
  [(1, 0, ctxTableCodec.bytes (ctxs, s.swm, s.faults, s.refaulted)),
   (2, 0, launchesCodec.bytes (s.launches, (s.nextLaunch, s.nextId), s.submitted, s.ordLog, s.saved.map (fun c => { c with record := [] }), accs))]
  ++ (s.saved.zipIdx.map fun c => (3, c.2, s.savedBytes c.1))
  ++ [(4, 0, enginesCodec.bytes (s.cores.map (·.tables), (cmds, s.collect, s.collSeq), s.migration, s.migCount, s.promoted)),
      (5, 0, (s.freezes.filter (·.origin == s.chip)).flatMap Freeze.bytes),
      (6, 0, shadowCodec.list.bytes s.shadows),
      (7, 0, (List.range (2 ^ 26)).map biasByte)]
  ++ ((List.range 6).map fun d => (8, d, Cells.gets s.mems.wstore (d * Config.weightBytes) Config.weightBytes))
  ++ [(9, 0, clocksCodec.bytes (s.launches.map (fun l => (l.seq, l.clkreq)), s.exch.pwrcap)),
      (10, 0, s.rangesInUse.flatMap fun r => leBytes 8 r.1 ++ leBytes 8 r.2)]

/-- Features available (R45). -/
def featuresAvailable : Nat := (Config.present &&& ~~~Config.masked).toNat

/-- The 128-byte header of an image (R385). -/
def State.imageHeader (s : State) (nsec length : Nat) (signed : Bool) : List Byte :=
  leBytes 128 (packFields [(0x494D4C4C, 32), (1, 16), (2, 8), (4, 8), (featuresAvailable, 64), (s.quiesce.ended, 64), (s.exch.seq.toNat, 16),
    (s.chip, 8), (nsec, 16), (signed.toNat, 1), (0, 23), (length, 64), (0, 704)])

/-- The state image; signed when the operator's configuration requires signatures (R385, R386). -/
def State.image (s : State) : List Byte :=
  let secs := s.sections
  let body := secs.flatMap sectionBytes
  let signed := Config.signatureRequired
  let sigLen := if signed then 128 else 0
  let front := s.imageHeader (secs.length + signed.toNat) (128 + body.length + sigLen) signed ++ body
  if signed then front ++ sectionBytes (15, 0, slice Config.identityKey 0 32 ++ slice (Config.sign front) 0 64) else front

/-- IMGCMD (R385): After phase 3, the state image is written to a 4 KiB-aligned buffer of the system context. -/
def execImgcmd (v : BitVec 64) (s : State) : Out :=
  if s.recovery || !s.quiesce.running || s.quiesce.phase != 3 || v.toNat % 4096 != 0 then .next s
  else
    match s.vaWrite 0 v.toNat s.image { shd := true } with
    | .error (.absent pa) => .fault (.noSuchMemory pa)
    | .error .held => .next (s.holdEvent (.image v))
    | .error _ => .next s
    | .ok s => .next s

/-! ## Restoring an image (R387) -/

/-- The sections from byte `pos` on, `fuel` at most; none unless they end with the image. -/
def parseSections (img : List Byte) : Nat → Nat → Option (List Section)
  | 0, pos => if pos = img.length then some [] else none
  | fuel + 1, pos =>
    if img.length ≤ pos then (if pos = img.length then some [] else none)
    else
      let n := numAt img (pos + 8) 8
      match parseSections img fuel ((pos + 16 + n + 63) / 64 * 64) with
      | none => none
      | some rest => some ((numAt img pos 1, numAt img (pos + 1) 1, slice img (pos + 16) n) :: rest)

/-- The signature section is good, or absent where none is required (R387). -/
def signatureOk (img : List Byte) (secs : List Section) (signed : Bool) : Bool :=
  match secs.getLast? with
  | some (15, _, sig) => signed && Config.verify (sig.take 32) (img.take (img.length - 128)) (slice sig 32 64)
  | _ => !signed && !Config.signatureRequired

/-- Section contents of a type. -/
def ofType (secs : List Section) (t : Nat) : List (List Byte) := (secs.filter (·.1 == t)).map (·.2.2)
/-- The contents of the one section of a type. -/
def onlyOf (secs : List Section) (t : Nat) : List Byte := (ofType secs t).headD []

/-- Wake bit 15 of every teller of a record (R387 step 5). -/
def wakeRecord (r : List Byte) : List Byte :=
  (recordStages r).foldl (fun r x =>
    let at_ := fieldAt r x.2 1024 64 + 331
    patch r at_ [(r.getD at_ 0) ||| 0x80]) r

/-- The machine with an image's sections loaded (R387); none when a check fails. -/
def State.restored (s : State) (img : List Byte) : Option State :=
  let signed := fieldAt img 0 232 1 == 1
  let need := numAt img 8 8
  if numAt img 0 4 ≠ 0x494D4C4C ∨ numAt img 4 2 ≠ 1 ∨ numAt img 7 1 ≠ 4 ∨ 2 < numAt img 6 1 then none
  else if (List.range 64).any fun b => need.testBit b && !(decide (b < 8) && Config.available b) then none
  else
    match parseSections img (2 ^ 16) 128 with
    | none => none
    | some secs =>
      if secs.length ≠ fieldAt img 0 216 16 ∨ !signatureOk img secs signed then none
      else
        match ctxTableCodec.ofBytes (onlyOf secs 1), launchesCodec.ofBytes (onlyOf secs 2), enginesCodec.ofBytes (onlyOf secs 4),
          shadowCodec.list.ofBytes (onlyOf secs 6), clocksCodec.ofBytes (onlyOf secs 9) with
        | some (ctxs, swm, faults, refaulted), some (launches, next, sub, ord, saved, accs), some (tables, (cmds, coll, seqs), mig, count, prom),
          some shadows, some (reqs, cap) =>
          let records := ofType secs 3
          if records.length ≠ saved.length ∨ !((saved.zip records).all fun x => recordOk x.1.sealed x.2) then none
          else
            let saved := (saved.zip records).map fun x => { x.1 with record := if x.1.slot.isSome then [] else wakeRecord x.2 }
            let bias := (onlyOf secs 7).zipIdx.flatMap fun b => ((List.range 8).filter fun j => b.1.getLsbD j).map fun j => 8 * b.2 + j
            let ctxTable := (List.range 256).map fun k =>
              match ctxs.find? (·.1 == k) with | some x => x.2 | none => Ctx.none
            let mems := (secs.filter (·.1 == 8)).foldl (fun (m : Mems) x => m.write (.wstore (x.2.1 * Config.weightBytes)) x.2.2) s.mems
            let launches := launches.map fun l => { l with clkreq := match reqs.find? (·.1 == l.seq) with | some r => r.2 | none => l.clkreq }
            some { s with
              ctxs := ctxTable, swm := swm, faults := faults, refaulted := refaulted, launches := launches, nextLaunch := next.1, submitted := sub, ordLog := ord,
              saved := saved, accs := accs, cores := (s.cores.zip tables).map (fun x => { x.1 with tables := x.2 }), cmds := cmds,
              collect := coll, collSeq := seqs, migration := mig, migCount := count, promoted := prom,
              freezes := (chunks 16 ((onlyOf secs 5).length / 16) (onlyOf secs 5)).map freezeOf, shadows := shadows, bias := bias,
              nextId := max s.nextId next.2, mems := mems, time := max s.time (numAt img 16 8 + 1),
              exch := { s.exch with seq := BitVec.ofNat 16 (fieldAt img 0 192 16) + 1, pwrcap := cap, trigger := true } }
        | _, _, _, _, _ => none

/-- The wake bits of the tellers saved in slots (R387 step 5). -/
def State.wakeSlots (s : State) : State :=
  s.saved.foldl (fun s c =>
    match c.slot with
    | none => s
    | some _ => match s.recordOf? c with
      | .error _ => s
      | .ok r => (recordStages r).foldl (fun s x =>
          let at_ := fieldAt r x.2 1024 64 + 331
          match s.recordAt c at_ 1 with
          | .ok [b] => s.putBytes c.ctx (s.slotAddr c.ctx (c.slot.getD 0) + at_) [b ||| 0x80] false
          | _ => s) s) s

/-- RESTORE (R387): On a quiesced device that has no context but the system's, an image that passes every check is loaded. -/
def execRestore (v : BitVec 64) (s : State) : Out :=
  let bare := !(s.ctxs.drop 1).any (·.exist)
  if s.recovery || !s.quiesce.running || s.quiesce.phase != 3 || !bare then .next s
  else
    match s.vaRead 0 v.toNat 128 { shd := true } with
    | .error (.absent pa) => .fault (.noSuchMemory pa)
    | .error .held => .next (s.holdEvent (.restore v))
    | .error _ => .next s
    | .ok (h, _) =>
      match s.vaRead 0 v.toNat (numAt h 32 8) { shd := true } with
      | .error (.absent pa) => .fault (.noSuchMemory pa)
      | .error .held => .next (s.holdEvent (.restore v))
      | .error _ => .next s
      | .ok (img, _) => .next (match s.restored img with | some s => s.wakeSlots | none => s)

end Sys2Proof.Machine
end

