-- ==== Sys2Proof/Machine/Contexts.lean ====
section
/-! DEFINITION. Contexts and the function-level reset: 23_host_pod R409, R411; 17_coherence R350; 22_retire_debug R395. -/

namespace Sys2Proof.Machine

/-! ## CTXCMD (R411) -/

/-- CTX of a command. -/
def cmdCtx (v : BitVec 64) : Nat := (v.extractLsb' 2 8).toNat
/-- ASID of a command. -/
def cmdAsid (v : BitVec 64) : Nat := (v.extractLsb' 10 16).toNat
/-- The root frame that CTXROOT names. -/
def Mgmt.rootFrame (m : Mgmt) : Nat := (m.ctxroot.extractLsb' 12 40).toNat

/-- The ERR of a create, 0 when it is done: a bad command, then the context, which exists until the last of its launches has its record
(R395, log 143), ASID 0, the ASID's use, the frame. -/
def State.createErr (s : State) (v : BitVec 64) : Nat :=
  if v.extractLsb' 28 36 != 0 || v.extractLsb' 1 1 != 0 then 7
  else if (s.ctxAt (cmdCtx v)).exist || s.launches.any (·.ctx == cmdCtx v) then 1
  else if cmdAsid v = 0 then 3
  else if (s.ctxOfAsid? (cmdAsid v)).isSome then 2
  else if Config.lpddrBytes < (s.mgmt.rootFrame + 1) * 4096 then 5
  else 0
/-- The ERR of a destroy, 0 when it is done. -/
def State.destroyErr (s : State) (v : BitVec 64) : Nat :=
  if v.extractLsb' 28 36 != 0 || v.extractLsb' 1 1 != 0 then 7
  else if cmdCtx v = 0 then 6
  else if !(s.ctxAt (cmdCtx v)).exist then 4
  else 0
/-- A command is done or refused. -/
def State.ctxOutcome (s : State) (err : Nat) : State :=
  { s with mgmt := { s.mgmt with ctxErr := err, ctxDone := s.mgmt.ctxDone + 1 } }

/-- CTX_CREATE (R411): A write to CTXCMD with OP 00 creates a context with its ASID and root table, or is refused; the registers of the new
context stand at their reset values. -/
def execCtxCreate (v : BitVec 64) (s : State) : Out :=
  if s.mgmt.ctxBusy.isSome || s.recovery || v.getLsbD 0 then .next s
  else
    match s.createErr v with
    | 0 =>
      let new : Ctx := { Ctx.none with exist := true, asid := cmdAsid v, root := s.mgmt.rootFrame * 4096, mig := v.getLsbD 26, debug := v.getLsbD 27 }
      .next (s.modCtx (cmdCtx v) (fun _ => new) |>.ctxOutcome 0)
    | e => .next (s.ctxOutcome e)

/-- Every freeze of an ASID is to be thawed (R350, R411). -/
def State.thawAll (s : State) (asid : Nat) : State :=
  (s.freezes.filter fun f => f.asid == asid && f.active).foldl (fun s f => s.lowerCount f true)
    { s with frzReqs := s.frzReqs.filter (·.asid != asid) }

/-- The work of a context leaves the device: groups, columns, saved columns, accesses, commands, records, queues (R411). -/
def State.removeWork (s : State) (ctx : Nat) : State :=
  let mine (c : ColId) : Bool := match s.launch? c.launch with | some l => l.ctx == ctx | none => false
  let untrace (k : Core) : Core := { k with traceQ := k.traceQ.filter (·.1 != ctx), brkstop := k.brkstop.filter (· != some ctx),
                                            brkPass := k.brkPass.filter fun p => !mine p.1.column }
  { s with groups := s.groups.filter (·.ctx != ctx), columns := s.columns.filter (·.ctx != ctx), saved := s.saved.filter (·.ctx != ctx),
           accs := s.accs.filter (·.ctx != ctx), cmds := s.cmds.filter (·.ctx != ctx), faults := s.faults.filter (·.ctx != ctx),
           held := s.held.filter (fun h => !mine h.owner.column), routes := s.routes.filter (fun r => !mine r.gid.column),
           submitted := s.submitted.filter (·.ctx != ctx), shadows := s.shadows.filter (·.ctx != ctx), swm := s.swm.filter (·.ctx != ctx),
           migCount := s.migCount.filter (·.1.1 != ctx), promoted := s.promoted.filter (·.1 != ctx), cores := s.cores.map untrace,
           issue := s.issue.filter (fun i => match i with | .teller g => !mine g.column | .bundle _ _ _ _ => true),
           exch := { s.exch with trigger := true } }

/-- The software-managed regions of a context return to the directory: no leaf of them keeps SWM (R344 step 4, R411). -/
def State.returnRegions (s : State) (ctx : Nat) : State :=
  (s.swm.filter (·.ctx == ctx)).foldl (fun s r => s.setSwm ctx r.base false) s

/-- Ends a context (R411): its regions return to the directory, its work is removed, its freezes thaw, its migration is given up, its
ASID is swept, and each pending launch is to get a record with FKIND 4. It is gone once those records are written (R395). -/
def State.endCtx (s : State) (ctx : Nat) : State :=
  let asid := (s.ctxAt ctx).asid
  let s := match s.migration with | some m => if m.ctx = ctx then s.abandonMigration else s | none => s
  let s := ((s.returnRegions ctx).removeWork ctx).thawAll asid
  let s := s.dropLines fun k _ _ => k.asid == some asid
  let recOf (r : HeldRec) : Bool := match r with
    | .ring c _ _ => c == ctx
    | .log n _ _ => match s.launch? n with | some l => l.ctx == ctx | none => true
    | .write c _ _ _ => c == ctx
    | .event (.ptseq c _) | .event (.swm c) | .event (.resume c _) | .event (.migrate c _) => c == ctx
    | .frame _ _ | .event (.comm _) | .event (.image _) | .event (.restore _) => false
  let s := { s with tlb := s.tlb.filter fun t => t.asid != some asid, walks := s.walks.filter fun w => w.asid != asid,
                    codeReqs := s.codeReqs.filter fun q => q.ctx != ctx, heldRecs := s.heldRecs.filter fun r => !recOf r,
                    hostReqs := s.hostReqs.filter fun r => r.key.asid != some asid }
  let end_ (l : Launch) : Launch := if l.ctx = ctx then { l with ended := true, waits := [] } else l
  let close (c : Ctx) : Ctx := { c with exist := false, sweeps := [], swmBusy := none, slots := [] }
  { s with launches := s.launches.map end_ }.modCtx ctx close

/-- CTX_DESTROY (R411): A write to CTXCMD with OP 01 ends a context, or is refused. -/
def execCtxDestroy (v : BitVec 64) (s : State) : Out :=
  if s.mgmt.ctxBusy.isSome || s.recovery || !(v.getLsbD 0) then .next s
  else
    match s.destroyErr v with
    | 0 => .next (({ s with mgmt := { s.mgmt with ctxBusy := some (cmdCtx v) } }.endCtx (cmdCtx v)).ctxGone (cmdCtx v))
    | e => .next (s.ctxOutcome e)

/-! ## Function-level reset (R409) -/

/-- FUNCTION_LEVEL_RESET (R409): Every context ends as CTXCMD destroy ends one, the system context coming back empty; every cache line is
dropped, the freeze mirror and the bias table are cleared. LPDDR-5X and the weight store keep their contents. -/
def execFunctionLevelReset (s : State) : Out :=
  if s.recovery then .next s
  else
    let ids := (List.range 256).filter fun k => (s.ctxAt k).exist
    let s := ids.foldl State.endCtx s
    let s := { s with l1 := [], l2 := [], code := [], tlb := [], freezes := [], frzReqs := [], thawReqs := [], bias := [], flips := [], flip := none,
                      bridge := [], hostReqs := [], walks := [], codeReqs := [], heldHost := [], heldRecs := [] }
    .next (ids.foldl State.ctxGone s)

end Sys2Proof.Machine
end

