-- ==== Sys2Proof/Machine/Debug.lean ====
section
/-! DEFINITION. Debug stops and dumps, the stall counters, the counting house: 22_retire_debug R399 to R401, R405 to R407. -/

namespace Sys2Proof.Machine

/-! ## Stopping a core (R399, R400) -/

/-- A write of DBGCTL counts: it names a core, and comes through BAR0, no page, or from the control page of a context with debug rights
(R399). -/
def State.mayDebug (s : State) (page : Option Nat) (core : Nat) : Bool :=
  decide (core < Config.cores) && !s.recovery &&
    (match page with | none => true | some ctx => (s.ctxAt ctx).exist && (s.ctxAt ctx).debug)
/-- CORE of a value written to DBGCTL (R399). -/
def dbgCore (v : BitVec 64) : Nat := (v.extractLsb' 0 8).toNat
/-- BRKSTOP of a value written to DBGCTL (R399). -/
def dbgBrk (v : BitVec 64) : Bool := v.getLsbD 10
/-- BRKSTOP as a write through a page leaves it (log 145). -/
def Core.setBrk (k : Core) (page : Option Nat) (b : Bool) : Core :=
  let rest := k.brkstop.filter (· != page)
  { k with brkstop := if b then page :: rest else rest }

/-- DBG_STOP (R400): Stop a core at its next bundle slot. -/
def execDbgStop (page : Option Nat) (core : Nat) (brkstop : Bool) (s : State) : Out :=
  .next (if s.mayDebug page core then s.modCore core fun k => { k.setBrk page brkstop with stopAsked := true, stepsLeft := none } else s)

/-- DBG_RUN (R400): Let a stopped core run. -/
def execDbgRun (page : Option Nat) (core : Nat) (brkstop : Bool) (s : State) : Out :=
  .next (if s.mayDebug page core then
    s.modCore core fun k => { k.setBrk page brkstop with stopped := false, stopAsked := false, stepsLeft := none } else s)

/-- DBG_STEP (R400): Run a core for STEPS vector cycles; STEPS is 1 to 65,535, and a write with 0 does nothing. -/
def execDbgStep (page : Option Nat) (core steps : Nat) (brkstop : Bool) (s : State) : Out :=
  let n := steps % 65536
  .next (if s.mayDebug page core && n != 0 then
    s.modCore core fun k => { k.setBrk page brkstop with stopped := false, stopAsked := false, stepsLeft := some n } else s)

/-- DBG_STEP_EXPIRE (R400): The STEPS count ends and the core stops at its next bundle slot. -/
def execDbgStepExpire (core : Nat) (s : State) : Out :=
  .next (s.modCore core fun k => if k.stepsLeft = some 0 then { k with stopAsked := true, stepsLeft := none } else k)

/-! ## Dumps (R401) -/

/-- The groups of a core that a dump lists, the oldest first: of BAR0 all of them, of a context's page its own (R399). -/
def State.dumpGroups (s : State) (page : Option Nat) (core : Nat) : List Group :=
  let insert (g : Group) (gs : List Group) : List Group := gs.takeWhile (fun x => x.id.older g.id) ++ g :: gs.dropWhile (fun x => x.id.older g.id)
  (s.groups.filter fun g => g.core == core && page.all (· == g.ctx)).foldl (fun gs g => insert g gs) []

/-- An entry of a dump. -/
def dumpEntry (kind grp tid strand gpr producer remain pc : Nat) : List Byte :=
  leBytes 16 (packFields [(kind, 4), (grp, 3), (tid, 9), (strand, 4), (gpr, 6), (producer, 4), (0, 2), (remain, 32), (pc, 64)])
/-- REMAIN when the latency is variable. -/
def variableRemain : Nat := 0xFFFFFFFF

/-- The entries of one strand: a register it waits for, its accumulator's pending writes, its lend. -/
def State.strandEntries (s : State) (core grp : Nat) (l : Lane) : List (List Byte) :=
  let n := l.st.n
  let cyc := s.cycle core
  let r := s.runner core l
  let waits : List (List Byte) := match r.use.read with
    | some g =>
      if l.st.state != .finished && r.held.contains .absent && !(l.t.greg g).p then [dumpEntry 1 grp l.tid n g (l.t.greg g).w variableRemain 0] else []
    | none => []
  let loads : List (List Byte) := match l.st.varPend with
    | some b =>
      let pc := match s.accs.find? fun a => a.bundle == b && a.gid == l.gid && a.tid == l.tid && a.n == n with | some a => a.pc.toNat | none => 0
      [dumpEntry 2 grp l.tid n 0 n variableRemain pc]
    | none => []
  let flight := l.st.pend.map fun p =>
    if p.var then dumpEntry 2 grp l.tid n 0 n variableRemain p.pc.toNat else dumpEntry 3 grp l.tid n 0 n (p.due - cyc) p.pc.toNat
  waits ++ loads ++ flight ++ (if l.st.own == .strand then [] else [dumpEntry 4 grp l.tid n 0 n variableRemain 0])

/-- The entries of one thread: its `put`s on their way, then those of its strands, of which a finished one may still have writes pending
or its accumulator lent. -/
def State.threadEntries (s : State) (core grp : Nat) (g : Group) (t : Thread) : List (List Byte) :=
  let cyc := s.cycle core
  let puts := t.gregs.zipIdx.filterMap fun r =>
    if cyc < r.1.visible then some (dumpEntry 0 grp t.tid 0 r.2 r.1.w (r.1.visible - cyc) r.1.pc.toNat) else none
  puts ++ t.strands.flatMap fun st =>
    s.strandEntries core grp { gid := g.id, tid := t.tid, g := g, t := t, st := st }

/-- The save records of a dump, one for each column in the order of age; REASON of a column that is not stopping is free (log 5). -/
def State.dumpRecords (s : State) : List ColId → List Byte × State
  | [] => ([], s)
  | c :: rest =>
    let (w, s) := s.drawWord
    let here := match s.column? c with
      | some col =>
        (match col.stop with
          | some st => s.recordPart col st.reason.code st.trap st.trapSeq st.cmd
          | none => s.recordPart col (w.toNat % 8) none 0 none).bytes
      | none => []
    let r := s.dumpRecords rest
    (here ++ r.1, r.2)

/-- DBG_DUMP (R401): A dump of a stopped core: the header, a record for each resident column, the pending register writes, which waits for
pages whose requests are held, DUMPBUSY being set; ignored while the core runs, but for BRKSTOP. -/
def execDbgDump (page : Option Nat) (v : BitVec 64) (s : State) : Out :=
  let core := dbgCore v
  let brkstop := dbgBrk v
  if !s.mayDebug page core then .next s
  else if !(s.coreAt core).stopped then .next (s.modCore core fun k => k.setBrk page brkstop)
  else
    let s := s.modCore core fun k => k.setBrk page brkstop
    let gs := s.dumpGroups page core
    let cols := gs.foldl (fun (cs : List ColId) g => if cs.contains g.id.column then cs else cs ++ [g.id.column]) []
    let entries := gs.zipIdx.flatMap fun g => (g.1.threads.filter fun t => !t.retired).flatMap fun t => s.threadEntries core g.2 g.1 t
    let (records, s) := s.dumpRecords cols
    let head := leBytes 64 (packFields [(core, 8), (gs.length, 8), (0, 16), (entries.length, 32), (s.time, 64)])
    let va := match page with | none => s.mgmt.dbgva | some ctx => (s.ctxAt ctx).dbgva
    s.putTable (page.getD 0) va.toNat (head ++ records ++ entries.flatten) true

/-! ## Counters (R405 to R407) -/

/-- PROFCLR (R405): A write of 1 to bit 0 clears every stall counter of every core. -/
def execProfclr (v : BitVec 64) (s : State) : Out :=
  let clear (k : Core) : Core := { k with hist := List.replicate 9 0, stall := List.replicate 13 0 }
  .next (if v.getLsbD 0 && !s.recovery then { s with cores := s.cores.map clear } else s)

/-- A counting-house register takes a value, and every counter is cleared (R406): 0 CHLAUNCH, 1 CHBASE, 2 CHSHIFT. -/
def State.chConfig (s : State) (reg : Nat) (v : BitVec 64) : State :=
  let m := { s.mgmt with chCount := [], chOutside := 0 }
  match reg with
  | 0 => { s with mgmt := { m with chlaunch := v } }
  | 1 => { s with mgmt := { m with chbase := v } }
  | 2 => { s with mgmt := { m with chshift := v } }
  | _ => s

/-- CH_CONFIG_WRITE (R406): Write CHLAUNCH, CHBASE or CHSHIFT and clear the houses' counters. -/
def execChConfigWrite (reg : Nat) (v : BitVec 64) (s : State) : Out := .next (if s.recovery then s else s.chConfig reg v)

/-- The aggregate table (R407): 4,096 buckets of 14 reasons, then OUTSIDE. -/
def Mgmt.houses (m : Mgmt) : List Byte :=
  let count (b r : Nat) : Nat := match m.chCount.find? (·.1 == (b, r)) with | some x => x.2 | none => 0
  ((List.range 4096).flatMap fun b => (List.range 14).flatMap fun r => leBytes 4 (count b r)) ++ leBytes 4 m.chOutside

/-- CHDUMP (R407): Write the aggregate counting-house table at a VA of the system context; one whose pages hold new requests waits for them
(R344, R353). -/
def execChdump (v : BitVec 64) (s : State) : Out :=
  if s.recovery then .next s else s.putTable 0 v.toNat s.mgmt.houses false

end Sys2Proof.Machine
end

