-- ==== Sys2Proof/Machine/Registers.lean ====
section
/-! DEFINITION. The management interface and the control pages as registers, rings as the host configures them, the MSI-X table:
23_host_pod R408 to R412, R414 to R416, R418; 22_retire_debug R399, R405; 10_memory R218, R221, R222; 17_coherence R343, R352. -/

namespace Sys2Proof.Machine

/-! ## Reading (R409, R410, R412) -/

/-- Bits of DBGSTAT (R399): the stopped cores, DUMPBUSY. -/
def State.dbgStat (s : State) : Nat :=
  bitSet ((List.range Config.cores).filter fun k => (s.coreAt k).stopped) + 2 ^ 240 * s.mgmt.dumpBusy.toNat
/-- IDENT (R410): the version of the running image, zero in recovery. -/
def State.ident (s : State) : Nat :=
  0x0480 + 2 ^ 32 * (match s.fw.running with | some img => Config.imageVersion img % 2 ^ 32 | none => 0)
/-- A launch is running on the device (R88). -/
def State.launchRuns (s : State) : Bool := !s.groups.isEmpty
/-- PWRTABLE as 16-bit entries (R89, R410). -/
def powerTable : List Byte := ([powerBase] ++ powerMat ++ powerVec ++ powerMem ++ powerNet).flatMap (leBytes 2)
/-- The core that PROFSEL names (R405). -/
def State.profCore (s : State) : Core := s.coreAt (s.mgmt.profsel.toNat % 256)
/-- The 32 bytes of a ring descriptor (R412). -/
def Ring.words (r : Ring) : List Nat := [r.base.toNat, r.log2n, packFields [(r.prod.toNat, 32), (r.cons.toNat, 32)], r.lost.toNat]

/-- Eight bytes read through the weight-store window: zero where WSADDR names die 6 or 7, or while a firmware image is received (R412). -/
def State.weightWindow (s : State) (off : Nat) : Nat :=
  if s.fw.image.isSome ∨ 6 * Config.weightBytes ≤ s.mgmt.wsaddr.toNat then 0
  else leNat (s.mems.read (.wstore (s.mgmt.wsaddr.toNat + off)) 8)

/-- The 8 bytes at an 8-byte-aligned offset of BAR0. A write-only register reads as zero (R5); in recovery all but IDENT, FWSTAT and the
window read zero (R418). PROFCLR, CHDUMP, COMMCFG and FWCTL, whose Access R410 shows as a dash, read zero too (DESIGN CHOICE, log 7). -/
def State.bar0Reg (s : State) (at_ : Nat) : Nat :=
  let m := s.mgmt
  if at_ = 0x000 then s.ident
  else if at_ = 0x348 then (packFields [(s.fw.step, 3), (s.fw.failed.toNat, 1)])
  else if 0xF0000 ≤ at_ ∧ at_ < 0x100000 ∧ s.fw.step ≠ 0 then (s.weightWindow (at_ - 0xF0000))
  else if s.recovery then 0
  else if at_ = 0x048 then m.qctl.toNat
  else if at_ = 0x008 then Config.present.toNat
  else if at_ = 0x010 then Config.masked.toNat
  else if at_ = 0x018 then m.chipid.toNat
  else if at_ = 0x028 then m.ctxroot.toNat
  else if at_ = 0x030 then (packFields [(m.ctxErr, 4), (m.ctxBusy.isSome.toNat, 1), (0, 27), (m.ctxDone.toNat, 32)])
  else if at_ = 0x038 then s.exch.pwrcap
  else if at_ = 0x040 then
    (packFields [(s.exch.overcap.toNat, 1), (s.exch.caperr.toNat, 1), ((decide (s.exch.thermal < s.exch.pwrcap)).toNat, 1), (0, 13),
      (s.exch.cap, 11)])
  else if at_ = 0x050 then (packFields [(s.quiesce.phase, 2), ((s.quiesce.running && !s.peersReported).toNat, 1)])
  else if at_ = 0x068 then m.biasva.toNat
  else if at_ = 0x078 then (packFields [(m.biasDone.toNat, 32), (m.biasErr, 4), (s.flipsQueued, 5)])
  else if at_ = 0x088 then m.dbgva.toNat
  else if 0x090 ≤ at_ ∧ at_ < 0x0B0 then (bits s.dbgStat (8 * (at_ - 0x090)) 64)
  else if at_ = 0x0B0 then m.profsel.toNat
  else if 0x0C0 ≤ at_ ∧ at_ < 0x108 then (s.profCore.hist.getD ((at_ - 0x0C0) / 8) 0)
  else if 0x108 ≤ at_ ∧ at_ < 0x170 then (s.profCore.stall.getD ((at_ - 0x108) / 8) 0)
  else if at_ = 0x170 then s.profCore.perturb
  else if at_ = 0x180 then m.chlaunch.toNat
  else if at_ = 0x188 then m.chbase.toNat
  else if at_ = 0x190 then m.chshift.toNat
  else if at_ = 0x200 then m.coord
  else if at_ = 0x218 then m.commlist.toNat
  else if at_ = 0x220 then (bitSet s.links)
  else if at_ = 0x228 then m.miglocal.toNat
  else if at_ = 0x230 then m.mighost.toNat
  else if at_ = 0x238 then m.wsaddr.toNat
  else if at_ = 0x240 then (packFields [(s.launchRuns.toNat, 1), (m.wsRefused.toNat, 1), (m.wsBadDie.toNat, 1)])
  else if 0x300 ≤ at_ ∧ at_ < 0x320 then (numAt m.attnonce (at_ - 0x300) 8)
  else if at_ = 0x320 then m.attva.toNat
  else if 0x400 ≤ at_ ∧ at_ < 0x470 then (m.telemetry.getD ((at_ - 0x400) / 8) 0).toNat
  else if 0x1000 ≤ at_ ∧ at_ < 0x1060 then (numAt powerTable (at_ - 0x1000) 8)
  else if 0x80000 ≤ at_ ∧ at_ < 0x88000 then
    let mask : Nat := if at_ % 16 = 8 && !m.msixOpen.contains ((at_ - 0x80000) / 16) then 2 ^ 32 else 0
    (leNat (Cells.gets m.msixTable at_ 8) + mask)
  else 0

/-- The 8 bytes at an 8-byte-aligned offset of a control page (R412). -/
def State.controlReg (s : State) (ctx at_ : Nat) : Nat :=
  let c := s.ctxAt ctx
  if s.recovery || !c.exist then 0
  else if at_ = 0x000 then c.swbase.toNat
  else if at_ = 0x010 then (packFields [(c.swDone.toNat, 32), (c.sweeps.length, 4), (c.swovf.toNat, 1)])
  else if at_ = 0x018 then c.ptseq.toNat
  else if at_ = 0x028 then c.hotcfg.toNat
  else if at_ = 0x030 then c.swmbase.toNat
  else if at_ = 0x038 then c.swmmask.toNat
  else if at_ = 0x048 then (packFields [(c.swmDone.toNat, 32), (c.swmErr, 4), (c.swmBusy.isSome.toNat, 1)])
  else if at_ = 0x050 then c.svbase.toNat
  else if at_ = 0x058 then c.svslots.toNat
  else if at_ = 0x068 then c.capbase.toNat
  else if at_ = 0x070 then c.capsize.toNat
  else if at_ = 0x078 then c.caplist.toNat
  else if at_ = 0x080 then c.replog.toNat
  else if at_ = 0x088 then c.trcctl.toNat
  else if at_ = 0x090 then c.vectors.toNat
  else if at_ = 0x0A8 then c.dbgva.toNat
  else if 0x0B0 ≤ at_ ∧ at_ < 0x0D0 then (bits s.dbgStat (8 * (at_ - 0x0B0)) 64)
  else if 0x100 ≤ at_ ∧ at_ < 0x180 then ((c.rings.getD ((at_ - 0x100) / 32) .reset).words.getD (at_ % 32 / 8) 0)
  else 0

/-- The 8 bytes at an 8-byte-aligned offset of a launch window (R74, R77). -/
def State.windowReg (s : State) (ctx at_ : Nat) : Nat :=
  let c := s.ctxAt ctx
  if s.recovery || !c.exist then 0
  else if at_ = 0x100 then c.csw + 2 ^ 32 * (s.launches.filter (·.ctx == ctx)).length
  else if at_ = 0x108 then c.lastDrop.toNat
  else if at_ = 0x110 then c.lastLost.toNat
  else 0

/-- What a host read of a register gives (R409): 4 or 8 bytes at a 4-byte-aligned offset, zero otherwise. -/
def State.readReg (s : State) (page : RegPage) (off size : Nat) : BitVec 64 :=
  if off % 4 ≠ 0 ∨ (size ≠ 4 ∧ size ≠ 8) then 0
  else
    let reg (at_ : Nat) : Nat := match page with
      | .bar0 => s.bar0Reg at_
      | .control ctx => s.controlReg ctx at_
      | .window ctx => s.windowReg ctx at_
    let word (o : Nat) : Nat := bits (reg (o / 8 * 8)) (8 * (o % 8)) 32
    BitVec.ofNat 64 (word off + (if size = 8 then 2 ^ 32 * word (off + 4) else 0))

/-! ## Rings (R412) -/

/-- A ring that has room again: records held for it, unwritten fault records, owed trap notices, kept trace records are written (R219, R370,
R403). -/
def State.ringRoom (s : State) (ctx ring : Nat) : State :=
  let s := s.releaseRecs
  if ring = ringFault then s.writeRecords ctx s.faults
  else if ring = ringTrap then
    let waiting := s.columns.filter fun c => c.ctx == ctx && (match c.stop with | some st => st.begun && s.drained c.id | none => false)
    let s := waiting.foldl (fun (s : State) c =>
      match c.stop with
      | some st => (match s.saveColumn c st with | .next t => t | _ => s)
      | none => s) s
    (s.saved.filter fun c => c.ctx == ctx && !c.owed.isEmpty && c.slot.isSome).foldl (fun (s : State) c => s.tellSaved c (c.slot.getD 0) c.owed) s
  else if ring = ringTrace then
    (List.range Config.cores).foldl (fun (s : State) k => if (s.coreAt k).traceQ.isEmpty then s else s.flushTrace k (s.coreAt k).traceQ) s
  else s

/-- One half of a 64-bit register replaced. -/
def setHalf (old : BitVec 64) (upper : Bool) (w : Word) : BitVec 64 :=
  if upper then w ++ old.extractLsb' 0 32 else old.extractLsb' 32 32 ++ w

/-- A write of one word of a ring descriptor, `k` its index: BASE and LOG2N set the indices to 0, CONS frees slots (R412). -/
def State.ringWord (s : State) (ctx ring k : Nat) (w : Word) : State :=
  match k with
  | 0 | 1 => (s.modRing ctx ring fun r => { r with base := setHalf r.base (k == 1) w, prod := 0, cons := 0, lost := 0 }).ringRoom ctx ring
  | 2 => (s.modRing ctx ring fun r => { r with log2n := w.toNat % 32, prod := 0, cons := 0, lost := 0 }).ringRoom ctx ring
  | 5 => (s.modRing ctx ring fun r => { r with cons := w }).ringRoom ctx ring
  | _ => s

/-! ## Writing (R409) -/

/-- A write of one word of the MSI-X table (R408): the mask bit of the last word of an entry, which sends a pending message when it is
cleared, or a byte of its address and data. -/
def State.msixWord (s : State) (off : Nat) (w : Word) : State :=
  let m := s.mgmt
  let v := (off - 0x80000) / 16
  if off % 16 = 12 then
    let others := m.msixOpen.filter (· != v)
    if w.getLsbD 0 then { s with mgmt := { m with msixOpen := others } }
    else
      let t : State := { s with mgmt := { m with msixOpen := v :: others, msixPend := m.msixPend.filter (· != v) } }
      if m.msixPend.contains v then t.send (.msix v) else t
  else { s with mgmt := { m with msixTable := Cells.sets m.msixTable off (wordBytes w) } }

/-- A write of one word of BAR0 to a register with no action of its own; `whole` when the write covers all of its register. Reserved bits
read as zero (R6). -/
def State.bar0Word (s : State) (off : Nat) (w : Word) (whole : Bool) : State :=
  let m := s.mgmt
  let hi := off % 8 == 4
  let at_ := off / 8 * 8
  if s.recovery then s
  else if at_ = 0x018 then { s with mgmt := { m with chipid := setHalf m.chipid hi w &&& 0xFF } }
  else if at_ = 0x028 then { s with mgmt := { m with ctxroot := setHalf m.ctxroot hi w &&& 0x000FFFFFFFFFF000 } }
  else if at_ = 0x038 then (if hi then s else s.setCap (w.toNat % 2 ^ 11))
  else if at_ = 0x040 then (if !hi && w.getLsbD 1 then { s with exch := { s.exch with caperr := false } } else s)
  else if at_ = 0x048 then (if whole && !hi then s.writeQctl (w.setWidth 64) else s)
  else if at_ = 0x068 then { s with mgmt := { m with biasva := setHalf m.biasva hi w } }
  else if at_ = 0x088 then { s with mgmt := { m with dbgva := setHalf m.dbgva hi w } }
  else if at_ = 0x0B0 then { s with mgmt := { m with profsel := setHalf m.profsel hi w &&& 0xFF } }
  else if at_ = 0x180 then s.chConfig 0 (setHalf m.chlaunch hi w)
  else if at_ = 0x188 then s.chConfig 1 (setHalf m.chbase hi w)
  else if at_ = 0x190 then s.chConfig 2 (setHalf m.chshift hi w)
  else if at_ = 0x200 then (if hi then s else { s with mgmt := { m with coord := w.toNat % 256 } })
  else if at_ = 0x218 then (if whole then { s with mgmt := { m with commlist := setHalf m.commlist hi w } } else s)
  else if at_ = 0x228 then { s with mgmt := { m with miglocal := setHalf m.miglocal hi w } }
  else if at_ = 0x230 then { s with mgmt := { m with mighost := setHalf m.mighost hi w } }
  else if at_ = 0x238 then { s with mgmt := { m with wsaddr := setHalf m.wsaddr hi w &&& 0x3FFFF0000 } }
  else if at_ = 0x240 then
    (if hi then s else { s with mgmt := { m with wsRefused := m.wsRefused && !w.getLsbD 1, wsBadDie := m.wsBadDie && !w.getLsbD 2 } })
  else if 0x300 ≤ at_ ∧ at_ < 0x320 then { s with mgmt := { m with attnonce := patch m.attnonce (off - 0x300) (wordBytes w) } }
  else if 0x80000 ≤ off ∧ off < 0x88000 then s.msixWord off w
  else s

/-- A write of one word of a control page to a register with no action of its own (R412). -/
def State.controlWord (s : State) (ctx off : Nat) (w : Word) : State :=
  let hi := off % 8 == 4
  let at_ := off / 8 * 8
  let set (f : Ctx → Ctx) : State := s.modCtx ctx f
  if s.recovery || !(s.ctxAt ctx).exist then s
  else if at_ = 0x000 then set fun c => { c with swbase := setHalf c.swbase hi w }
  else if at_ = 0x010 then (if hi && w.getLsbD 4 then set fun c => { c with swovf := false } else s)
  else if at_ = 0x028 then set fun c => { c with hotcfg := setHalf c.hotcfg hi w &&& 0x3F }
  else if at_ = 0x030 then set fun c => { c with swmbase := setHalf c.swmbase hi w }
  else if at_ = 0x038 then set fun c => { c with swmmask := setHalf c.swmmask hi w }
  else if at_ = 0x050 then set fun c => { c with svbase := setHalf c.svbase hi w }
  else if at_ = 0x058 then (if hi then s else set fun c => { c with svslots := w &&& 0x1FFF })
  else if at_ = 0x068 then set fun c => { c with capbase := setHalf c.capbase hi w }
  else if at_ = 0x070 then set fun c => { c with capsize := setHalf c.capsize hi w }
  else if at_ = 0x078 then set fun c => { c with caplist := setHalf c.caplist hi w }
  else if at_ = 0x080 then set fun c => { c with replog := setHalf c.replog hi w }
  else if at_ = 0x088 then set fun c => { c with trcctl := setHalf c.trcctl hi w &&& (if ctx = 0 then 3 else 1) }
  else if at_ = 0x090 then set fun c => { c with vectors := setHalf c.vectors hi w &&& 0x1FFFFFFFF }
  else if at_ = 0x0A8 then (if (s.ctxAt ctx).debug then set fun c => { c with dbgva := setHalf c.dbgva hi w } else s)
  else if 0x100 ≤ at_ ∧ at_ < 0x180 then s.ringWord ctx ((off - 0x100) / 32) (off % 32 / 4) w
  else s

/-- A host write of 4 or 8 bytes at a 4-byte-aligned offset of a page; any other is discarded (R409). -/
def State.writeReg (s : State) (page : RegPage) (off size : Nat) (v : BitVec 64) : State :=
  if off % 4 ≠ 0 ∨ (size ≠ 4 ∧ size ≠ 8) then s
  else
    let whole := size == 8 && off % 8 == 0
    let one (s : State) (o : Nat) (w : Word) : State := match page with
      | .bar0 => s.bar0Word o w whole
      | .control ctx => s.controlWord ctx o w
      | .window _ => s
    let s := one s off (v.extractLsb' 0 32)
    if size = 8 then one s (off + 4) (v.extractLsb' 32 32) else s

/-- REGISTER_WRITE (R409): A write to a register with no behaviour of its own; in a launch window, CSW and LASTDROP follow the window's own
rule of access (R74, R77). -/
def execRegisterWrite (page : RegPage) (off size : Nat) (v : BitVec 64) (s : State) : Out :=
  match page with
  | .window ctx => .next (if 0x100 ≤ off then s.windowWrite ctx off (leBytes size v.toNat) else s)
  | p => .next (s.writeReg p off size v)

/-- RING_CONFIG_WRITE (R412): A write to a ring's BASE or LOG2N sets its PROD, CONS and LOST to 0. -/
def execRingConfigWrite (ctx ring off size : Nat) (v : BitVec 64) (s : State) : Out :=
  .next (if ring < 4 ∧ off + size ≤ 16 then s.writeReg (.control ctx) (0x100 + 32 * ring + off) size v else s)

/-- RING_CONS_WRITE (R412): A host write to a ring's CONS frees slots; what waited for one is written. -/
def execRingConsWrite (ctx ring : Nat) (v : Word) (s : State) : Out :=
  .next (if ring < 4 then s.controlWord ctx (0x100 + 32 * ring + 20) v else s)

end Sys2Proof.Machine
end

