-- ==== Sys2Proof/Machine/Boot.lean ====
section
/-! DEFINITION. Weight-store writes of the host, firmware, attestation, cold reset and power loss: 10_memory R208, R210; 23_host_pod R412,
R418, R419. -/

namespace Sys2Proof.Machine

/-! ## The weight-store window (R210, R412, R419) -/

/-- Drops the lines of a weight-store range from every cache (R210). -/
def State.dropWeights (s : State) (pa n : Nat) : State :=
  let hit (p : Place) : Bool := match p with | .wstore a => decide (a / 128 * 128 < pa + n ∧ pa < a / 128 * 128 + 128) | _ => false
  let s := { s with code := s.code.filter fun l => !hit l.place }
  let s := (s.l1.filter fun l => hit l.place).foldl State.evictL1 s
  ((s.l2.filter fun l => hit l.place).map (·.key)).foldl State.evictL2 s

/-- WS_WINDOW_WRITE (R412): A host write through the weight-store window: to the staging buffer between the begin and the end of a firmware
image (R419), else to the weight store at WSADDR, unless a launch runs (R210) or WSADDR names die 6 or 7. -/
def execWsWindowWrite (off : Nat) (data : List Byte) (s : State) : Out :=
  let bs := data.take (65536 - off)
  if s.fw.step = 0 then .next s
  else if s.fw.image.isSome then .next { s with fw := { s.fw with staging := patch (slice s.fw.staging 0 65536) off bs } }
  else
    let pa := s.mgmt.wsaddr.toNat + off
    let bad : Bool := decide (6 * Config.weightBytes ≤ s.mgmt.wsaddr.toNat)
    if s.launchRuns || bad then
      .next { s with mgmt := { s.mgmt with wsRefused := s.mgmt.wsRefused || s.launchRuns, wsBadDie := s.mgmt.wsBadDie || bad } }
    else
      let s := s.dropWeights pa bs.length
      .next { s with mems := s.mems.write (.wstore pa) bs }

/-! ## Firmware (R418, R419) -/

/-- An image passes: at most 32 MiB, signed by the vendor, its version at least the rollback counter (R418). -/
def imageGood (img : List Byte) : Bool :=
  decide (img.length ≤ 2 ^ 25) && Config.verify Config.vendorKey (Config.sha512 img) (Config.imageSignature img)
    && decide (Config.rollbackCounter ≤ Config.imageVersion img)

/-- FW_BEGIN (R419): Begin receiving a firmware image; one still being received is discarded. -/
def execFwBegin (s : State) : Out := .next (if s.fw.step = 0 then s else { s with fw := { s.fw with image := some [] } })
/-- FW_APPEND (R419): Append the staged 64 KiB chunk. -/
def execFwAppend (s : State) : Out :=
  match s.fw.image with
  | none => .next s
  | some img => .next { s with fw := { s.fw with image := some (img ++ slice s.fw.staging 0 65536) } }
/-- FW_END (R419): Verify the image and write it to flash; a failed verification sets FWSTAT[3] and leaves the flash unchanged. -/
def execFwEnd (s : State) : Out :=
  match s.fw.image with
  | none => .next s
  | some img =>
    .next { s with fw := if imageGood img then { s.fw with image := none, flash := some img, writing := true }
                         else { s.fw with image := none, failed := true } }

/-- The 320 bytes of an attestation report (R419). -/
def State.report (s : State) : List Byte :=
  let running := match s.fw.running with | some img => img | none => []
  let body := leBytes 8 s.ident ++ leBytes 8 Config.present.toNat ++ leBytes 8 Config.masked.toNat ++ leBytes 8 s.chip ++
    slice (Config.sha512 running) 0 64 ++ slice Config.serial 0 16 ++ slice s.mgmt.attnonce 0 32 ++ slice Config.identityKey 0 32 ++
    List.replicate 80 (0 : Byte)
  body ++ slice (Config.sign body) 0 64

/-- ATTEST (R419): A write of a buffer VA to ATTVA writes a signed attestation report there, in the system context; one whose
pages hold new requests is written once they go on. -/
def execAttest (v : BitVec 64) (s : State) : Out :=
  if s.recovery then .next s
  else
    let s := { s with mgmt := { s.mgmt with attva := v } }
    s.putTable 0 v.toNat s.report false

/-! ## Cold reset and power (R418, R419) -/

/-- The machine without power: everything of its own is lost but the flash; what is outside it, and what outside agents will do, stays. -/
def State.unpowered (s : State) (flash : Option (List Byte)) : State :=
  { State.reset with
    agenda := s.agenda, freeN := s.freeN, time := s.time, timePhase := s.timePhase, slewed := s.slewed, slewBack := s.slewBack, cabled := s.cabled,
    ctxs := List.replicate 256 .none,
    mems := { Mems.empty with host := s.mems.host, remote := s.mems.remote }, peers := s.peers, remoteBad := s.remoteBad, out := s.out,
    fw := { step := 0, failed := false, image := none, staging := [], flash := flash, running := none,
            writing := false } }

/-- COLD_RESET (R418): The boot ROM verifies the image in flash: step 1, from which the module comes up; a failed check enters recovery, in
which no context exists. -/
def execColdReset (s : State) : Out :=
  let t := s.unpowered s.fw.flash
  match t.fw.flash with
  | some img =>
    if imageGood img then .next { t with fw := { t.fw with step := 1, running := some img } }
    else .next { t with fw := { t.fw with step := 7 } }
  | none => .next { t with fw := { t.fw with step := 7 } }

/-- The next step of bring-up (R418), one on each cycle of the reference clock (log 148): the unit map is loaded and memory trained, the host
link trained, the Nimbus links, as far as their other ends train too, and the system context is created. -/
def State.bringUp (s : State) : State :=
  let at_ (n : Nat) (t : State) : State := { t with fw := { t.fw with step := n } }
  match s.fw.step with
  | 1 => at_ 2 s
  | 2 => at_ 3 s
  | 3 => at_ 4 { s with links := s.cabled.filter (· < 24) }
  | 4 => at_ 5 { s with ctxs := State.reset.ctxs }
  | _ => s

/-- POWER_LOSS (R419): Module power is lost; a flash write in progress leaves no valid image for the next boot. -/
def execPowerLoss (s : State) : Out := .next (s.unpowered (if s.fw.writing then none else s.fw.flash))

end Sys2Proof.Machine
end

