-- ==== Sys2Proof/Machine/Convert.lean ====
section
/-! DEFINITION. The conversions: 08_arith R164 to R167, latencies R131. -/

namespace Sys2Proof.Machine

/-- CVT_F32_S32 (R164): Convert signed integer to FP32. -/
def execCvtF32S32 (f : EFields) (s : State) : Out := eLong 0x40#8 f 4 Arith.cvtF32S32 s

/-- CVT_F32_N32 (R164): Convert unsigned integer to FP32. -/
def execCvtF32N32 (f : EFields) (s : State) : Out := eLong 0x41#8 f 4 Arith.cvtF32N32 s

/-- CVT_S32_F32 (R165): Convert FP32 to s32, saturating. -/
def execCvtS32F32 (f : EFields) (s : State) : Out := eLong 0x42#8 f 4 Arith.cvtS32F32 s

/-- CVT_N32_F32 (R165): Convert FP32 to n32, saturating. -/
def execCvtN32F32 (f : EFields) (s : State) : Out := eLong 0x43#8 f 4 Arith.cvtN32F32 s

/-- CVT_F32_F16 (R164): Widen FP16 to FP32. -/
def execCvtF32F16 (f : EFields) (s : State) : Out := eLong 0x44#8 f 4 Arith.cvtF32F16 s

/-- CVT_F16_F32 (R164): Narrow FP32 to FP16. -/
def execCvtF16F32 (f : EFields) (s : State) : Out := eLong 0x45#8 f 4 Arith.cvtF16F32 s

/-- CVT_F32_BF16 (R164): Widen BF16 to FP32. -/
def execCvtF32Bf16 (f : EFields) (s : State) : Out := eLong 0x46#8 f 4 Arith.cvtF32Bf16 s

/-- CVT_BF16_F32 (R164): Narrow FP32 to BF16. -/
def execCvtBf16F32 (f : EFields) (s : State) : Out := eLong 0x47#8 f 4 Arith.cvtBf16F32 s

/-- CVT_F32_E4M3 (R164): Widen E4M3 to FP32. -/
def execCvtF32E4m3 (f : EFields) (s : State) : Out := eLong 0x48#8 f 4 Arith.cvtF32E4m3 s

/-- CVT_E4M3_F32 (R164): Narrow FP32 to E4M3. -/
def execCvtE4m3F32 (f : EFields) (s : State) : Out := eLong 0x49#8 f 4 Arith.cvtE4m3F32 s

/-- CVT_F32_E5M2 (R164): Widen E5M2 to FP32. -/
def execCvtF32E5m2 (f : EFields) (s : State) : Out := eLong 0x4A#8 f 4 Arith.cvtF32E5m2 s

/-- CVT_E5M2_F32 (R164): Narrow FP32 to E5M2. -/
def execCvtE5m2F32 (f : EFields) (s : State) : Out := eLong 0x4B#8 f 4 Arith.cvtE5m2F32 s

/-- CVT_F32_NF (R166): Decode a code of format register nfK to FP32. -/
def execCvtF32Nf (f : EFields) (s : State) : Out := eLong 0x4C#8 f 4 Arith.cvtF32Nf s

/-- CVT_NF_F32 (R166): Round FP32 to a code of nfK. -/
def execCvtNfF32 (f : EFields) (s : State) : Out := eLong 0x4D#8 f 4 Arith.cvtNfF32 s

/-- PACK4 (R167): Shift in one E2M1 code converted from B. -/
def execPack4 (f : EFields) (s : State) : Out := eLong 0x4E#8 f 4 Arith.pack4 s

/-- UNPK4 (R167): Unpack one E2M1 container of e[X] to FP32. -/
def execUnpk4 (f : EFields) (s : State) : Out := eLong 0x4F#8 f 4 Arith.unpk4 s

/-- S_CVT_F32_S32 (R100): Short cvt.f32.s32 of gN. -/
def execSCvtF32S32 (g : BitVec 6) (w : BitVec 3) (s : State) : Out :=
  elementwise (.short 0x31#6 g w) (shortG g w) 4 Arith.cvtF32S32 s

/-- S_CVT_S32_F32 (R100): Short cvt.s32.f32 of gN. -/
def execSCvtS32F32 (g : BitVec 6) (w : BitVec 3) (s : State) : Out :=
  elementwise (.short 0x32#6 g w) (shortG g w) 4 Arith.cvtS32F32 s

end Sys2Proof.Machine
end

