-- ==== Sys2Proof/Machine/CrewOps.lean ====
section
/-! DEFINITION. The crew instructions: 09_flow R187 to R190. -/

namespace Sys2Proof.Machine

/-- The thread on lane `i` of a thread's crew, when it takes part: a retired or finished one does not (R128, R187). -/
def mate (lanes : List Lane) (l : Lane) (i : Nat) : Option Lane :=
  lanes.find? fun m => m.gid == l.gid && m.tid == crewOf l.tid * 16 + i

/-- A crew instruction: each thread's results from all the threads of its crew as they stand at issue, those among them that take a
trap of their own (R116), 14 cycles later, after a window's occupancy (R131, R187). -/
def crewOp (fm : Form) (dst : Dst) (rule : List Lane → Lane → List (Nat × Word) × Flags) (s : State) : Out :=
  let crew := s.ready fm
  .next (s.issueWith fm noCause fun c lanes s =>
    lanes.foldl (fun s l =>
      let r := rule crew l
      s.pushPend l { due := landsAt c 14 dst, writes := r.1, flags := r.2, var := false, pc := l.st.pc }) s)

/-- A reduction over the 16 lanes, for each destination apart; `neutral` stands for a lane that takes no part (R190). -/
def crewReduce (op : BitVec 8) (f : EFields) (neutral : Word) (rule : List Word → Word × Flags) (s : State) : Out :=
  crewOp (.e op f) f.dst (fun lanes l =>
    let outs := f.dst.pairs.map fun dx =>
      (dx.1, rule ((List.range 16).map fun i => match mate lanes l i with | some m => m.operand f.g f.b dx.2 | none => neutral))
    (outs.map fun o => (o.1, o.2.1), outs.foldl (fun fl o => fl.or o.2.2) {})) s

/-- CMAX (R190): Crew maximum over the 16 lanes. -/
def execCmax (f : EFields) (s : State) : Out := crewReduce 0x5C#8 f negFltMax (fun w => (Arith.rowMax w, {})) s

/-- CSUM (R190): Crew tree sum over the 16 lanes. -/
def execCsum (f : EFields) (s : State) : Out := crewReduce 0x5D#8 f 0 Arith.rowSum s

/-- A fetch from the lane `src` names, from the reader's lane and its own B: none keeps the reader's element, and a lane that takes no
part supplies 0 (R188). -/
def crewFetch (op : BitVec 8) (f : EFields) (src : Nat → Word → Option Nat) (s : State) : Out :=
  crewOp (.e op f) f.dst (fun lanes l =>
    (f.dst.pairs.map fun dx =>
      (dx.1, match src (laneOf l.tid) (l.operand f.g f.b dx.2) with
        | none => l.st.elem dx.2
        | some i => match mate lanes l i with | some m => m.st.elem dx.2 | none => 0), {})) s

/-- PERM (R188): Fetch an element from crew lane B[3:0]. -/
def execPerm (f : EFields) (s : State) : Out := crewFetch 0x67#8 f (fun _ b => some (b.toNat % 16)) s

/-- SHFX (R188): Fetch from lane l xor B[3:0]. -/
def execShfx (f : EFields) (s : State) : Out := crewFetch 0x68#8 f (fun i b => some (i ^^^ (b.toNat % 16))) s

/-- SHUP (R188): Fetch from lane l − B. -/
def execShup (f : EFields) (s : State) : Out := crewFetch 0x69#8 f (fun i b => if b.toNat ≤ i then some (i - b.toNat) else none) s

/-- SHDN (R188): Fetch from lane l + B. -/
def execShdn (f : EFields) (s : State) : Out := crewFetch 0x6A#8 f (fun i b => if i + b.toNat < 16 then some (i + b.toNat) else none) s

/-- The lanes of a crew whose vote is true: B, or e[D] with BS = 01 (R189). -/
def votes (f : VoteFields) (lanes : List Lane) (l : Lane) : List Nat :=
  (List.range 16).filter fun i =>
    match mate lanes l i with
    | some m => (if f.b = .elem then m.st.elem f.d.toNat else m.operand f.g f.b 0) != 0
    | none => false

/-- A vote, its variant in X (R189). -/
def vote (f : VoteFields) (variant : BitVec 5) (result : List Nat → Word) (s : State) : Out :=
  crewOp (.e 0x6B#8 { mods := none, g := f.g, w := f.w, b := f.b, dst := .one f.d variant }) (.one f.d variant)
    (fun lanes l => ([(f.d.toNat, result (votes f lanes l))], {})) s

/-- VOTE_ANY (R189): 1 when any crew lane votes true. -/
def execVoteAny (f : VoteFields) (s : State) : Out := vote f 0 (fun v => if v.isEmpty then 0 else 1) s

/-- VOTE_ALL (R189): 1 when all 16 lanes vote true. -/
def execVoteAll (f : VoteFields) (s : State) : Out := vote f 1 (fun v => if v.length = 16 then 1 else 0) s

/-- VOTE_BALLOT (R189): Bit mask of true-voting lanes. -/
def execVoteBallot (f : VoteFields) (s : State) : Out := vote f 2 (fun v => v.foldl (fun m i => m ||| (1#32 <<< i)) 0) s

end Sys2Proof.Machine
end

