-- ==== Sys2Proof/Machine/FloatArith.lean ====
section
/-! DEFINITION. FP32 and packed arithmetic: 08_arith R158 to R163, latencies R131. -/

namespace Sys2Proof.Machine

/-- FADD (R158): FP32 add through form_result. -/
def execFadd (f : EFields) (s : State) : Out := eLong 0x20#8 f 4 Arith.fadd s

/-- FSUB (R158): FP32 subtract. -/
def execFsub (f : EFields) (s : State) : Out := eLong 0x21#8 f 4 Arith.fsub s

/-- FMUL (R158): FP32 multiply. -/
def execFmul (f : EFields) (s : State) : Out := eLong 0x22#8 f 4 Arith.fmul s

/-- FFMA (R158): Fused e[D] + e[X] × B, one rounding. -/
def execFfma (f : EFields) (s : State) : Out := eLong 0x23#8 f 4 Arith.ffma s

/-- FFMS (R158): Fused e[D] − e[X] × B. -/
def execFfms (f : EFields) (s : State) : Out := eLong 0x24#8 f 4 Arith.ffms s

/-- FNMA (R158): Fused e[X] × B − e[D]. -/
def execFnma (f : EFields) (s : State) : Out := eLong 0x25#8 f 4 Arith.fnma s

/-- FMIN (R160): FP32 minimum, NaN if either is NaN. -/
def execFmin (f : EFields) (s : State) : Out := eLong 0x26#8 f 4 Arith.fmin s

/-- FMAX (R160): FP32 maximum, NaN if either is NaN. -/
def execFmax (f : EFields) (s : State) : Out := eLong 0x27#8 f 4 Arith.fmax s

/-- FMINNM (R160): FP32 minimum ignoring a single NaN. -/
def execFminnm (f : EFields) (s : State) : Out := eLong 0x28#8 f 4 Arith.fminnm s

/-- FMAXNM (R160): FP32 maximum ignoring a single NaN. -/
def execFmaxnm (f : EFields) (s : State) : Out := eLong 0x29#8 f 4 Arith.fmaxnm s

/-- FCEQ (R161): 1 when FP32 values are equal. -/
def execFceq (f : EFields) (s : State) : Out := eLong 0x2A#8 f 4 Arith.fceq s

/-- FCLT (R161): 1 when e[D] < B as FP32. -/
def execFclt (f : EFields) (s : State) : Out := eLong 0x2B#8 f 4 Arith.fclt s

/-- FCLE (R161): 1 when e[D] ≤ B as FP32. -/
def execFcle (f : EFields) (s : State) : Out := eLong 0x2C#8 f 4 Arith.fcle s

/-- FCUN (R161): 1 when either operand is NaN. -/
def execFcun (f : EFields) (s : State) : Out := eLong 0x2D#8 f 4 Arith.fcun s

/-- FSEL (R161): Select B when e[X] is non-zero, else keep e[D]. -/
def execFsel (f : EFields) (s : State) : Out := eLong 0x2E#8 f 4 Arith.fsel s

/-- FCPSGN (R161): Copy the sign of B into e[D]. -/
def execFcpsgn (f : EFields) (s : State) : Out := eLong 0x2F#8 f 4 Arith.fcpsgn s

/-- FFLOOR (R162): Round B toward −∞ to an integral FP32. -/
def execFfloor (f : EFields) (s : State) : Out := eLong 0x30#8 f 4 Arith.ffloor s

/-- FCEIL (R162): Round B toward +∞. -/
def execFceil (f : EFields) (s : State) : Out := eLong 0x31#8 f 4 Arith.fceil s

/-- FTRUNC (R162): Round B toward zero. -/
def execFtrunc (f : EFields) (s : State) : Out := eLong 0x32#8 f 4 Arith.ftrunc s

/-- FRND (R162): Round B to integral in mode RM. -/
def execFrnd (f : EFields) (s : State) : Out := eLong 0x33#8 f 4 Arith.frnd s

/-- FSACC (R158): e[D] + e[X] × 2^B, block-scale step. -/
def execFsacc (f : EFields) (s : State) : Out := eLong 0x34#8 f 4 Arith.fsacc s

/-- HADD2 (R163): Packed FP16 pair add. -/
def execHadd2 (f : EFields) (s : State) : Out := eLong 0x35#8 f 4 Arith.hadd2 s

/-- HMUL2 (R163): Packed FP16 pair multiply. -/
def execHmul2 (f : EFields) (s : State) : Out := eLong 0x36#8 f 4 Arith.hmul2 s

/-- HFMA2 (R163): Packed FP16 pair fused multiply-add. -/
def execHfma2 (f : EFields) (s : State) : Out := eLong 0x37#8 f 4 Arith.hfma2 s

/-- BADD2 (R163): Packed BF16 pair add. -/
def execBadd2 (f : EFields) (s : State) : Out := eLong 0x38#8 f 4 Arith.badd2 s

/-- BMUL2 (R163): Packed BF16 pair multiply. -/
def execBmul2 (f : EFields) (s : State) : Out := eLong 0x39#8 f 4 Arith.bmul2 s

/-- BFMA2 (R163): Packed BF16 pair fused multiply-add. -/
def execBfma2 (f : EFields) (s : State) : Out := eLong 0x3A#8 f 4 Arith.bfma2 s

/-- S_FADD_G (R100): Short fadd with gN. -/
def execSFaddG (g : BitVec 6) (w : BitVec 3) (s : State) : Out :=
  elementwise (.short 0x18#6 g w) (shortG g w) 4 Arith.fadd s

/-- S_FSUB_G (R100): Short fsub with gN. -/
def execSFsubG (g : BitVec 6) (w : BitVec 3) (s : State) : Out :=
  elementwise (.short 0x19#6 g w) (shortG g w) 4 Arith.fsub s

/-- S_FMUL_G (R100): Short fmul with gN. -/
def execSFmulG (g : BitVec 6) (w : BitVec 3) (s : State) : Out :=
  elementwise (.short 0x1A#6 g w) (shortG g w) 4 Arith.fmul s

/-- S_FFMA_G (R100): Short ffma e0 += e1 × gN. -/
def execSFfmaG (g : BitVec 6) (w : BitVec 3) (s : State) : Out :=
  elementwise (.short 0x1B#6 g w) (shortG g w) 4 Arith.ffma s

/-- S_FFMS_G (R100): Short ffms with gN. -/
def execSFfmsG (g : BitVec 6) (w : BitVec 3) (s : State) : Out :=
  elementwise (.short 0x1C#6 g w) (shortG g w) 4 Arith.ffms s

/-- S_FMIN_G (R100): Short fmin with gN. -/
def execSFminG (g : BitVec 6) (w : BitVec 3) (s : State) : Out :=
  elementwise (.short 0x1D#6 g w) (shortG g w) 4 Arith.fmin s

/-- S_FMAX_G (R100): Short fmax with gN. -/
def execSFmaxG (g : BitVec 6) (w : BitVec 3) (s : State) : Out :=
  elementwise (.short 0x1E#6 g w) (shortG g w) 4 Arith.fmax s

/-- S_FCLT_G (R100): Short fclt with gN. -/
def execSFcltG (g : BitVec 6) (w : BitVec 3) (s : State) : Out :=
  elementwise (.short 0x1F#6 g w) (shortG g w) 4 Arith.fclt s

/-- S_FCLE_G (R100): Short fcle with gN. -/
def execSFcleG (g : BitVec 6) (w : BitVec 3) (s : State) : Out :=
  elementwise (.short 0x20#6 g w) (shortG g w) 4 Arith.fcle s

/-- S_FSACC_G (R100): Short fsacc e0 += e1 × 2^gN. -/
def execSFsaccG (g : BitVec 6) (w : BitVec 3) (s : State) : Out :=
  elementwise (.short 0x21#6 g w) (shortG g w) 4 Arith.fsacc s

end Sys2Proof.Machine
end

