-- ==== Sys2Proof/Machine/IntArith.lean ====
section
/-! DEFINITION. The integer instructions: 08_arith R155 to R157, latencies R131. -/

namespace Sys2Proof.Machine

/-- ADD (R155): Integer add of B to e[D], modulo 2^32 or saturating under SATM. -/
def execAdd (f : EFields) (s : State) : Out := eLong 0x00#8 f 4 Arith.add s

/-- SUB (R155): Integer subtract B from e[D]. -/
def execSub (f : EFields) (s : State) : Out := eLong 0x01#8 f 4 Arith.sub s

/-- RSUB (R155): Reverse subtract: e[D] := B − e[D]. -/
def execRsub (f : EFields) (s : State) : Out := eLong 0x02#8 f 4 Arith.rsub s

/-- MUL (R155): Low 32 bits of e[D] × B. -/
def execMul (f : EFields) (s : State) : Out := eLong 0x03#8 f 6 Arith.mul s

/-- MULHS (R155): High 32 bits of the signed product. -/
def execMulhs (f : EFields) (s : State) : Out := eLong 0x04#8 f 6 Arith.mulhs s

/-- MULHN (R155): High 32 bits of the unsigned product. -/
def execMulhn (f : EFields) (s : State) : Out := eLong 0x05#8 f 6 Arith.mulhn s

/-- MAD (R155): Integer multiply-accumulate e[D] + e[X] × B. -/
def execMad (f : EFields) (s : State) : Out := eLong 0x06#8 f 6 Arith.mad s

/-- MINS (R155): Signed minimum of e[D] and B. -/
def execMins (f : EFields) (s : State) : Out := eLong 0x07#8 f 4 Arith.mins s

/-- MAXS (R155): Signed maximum of e[D] and B. -/
def execMaxs (f : EFields) (s : State) : Out := eLong 0x08#8 f 4 Arith.maxs s

/-- MINN (R155): Unsigned minimum of e[D] and B. -/
def execMinn (f : EFields) (s : State) : Out := eLong 0x09#8 f 4 Arith.minn s

/-- MAXN (R155): Unsigned maximum of e[D] and B. -/
def execMaxn (f : EFields) (s : State) : Out := eLong 0x0A#8 f 4 Arith.maxn s

/-- AND (R155): Bitwise and of e[D] and B. -/
def execAnd (f : EFields) (s : State) : Out := eLong 0x0B#8 f 4 Arith.and s

/-- OR (R155): Bitwise or of e[D] and B. -/
def execOr (f : EFields) (s : State) : Out := eLong 0x0C#8 f 4 Arith.or s

/-- XOR (R155): Bitwise xor of e[D] and B. -/
def execXor (f : EFields) (s : State) : Out := eLong 0x0D#8 f 4 Arith.xor s

/-- ANDN (R155): e[D] and not B. -/
def execAndn (f : EFields) (s : State) : Out := eLong 0x0E#8 f 4 Arith.andn s

/-- SHL (R155): Shift e[D] left by B[4:0]. -/
def execShl (f : EFields) (s : State) : Out := eLong 0x0F#8 f 4 Arith.shl s

/-- SHRN (R155): Logical shift right by B[4:0]. -/
def execShrn (f : EFields) (s : State) : Out := eLong 0x10#8 f 4 Arith.shrn s

/-- SHRS (R155): Arithmetic shift right by B[4:0]. -/
def execShrs (f : EFields) (s : State) : Out := eLong 0x11#8 f 4 Arith.shrs s

/-- ROL (R155): Rotate e[D] left by B[4:0]. -/
def execRol (f : EFields) (s : State) : Out := eLong 0x12#8 f 4 Arith.rol s

/-- POPC (R155): Population count of B. -/
def execPopc (f : EFields) (s : State) : Out := eLong 0x13#8 f 4 Arith.popc s

/-- CLZ (R155): Leading zeros of B, 32 for zero. -/
def execClz (f : EFields) (s : State) : Out := eLong 0x14#8 f 4 Arith.clz s

/-- BREV (R155): Bit-reverse B. -/
def execBrev (f : EFields) (s : State) : Out := eLong 0x15#8 f 4 Arith.brev s

/-- BFXS (R156): Signed bit-field extract from e[D]. -/
def execBfxs (f : EFields) (s : State) : Out := eLong 0x16#8 f 4 Arith.bfxs s

/-- BFXN (R156): Unsigned bit-field extract from e[D]. -/
def execBfxn (f : EFields) (s : State) : Out := eLong 0x17#8 f 4 Arith.bfxn s

/-- BFI (R156): Insert a field of e[X] into e[D]. -/
def execBfi (f : EFields) (s : State) : Out := eLong 0x18#8 f 4 Arith.bfi s

/-- LEA (R155): e[D] := e[X] + 4 × B. -/
def execLea (f : EFields) (s : State) : Out := eLong 0x19#8 f 4 Arith.lea s

/-- CEQ (R155): 1 when e[D] equals B. -/
def execCeq (f : EFields) (s : State) : Out := eLong 0x1A#8 f 4 Arith.ceq s

/-- CNE (R155): 1 when e[D] differs from B. -/
def execCne (f : EFields) (s : State) : Out := eLong 0x1B#8 f 4 Arith.cne s

/-- CLTS (R155): 1 when e[D] < B signed. -/
def execClts (f : EFields) (s : State) : Out := eLong 0x1C#8 f 4 Arith.clts s

/-- CLES (R155): 1 when e[D] ≤ B signed. -/
def execCles (f : EFields) (s : State) : Out := eLong 0x1D#8 f 4 Arith.cles s

/-- CLTN (R155): 1 when e[D] < B unsigned. -/
def execCltn (f : EFields) (s : State) : Out := eLong 0x1E#8 f 4 Arith.cltn s

/-- CLEN (R155): 1 when e[D] ≤ B unsigned. -/
def execClen (f : EFields) (s : State) : Out := eLong 0x1F#8 f 4 Arith.clen s

/-- S_ADD_G (R100): Short add e0 += gN. -/
def execSAddG (g : BitVec 6) (w : BitVec 3) (s : State) : Out :=
  elementwise (.short 0x00#6 g w) (shortG g w) 4 Arith.add s

/-- S_SUB_G (R100): Short sub by gN. -/
def execSSubG (g : BitVec 6) (w : BitVec 3) (s : State) : Out :=
  elementwise (.short 0x01#6 g w) (shortG g w) 4 Arith.sub s

/-- S_MUL_G (R100): Short mul by gN. -/
def execSMulG (g : BitVec 6) (w : BitVec 3) (s : State) : Out :=
  elementwise (.short 0x02#6 g w) (shortG g w) 6 Arith.mul s

/-- S_MAD_G (R100): Short mad e0 += e1 × gN. -/
def execSMadG (g : BitVec 6) (w : BitVec 3) (s : State) : Out :=
  elementwise (.short 0x03#6 g w) (shortG g w) 6 Arith.mad s

/-- S_AND_G (R100): Short and with gN. -/
def execSAndG (g : BitVec 6) (w : BitVec 3) (s : State) : Out :=
  elementwise (.short 0x04#6 g w) (shortG g w) 4 Arith.and s

/-- S_OR_G (R100): Short or with gN. -/
def execSOrG (g : BitVec 6) (w : BitVec 3) (s : State) : Out :=
  elementwise (.short 0x05#6 g w) (shortG g w) 4 Arith.or s

/-- S_XOR_G (R100): Short xor with gN. -/
def execSXorG (g : BitVec 6) (w : BitVec 3) (s : State) : Out :=
  elementwise (.short 0x06#6 g w) (shortG g w) 4 Arith.xor s

/-- S_SHL_G (R100): Short shl by gN. -/
def execSShlG (g : BitVec 6) (w : BitVec 3) (s : State) : Out :=
  elementwise (.short 0x07#6 g w) (shortG g w) 4 Arith.shl s

/-- S_SHRN_G (R100): Short shrn by gN. -/
def execSShrnG (g : BitVec 6) (w : BitVec 3) (s : State) : Out :=
  elementwise (.short 0x08#6 g w) (shortG g w) 4 Arith.shrn s

/-- S_SHRS_G (R100): Short shrs by gN. -/
def execSShrsG (g : BitVec 6) (w : BitVec 3) (s : State) : Out :=
  elementwise (.short 0x09#6 g w) (shortG g w) 4 Arith.shrs s

/-- S_MINS_G (R100): Short mins with gN. -/
def execSMinsG (g : BitVec 6) (w : BitVec 3) (s : State) : Out :=
  elementwise (.short 0x0A#6 g w) (shortG g w) 4 Arith.mins s

/-- S_MAXS_G (R100): Short maxs with gN. -/
def execSMaxsG (g : BitVec 6) (w : BitVec 3) (s : State) : Out :=
  elementwise (.short 0x0B#6 g w) (shortG g w) 4 Arith.maxs s

/-- S_CEQ_G (R100): Short ceq with gN. -/
def execSCeqG (g : BitVec 6) (w : BitVec 3) (s : State) : Out :=
  elementwise (.short 0x0C#6 g w) (shortG g w) 4 Arith.ceq s

/-- S_CLTS_G (R100): Short clts with gN. -/
def execSCltsG (g : BitVec 6) (w : BitVec 3) (s : State) : Out :=
  elementwise (.short 0x0D#6 g w) (shortG g w) 4 Arith.clts s

/-- S_CLTN_G (R100): Short cltn with gN. -/
def execSCltnG (g : BitVec 6) (w : BitVec 3) (s : State) : Out :=
  elementwise (.short 0x0E#6 g w) (shortG g w) 4 Arith.cltn s

/-- S_LEA_G (R100): Short lea with gN. -/
def execSLeaG (g : BitVec 6) (w : BitVec 3) (s : State) : Out :=
  elementwise (.short 0x0F#6 g w) (shortG g w) 4 Arith.lea s

/-- S_ADD_IMM (R100): Short add of a 6-bit immediate. -/
def execSAddImm (i : BitVec 6) (w : BitVec 3) (s : State) : Out :=
  elementwise (.short 0x10#6 i w) (shortI i w) 4 Arith.add s

/-- S_AND_IMM (R100): Short and with an immediate. -/
def execSAndImm (i : BitVec 6) (w : BitVec 3) (s : State) : Out :=
  elementwise (.short 0x11#6 i w) (shortI i w) 4 Arith.and s

/-- S_SHL_IMM (R100): Short shl by an immediate. -/
def execSShlImm (i : BitVec 6) (w : BitVec 3) (s : State) : Out :=
  elementwise (.short 0x12#6 i w) (shortI i w) 4 Arith.shl s

/-- S_SHRN_IMM (R100): Short shrn by an immediate. -/
def execSShrnImm (i : BitVec 6) (w : BitVec 3) (s : State) : Out :=
  elementwise (.short 0x13#6 i w) (shortI i w) 4 Arith.shrn s

/-- S_SHRS_IMM (R100): Short shrs by an immediate. -/
def execSShrsImm (i : BitVec 6) (w : BitVec 3) (s : State) : Out :=
  elementwise (.short 0x14#6 i w) (shortI i w) 4 Arith.shrs s

/-- S_CEQ_IMM (R100): Short ceq with an immediate. -/
def execSCeqImm (i : BitVec 6) (w : BitVec 3) (s : State) : Out :=
  elementwise (.short 0x15#6 i w) (shortI i w) 4 Arith.ceq s

/-- S_CLTS_IMM (R100): Short clts with an immediate. -/
def execSCltsImm (i : BitVec 6) (w : BitVec 3) (s : State) : Out :=
  elementwise (.short 0x16#6 i w) (shortI i w) 4 Arith.clts s

end Sys2Proof.Machine
end

