-- ==== Sys2Proof/Machine/Matrix.lean ====
section
/-! DEFINITION. The matrix engine at work: 14_engines R295, R301 to R308; 07_numbers R150. -/

namespace Sys2Proof.Machine

/-! ## Operands (R295, R302, R305) -/

/-- The planes of an operand that the engine reads: of a narrow format, those of its W bits; of a float, the sign, the exponent and the
top PL mantissa planes (R295, R302). The first and how many. -/
def OpFmt.planes (f : OpFmt) (pl : Nat) : Nat × Nat :=
  if f.int then (0, f.w) else (f.w - f.fmt.w, (if f.fmt.uns then 0 else 1) + f.fmt.e + pl)

/-- Element `t` of row `r` of a block whose rows take `rb` bytes in each plane: the bits of the planes read, the missing ones zero (R295,
R302). -/
def blockCode (block : Nat → Nat) (f : OpFmt) (pl rb r t : Nat) : Nat :=
  let (p0, n) := f.planes pl
  (List.range n).foldl (fun acc i =>
    let p := p0 + i
    let byte := block (16 * rb * p + rb * r + t / 8)
    if byte.testBit (t % 8) then acc + 2 ^ (f.w - 1 - p) else acc) 0

/-- A block of the window: the bytes that the planes read take, or none where one lies outside the window (R290 cause 1). -/
def State.block? (s : State) (c : Cmd) (off : Int) (f : OpFmt) (pl k : Nat) : Option (Nat → Nat) :=
  let (p0, n) := f.planes pl
  let w := s.windowOf c
  if off < 0 ∨ (w.2 : Int) < off + (2 * k * (p0 + n) : Nat) then none
  else
    let base := w.1 + off.toNat
    some fun i => (Cells.get s.mems.scratch (scratchKey c.core (base + i))).toNat

/-! ## Step sums (R305, R306) -/

/-- The integer value of a code. -/
def intCode (w code : Nat) : Int := (BitVec.ofNat w code).toInt

/-- The sum of finite products, each truncated toward zero to a multiple of 2^(E − 48), E that of the largest (R305 steps 2 to 5). -/
def truncSum (ps : List (Bool × Nat × Int)) : Rounded :=
  let live := ps.filter fun p => p.2.1 != 0
  match live.map (fun p => topOf p.2.1 p.2.2) with
  | [] => { v := .fin false 0 0 }
  | t :: ts =>
    let q := ts.foldl max t - 48
    let sum : Int := (live.map fun p => let n : Int := (cutAt p.2.1 p.2.2 q).1; if p.1 then -n else n).sum
    roundFmt (.fin (decide (sum < 0)) sum.natAbs q) fp32 .rne

/-- The step sum of a row of A and a row of B (R305): a NaN operand gives NaN without a flag; an invalid product, or infinities of both
signs, NaN with NV. -/
def stepSum (as bs : List XVal) : XRes :=
  if as.any (·.isNan) || bs.any (·.isNan) then (.nan, {})
  else
    let ps := (List.zipWith XVal.mul as bs).map (·.1)
    let infs := ps.filterMap fun p => match p with | .inf n => some n | _ => none
    if ps.any (·.isNan) || (infs.contains true && infs.contains false) then (.nan, .invalid)
    else
      match infs with
      | n :: _ => (.inf n, {})
      | [] =>
        let r := truncSum (ps.filterMap fun p => match p with | .fin n m e => some (n, m, e) | _ => none)
        (r.v, r.flags)

/-- An element plus a step sum, written as FP32 (R305 steps 6 and 7). -/
def addStep (e : Word) (v : XVal) : Word × Flags :=
  let (x, fl) := (f32 e).add v .rne
  let (code, f2) := formFloat x fp32 .zero
  (BitVec.ofNat 32 code, fl.or f2)

/-- An s32 element plus a step sum (R306). -/
def addIntStep (sat : Bool) (e : Word) (sum : Int) : Word := formS32 (e.toInt + sum) (if sat then .sat else .none)

/-- The addition of one step's sum to an element of the tile, from the codes of its rows of A and B (R305, R306). -/
def stepAdd (fa fb : OpFmt) (sat : Bool) (as bs : List Nat) (e : Word) : Word × Flags :=
  if fa.int then (addIntStep sat e (List.zipWith (fun x y => intCode fa.w x * intCode fb.w y) as bs).sum, {})
  else
    let v := stepSum (as.map fa.fmt.value) (bs.map fb.fmt.value)
    let r := addStep e v.1
    (r.1, r.2.or v.2)

/-! ## The command (R303, R304, R308) -/

/-- The crews of a MATRIX command, ascending. -/
def Cmd.crews (c : Cmd) : List Nat := (List.range 32).filter (cmdField c.words 64 32).testBit
/-- How many steps a MATRIX command has. -/
def Cmd.steps (c : Cmd) : Nat := c.bound 0 * c.bound 1 * c.bound 2 * c.bound 3 * c.bound 4 * c.crews.length
/-- The offset of a block for crew `crew` at linear loop index `i` (R301): `lo` and `cs` are where its first offset and its crew stride lie,
`st` where the strides of its levels begin. -/
def Cmd.blockOff (c : Cmd) (lo cs st crew i : Nat) : Int :=
  let b := c.bound
  let iv := [i % b 0, i / b 0 % b 1, i / (b 0 * b 1) % b 2, i / (b 0 * b 1 * b 2) % b 3, i / (b 0 * b 1 * b 2 * b 3)]
  let strides : Int := ((List.range 5).map fun l => (iv.getD l 0 : Int) * cmdSigned c.words (st + 32 * l) 16).sum
  (cmdField c.words lo 20 : Int) + 16 * ((crew : Int) * cmdSigned c.words cs 16 + strides)

/-- Every target thread's lend is claimed, or counts as claimed: its thread has retired, or its strand has finished without lending
(R303). -/
def State.allClaimed (s : State) (c : Cmd) : Bool :=
  let n := cmdField c.words 32 4
  match s.group? c.gid with
  | none => false
  | some g => g.threads.all fun t =>
      !c.selects t.tid n || t.retired ||
        (match t.strand? n with | some st => st.own == .claimed c.id || (t.finished n && st.own == .strand) | none => true)

/-- Before step 0: ZI clears e0 to e15 and STG e16 to e31 of every claimed accumulator (R304, R308). -/
def State.zeroTargets (s : State) (c : Cmd) : State :=
  let clear (j : Nat) : Bool := (decide (j < 16) && cmdField c.words 56 1 == 1) || (decide (16 ≤ j) && cmdField c.words 58 1 == 1)
  let zero (st : Strand) : Strand :=
    if st.own == .claimed c.id then { st with e := (List.range 32).map fun j => if clear j then 0 else st.elem j } else st
  s.modGroup c.gid fun g =>
    let threads := g.threads.map fun t => { t with strands := t.strands.map zero }
    { g with threads := threads }

/-- A row of step sums added to a claimed accumulator: `add` gives the new element and flags for column j (R304, R150). -/
def addRow (acc stg : Bool) (add : Nat → Word → Word × Flags) (st : Strand) : Strand :=
  let cols := (if acc then List.range 16 else []) ++ (if stg then (List.range 16).map (· + 16) else [])
  let outs := cols.map fun d => (d, add (d % 16) (st.elem d))
  { st with e := setElems st.e (outs.map fun o => (o.1, o.2.1)), flags := outs.foldl (fun f o => f.or o.2.2) st.flags }

/-- Step `n` of a command: the sums of its crew's tile, added to the accumulators it has claimed (R304 to R306); none where a block lies
outside the window. -/
def State.matrixStep? (s : State) (c : Cmd) (n : Nat) : Option State :=
  let crews := c.crews
  let crew := crews.getD (n % crews.length) 0
  let i := n / crews.length
  let f := cmdField c.words
  let fa := opFmt (f 36 4) c.fmtA
  let fb := opFmt (f 40 4) c.fmtB
  let k := 8 * (16 * (f 52 3 + 1)) / fa.w
  match s.block? c (c.blockOff 96 160 288 crew i) fa (f 44 4) k, s.block? c (c.blockOff 128 176 304 crew i) fb (f 48 4) k with
  | some a, some b =>
    let codesA (r : Nat) : List Nat := (List.range k).map (blockCode a fa (f 44 4) (k / 8) r)
    let codesB (r : Nat) : List Nat := (List.range k).map (blockCode b fb (f 48 4) (k / 8) r)
    let rows := (List.range 16).map codesB
    let add (lane j : Nat) (e : Word) : Word × Flags := stepAdd fa fb (f 59 1 == 1) (codesA lane) (rows.getD j []) e
    let write (t : Thread) (st : Strand) : Strand :=
      if crewOf t.tid == crew && st.own == .claimed c.id then addRow (f 57 1 == 1) (f 58 1 == 1) (add (laneOf t.tid)) st else st
    some (s.modGroup c.gid fun g =>
      let threads := g.threads.map fun t => { t with strands := t.strands.map (write t) }
      { g with threads := threads })
  | _, _ => none

/-- What preceded each claimed `lend` is performed at group scope, so that the command may read its operands (R303). -/
def State.lendsOver (s : State) (c : Cmd) : Bool :=
  let n := cmdField c.words 32 4
  match s.group? c.gid with
  | none => false
  | some g => g.threads.all fun t =>
      match t.strand? n with | some st => st.own != .claimed c.id || s.doneAt st.lent 1 | none => true

/-- A MATRIX command has a step to do: it runs, its lends are all claimed and its column does not stop (R303, R374). -/
def State.stepWork (s : State) (c : Cmd) : Bool :=
  let stopping : Bool := match s.stopOf c.gid.column with | some st => st.begun | none => false
  c.kind == 2 && c.st == .started && !c.finished && !stopping && s.allClaimed c && s.lendsOver c

/-- MATRIX_STEP (R304 to R308): A running command whose lends are all claimed adds its next step's sums, in ascending step order; of two
running commands each has every other step; a stop holds it at a step boundary. -/
def execMatrixStep (cmd : Nat) (s : State) : Out :=
  match s.cmd? cmd with
  | none => .next s
  | some c =>
    let other := s.cmds.any fun x => x.core == c.core && x.queue != c.queue && s.stepWork x
    if !s.stepWork c || (other && (s.coreAt c.core).matTurn == c.queue) then .next s
    else
      let s := s.modCore c.core fun k => { k with matTurn := c.queue }
      let s := if c.prog = 0 then s.zeroTargets c else s
      match s.matrixStep? c c.prog with
      | none => .next (s.engineFault c 10 1 0)
      | some s => .next (s.modCmd cmd fun c => { c with prog := c.prog + 1, finished := decide (c.steps ≤ c.prog + 1) })

end Sys2Proof.Machine
end

