-- ==== Sys2Proof/Machine/Pod.lean ====
section
/-! DEFINITION. The pod: routes, links, flits, communicators, requests of other chips: 10_memory R207, R213; 17_coherence R334, R336;
23_host_pod R413, R414. -/

namespace Sys2Proof

open Machine

/-! ## Requests of other chips (R213) -/

/-- The bytes a remote read-modify-write leaves, from those it found (R236 to R238, R240). -/
def RemoteKind.apply (k : RemoteKind) (old : List Byte) : List Byte :=
  match k with
  | .load _ => old
  | .store bs => bs
  | .atom op v => wordBytes (atomResult op (wordOf old) v)
  | .cas e n bytes => if leNat old = e then leBytes bytes n else old
  | .float 0 v => wordBytes (addF32 (wordOf old) v).1
  | .float op v => wordBytes (minMaxF32 (op == 2) (wordOf old) v)
/-- Bytes that a read-modify-write covers. -/
def RemoteKind.size (k : RemoteKind) : Nat :=
  match k with | .load n => n | .store bs => bs.length | .cas _ _ n => n | _ => 4
/-- What it needs of the leaf (R216). -/
def RemoteKind.want (k : RemoteKind) : Want := match k with | .load _ => .load | .store _ => .store | _ => .atomic

/-- A message that is no request of another chip acts as soon as it is the first of its receive buffer (R334, log 102). -/
def PeerMsg.acts (m : PeerMsg) : Bool := match m with | .request _ => false | _ => true

end Sys2Proof

namespace Sys2Proof.Machine

/-- Serves a request in the tables of this chip, where only a LOCAL or WSTORE entry is accepted (R213): the bytes read, for a load or an
atomic; nothing for one that faults; it waits while its page is held. -/
def State.serve (s : State) (r : RemoteReq) : Except Denied (Option (List Byte) × State) :=
  match s.ctxOfAsid? r.asid with
  | none => .ok (none, s)
  | some ctx =>
    let va := r.va.toNat
    match s.translate ctx va r.kind.want none with
    | .error (.absent pa) => .error (.absent pa)
    | .error _ => .ok (none, s)
    | .ok (x, _) =>
      if x.perm.typ != .local && x.perm.typ != .wstore then .ok (none, s)
      else
        let s := s.hotSample ctx va 0xFF (match r.kind with | .load _ => 0 | .store _ => 1 | _ => 2) x.place 0 none
        let got : Except Denied (List Byte × State) := match r.kind with
          | .load n => s.vaRead ctx va n
          | .store bs => (s.vaWrite ctx va bs).map fun t => ([], t)
          | k => s.vaUpdate ctx va k.size k.apply none
        match got with
        | .ok (bs, s) => .ok (some bs, s)
        | .error .held => .error .held
        | .error (.absent pa) => .error (.absent pa)
        | .error _ => .ok (none, s)

/-! ## Flits (R414) -/

/-- The sequence number that a link expects next. -/
def State.nextSeq (s : State) (link : Nat) : Nat := match s.linkSeq.find? (·.1 == link) with | some x => x.2 | none => 0
/-- The receive buffer of a link and lane. -/
def State.rxOf (s : State) (link lane : Nat) : LinkRx :=
  match s.linkRx.find? fun x => x.link == link && x.lane == lane with
  | some x => x
  | none => { link := link, lane := lane, queue := [], stop := false }
/-- A buffer with one more flit; the lane's STOP is set at 48 (R414). -/
def LinkRx.take (x : LinkRx) (m : PeerMsg) : LinkRx :=
  { x with queue := x.queue ++ [m], stop := x.stop || decide (48 ≤ x.queue.length + 1) }
/-- A message leaves the receive buffer it is the first of; the lane's STOP clears at 16 flits (R414). -/
def LinkRx.serve (x : LinkRx) : LinkRx := { x with queue := x.queue.drop 1, stop := x.stop && decide (16 < x.queue.length - 1) }
/-- Applies `f` to the first buffer that `p` selects. -/
def onFirst {α : Type} (p : α → Bool) (f : α → α) : List α → List α
  | [] => []
  | x :: xs => if p x then f x :: xs else x :: onFirst p f xs

/-- An entry of the coordinator's table reaches this mirror (R346): added, changed, or, with STATE 0, gone. A new state is yet to be
acknowledged here. -/
def State.mirrorEntry (s : State) (id asid vpn pages count st origin : Nat) : State :=
  if st = 0 then { s with freezes := s.freezes.filter (·.id != id) }
  else
    let new := FrzState.ofCode st
    match s.freeze? id with
    | none => { s with freezes := s.freezes ++ [{ id := id, asid := asid, vpn := vpn, pages := pages, count := count, st := new, origin := origin,
                                                  acks := [], marked := [], dropped := false, waiters := [] }] }
    | some f =>
      let same := f.st == new
      s.modFreeze id fun f => { f with count := count, st := new, acks := if same then f.acks else [], dropped := same && f.dropped }
/-- The acknowledgement of another chip reaches the coordinator, for the state it is of. -/
def State.peerAck (s : State) (id chip st : Nat) : State :=
  match s.freeze? id with
  | none => s
  | some f =>
    if f.st.code != st then s
    else
      let r : Out := match f.st with
        | .freezing => execFreezeAck id chip s
        | .active => .next s
        | .dropping => execDropAck id chip s
        | .unmarking => execUnmarkAck id chip s
      match r with
      | .next t => t
      | _ => s

/-- What a peer's message brings about: a request is served by REMOTE_REQUEST, and the answer to one of this chip's own has been foreseen
(log 102); a collective's part joins those here (R315); a `frz` and a thaw reach the coordinator, its answers and entries the other devices,
their acknowledgements the coordinator (R346, R347, R349); phase 1 of a quiesce is reported (R384). -/
def State.deliver (s : State) (m : PeerMsg) : State :=
  match m with
  | .request _ => s
  | .answer _ => s
  | .collective c => { s with collect := s.collect ++ [c] }
  | .freeze chip num asid vpn pages =>
    { s with frzReqs := s.frzReqs ++ [{ id := num, gid := none, asid := asid, vpn := vpn, pages := pages, chip := chip, sent := true }] }
  | .frzAnswer num cause id =>
    let mine (q : FrzReq) : Bool := q.id == num && q.gid.isSome
    match s.frzReqs.find? mine with
    | none => s
    | some q => { s with frzReqs := s.frzReqs.filter fun q => !mine q }.answerFreeze q (if cause = 0 then .ok id else .error cause)
  | .frzEntry id asid vpn pages count st origin => s.mirrorEntry id asid vpn pages count st origin
  | .frzAck id chip st => s.peerAck id chip st
  | .thaw asid id all =>
    match s.freezes.find? fun x => x.id == id && x.asid == asid && x.active && x.count != 0 with
    | some f => s.lowerCount f all
    | none => s
  | .phase1 chip => s.peerReport chip

/-- The receive buffers give out the messages that act at once, `fuel` of them at most. -/
def State.drainRx (s : State) : Nat → State
  | 0 => s
  | fuel + 1 =>
    match s.linkRx.findSome? fun x => match x.queue with | m :: _ => if m.acts then some m else none | [] => none with
    | none => s
    | some m =>
      let s : State := { s with linkRx := onFirst (fun x => x.queue.head? == some m) LinkRx.serve s.linkRx }
      (s.deliver m).drainRx fuel
/-- Everything that acts at once does. -/
def State.drainAll (s : State) : State := s.drainRx ((s.linkRx.map (·.queue.length)).sum)

/-- A request is served in the order of its link and lane: it is the first of a receive buffer (R334). -/
def State.isHead (s : State) (r : RemoteReq) : Bool := s.linkRx.any fun x => x.queue.head? == some (.request r)

/-- REMOTE_REQUEST (R213, R334): The first request of a receive buffer is translated again here, performed at its home, and answered on its
lane; what stands behind it goes on. -/
def execRemoteRequest (r : RemoteReq) (s : State) : Out :=
  if !s.isHead r then .next s
  else
  match s.serve r with
  | .error (.absent pa) => .fault (.noSuchMemory pa)
  | .error _ => .next s
  | .ok (a, s) =>
    let s : State := { s with linkRx := onFirst (fun x => x.queue.head? == some (.request r)) LinkRx.serve s.linkRx }
    .next (s.toPeer r.chip (r.va.toNat / 128) (.answer a)).drainAll

/-- Messages that waited and may leave now do, in order, and what waited for memory of another chip (R413, R414). -/
def State.release (s : State) : State :=
  let free (x : Nat × Nat × PeerMsg) : Bool := (s.route? x.1 x.2.1).isSome
  ((s.heldOut.filter free).foldl (fun (s : State) x => s.sendPeer x.1 x.2.1 x.2.2) { s with heldOut := s.heldOut.filter fun x => !free x }).releaseRecs
/-- The other end of a link has stopped the lanes of these STOP bits, and no others (R414). -/
def State.setStops (s : State) (link : Nat) (stops : BitVec 8) : State :=
  { s with linkStop := ((List.range 8).filter stops.getLsbD).map (fun k => (link, k)) ++ s.linkStop.filter (·.1 != link) }

/-- NIMBUS_FLIT (R414): A flit is received. One with a bad CRC, or for a full buffer, is not taken, and its link's other end is asked to send
again from it; one out of sequence is not taken; else the link's sequence number goes on, its STOP bits hold or let go what is sent the
other way, and its message, if it ends one, joins its lane's receive buffer. -/
def execNimbusFlit (f : Flit) (s : State) : Out :=
  if !s.links.contains f.link then .next s
  else if !f.crcOk then .next (s.send (.askResend f.link (s.nextSeq f.link)))
  else if f.seq != s.nextSeq f.link then .next s
  else
    let x := s.rxOf f.link f.lane
    if 64 ≤ x.queue.length then .next (s.send (.askResend f.link f.seq))
    else
      let s := { s with linkSeq := (f.link, f.seq + 1) :: s.linkSeq.filter (·.1 != f.link) }.setStops f.link f.stops
      let rest := s.linkRx.filter fun x => !(x.link == f.link && x.lane == f.lane)
      .next (match f.msg with | some m => { s with linkRx := x.take m :: rest }.drainAll | none => s).release

/-- A link's other end asks for the flits from a sequence number on: those that the retry buffer holds go out again, in order (R414). -/
def State.resend (s : State) (link seq : Nat) : State :=
  (s.retry.filter fun x => x.2.link == link && decide (seq ≤ x.2.seq)).foldl (fun s x => s.send (.toPeer x.1 x.2)) s

/-! ## Routes and links (R413) -/

/-- ROUTE_WRITE (R413): Set the link of a (chip, lane) route, or take it away; requests held for it go on, but for a route over a link that is
down, which holds them until the host writes another. -/
def execRouteWrite (v : BitVec 64) (s : State) : Out :=
  if s.recovery then .next s
  else
    let chip := v.toNat % 256
    let lane := bits v.toNat 8 3
    let rest := s.podRoutes.filter fun r => !(r.chip == chip && r.lane == lane)
    let link := bits v.toNat 11 5
    let new : List RouteEntry :=
      if v.getLsbD 16 then [{ chip := chip, lane := lane, link := link, cut := !s.links.contains link }] else []
    .next { s with podRoutes := rest ++ new }.release

/-- LINK_DOWN (R413): A link goes down; requests routed over it are held until the host writes a route. -/
def execLinkDown (link : Nat) (s : State) : Out :=
  let cut (r : RouteEntry) : RouteEntry := { r with cut := true }
  .next { s with links := s.links.filter (· != link), podRoutes := updWhere (·.link == link) cut s.podRoutes }

/-- LINK_UP (R413): A link, 0 to 23, comes up; requests routed over it while it was down wait for the host to write a route. -/
def execLinkUp (link : Nat) (s : State) : Out :=
  .next (if link < 24 then { s with links := link :: s.links.filter (· != link) } else s)

/-! ## Communicators (R413) -/

/-- COMMCFG_WRITE (R413): Configure a communicator, its member list read at COMMLIST in the system context; a list that cannot be read leaves
it as it was, and one whose page's requests are held is read once they go on. -/
def execCommcfgWrite (v : BitVec 64) (s : State) : Out :=
  if s.recovery then .next s
  else
    let id := v.toNat % 64
    let n := bits v.toNat 6 8 + 1
    match s.vaRead 0 s.mgmt.commlist.toNat n { shd := true } with
    | .error (.absent pa) => .fault (.noSuchMemory pa)
    | .error .held => .next (s.holdEvent (.comm v))
    | .error _ => .next s
    | .ok (bs, s) =>
      let c : Comm := { id := id, members := bs.map (·.toNat), rank := bits v.toNat 14 8 }
      .next { s with comms := c :: s.comms.filter (·.id != id) }

end Sys2Proof.Machine
end

