-- ==== Sys2Proof/Machine/SpecialFns.lean ====
section
/-! DEFINITION. Seeds and interpolated functions, and ex2m: 08_arith R168 to R171, R177, latencies R131. -/

namespace Sys2Proof.Machine

/-- RCPSD (R171): Reciprocal seed to 9 bits. -/
def execRcpsd (f : EFields) (s : State) : Out := eLong 0x50#8 f 6 Arith.rcpsd s

/-- RSQSD (R171): Reciprocal square-root seed to 9 bits. -/
def execRsqsd (f : EFields) (s : State) : Out := eLong 0x51#8 f 6 Arith.rsqsd s

/-- RCP (R168): Interpolated reciprocal. -/
def execRcp (f : EFields) (s : State) : Out := eLong 0x52#8 f 10 Arith.rcp s

/-- RSQ (R168): Interpolated reciprocal square root. -/
def execRsq (f : EFields) (s : State) : Out := eLong 0x53#8 f 10 Arith.rsq s

/-- EX2 (R168): Interpolated 2^B. -/
def execEx2 (f : EFields) (s : State) : Out := eLong 0x54#8 f 10 Arith.ex2 s

/-- LG2 (R168): Interpolated log2 B. -/
def execLg2 (f : EFields) (s : State) : Out := eLong 0x55#8 f 10 Arith.lg2 s

/-- SINPI (R168): Interpolated sin(πB). -/
def execSinpi (f : EFields) (s : State) : Out := eLong 0x56#8 f 10 Arith.sinpi s

/-- COSPI (R168): Interpolated cos(πB). -/
def execCospi (f : EFields) (s : State) : Out := eLong 0x57#8 f 10 Arith.cospi s

/-- TANH (R168): Interpolated tanh B. -/
def execTanh (f : EFields) (s : State) : Out := eLong 0x58#8 f 10 Arith.tanh s

/-- SIGM (R168): Interpolated logistic sigmoid. -/
def execSigm (f : EFields) (s : State) : Out := eLong 0x59#8 f 10 Arith.sigm s

/-- EX2M (R177): 2^(e[D] − B), forced +0 when AM is set. -/
def execEx2m (f : EFields) (s : State) : Out := eLong 0x5F#8 f 10 Arith.ex2m s

/-- S_RSQSD_G (R100): Short rsqsd of gN. -/
def execSRsqsdG (g : BitVec 6) (w : BitVec 3) (s : State) : Out :=
  elementwise (.short 0x33#6 g w) (shortG g w) 6 Arith.rsqsd s

/-- S_RCPSD_G (R100): Short rcpsd of gN. -/
def execSRcpsdG (g : BitVec 6) (w : BitVec 3) (s : State) : Out :=
  elementwise (.short 0x34#6 g w) (shortG g w) 6 Arith.rcpsd s

/-- S_EX2_G (R100): Short ex2 of gN. -/
def execSEx2G (g : BitVec 6) (w : BitVec 3) (s : State) : Out :=
  elementwise (.short 0x35#6 g w) (shortG g w) 10 Arith.ex2 s

end Sys2Proof.Machine
end

