-- ==== Sys2Proof/Machine/Dispatch.lean ====
section
/-! DEFINITION. The dispatch table: one arm for each constructor of Instr. -/

namespace Sys2Proof.Machine

/-- What an instruction or event does in a state. -/
def exec (i : Instr) (s : State) : Host.Outcome State Fault Refusal :=
  match i with
  | .add f => Sys2Proof.Machine.execAdd f s
  | .sub f => Sys2Proof.Machine.execSub f s
  | .rsub f => Sys2Proof.Machine.execRsub f s
  | .mul f => Sys2Proof.Machine.execMul f s
  | .mulhs f => Sys2Proof.Machine.execMulhs f s
  | .mulhn f => Sys2Proof.Machine.execMulhn f s
  | .mad f => Sys2Proof.Machine.execMad f s
  | .mins f => Sys2Proof.Machine.execMins f s
  | .maxs f => Sys2Proof.Machine.execMaxs f s
  | .minn f => Sys2Proof.Machine.execMinn f s
  | .maxn f => Sys2Proof.Machine.execMaxn f s
  | .and f => Sys2Proof.Machine.execAnd f s
  | .or f => Sys2Proof.Machine.execOr f s
  | .xor f => Sys2Proof.Machine.execXor f s
  | .andn f => Sys2Proof.Machine.execAndn f s
  | .shl f => Sys2Proof.Machine.execShl f s
  | .shrn f => Sys2Proof.Machine.execShrn f s
  | .shrs f => Sys2Proof.Machine.execShrs f s
  | .rol f => Sys2Proof.Machine.execRol f s
  | .popc f => Sys2Proof.Machine.execPopc f s
  | .clz f => Sys2Proof.Machine.execClz f s
  | .brev f => Sys2Proof.Machine.execBrev f s
  | .bfxs f => Sys2Proof.Machine.execBfxs f s
  | .bfxn f => Sys2Proof.Machine.execBfxn f s
  | .bfi f => Sys2Proof.Machine.execBfi f s
  | .lea f => Sys2Proof.Machine.execLea f s
  | .ceq f => Sys2Proof.Machine.execCeq f s
  | .cne f => Sys2Proof.Machine.execCne f s
  | .clts f => Sys2Proof.Machine.execClts f s
  | .cles f => Sys2Proof.Machine.execCles f s
  | .cltn f => Sys2Proof.Machine.execCltn f s
  | .clen f => Sys2Proof.Machine.execClen f s
  | .fadd f => Sys2Proof.Machine.execFadd f s
  | .fsub f => Sys2Proof.Machine.execFsub f s
  | .fmul f => Sys2Proof.Machine.execFmul f s
  | .ffma f => Sys2Proof.Machine.execFfma f s
  | .ffms f => Sys2Proof.Machine.execFfms f s
  | .fnma f => Sys2Proof.Machine.execFnma f s
  | .fmin f => Sys2Proof.Machine.execFmin f s
  | .fmax f => Sys2Proof.Machine.execFmax f s
  | .fminnm f => Sys2Proof.Machine.execFminnm f s
  | .fmaxnm f => Sys2Proof.Machine.execFmaxnm f s
  | .fceq f => Sys2Proof.Machine.execFceq f s
  | .fclt f => Sys2Proof.Machine.execFclt f s
  | .fcle f => Sys2Proof.Machine.execFcle f s
  | .fcun f => Sys2Proof.Machine.execFcun f s
  | .fsel f => Sys2Proof.Machine.execFsel f s
  | .fcpsgn f => Sys2Proof.Machine.execFcpsgn f s
  | .ffloor f => Sys2Proof.Machine.execFfloor f s
  | .fceil f => Sys2Proof.Machine.execFceil f s
  | .ftrunc f => Sys2Proof.Machine.execFtrunc f s
  | .frnd f => Sys2Proof.Machine.execFrnd f s
  | .fsacc f => Sys2Proof.Machine.execFsacc f s
  | .hadd2 f => Sys2Proof.Machine.execHadd2 f s
  | .hmul2 f => Sys2Proof.Machine.execHmul2 f s
  | .hfma2 f => Sys2Proof.Machine.execHfma2 f s
  | .badd2 f => Sys2Proof.Machine.execBadd2 f s
  | .bmul2 f => Sys2Proof.Machine.execBmul2 f s
  | .bfma2 f => Sys2Proof.Machine.execBfma2 f s
  | .cvtF32S32 f => Sys2Proof.Machine.execCvtF32S32 f s
  | .cvtF32N32 f => Sys2Proof.Machine.execCvtF32N32 f s
  | .cvtS32F32 f => Sys2Proof.Machine.execCvtS32F32 f s
  | .cvtN32F32 f => Sys2Proof.Machine.execCvtN32F32 f s
  | .cvtF32F16 f => Sys2Proof.Machine.execCvtF32F16 f s
  | .cvtF16F32 f => Sys2Proof.Machine.execCvtF16F32 f s
  | .cvtF32Bf16 f => Sys2Proof.Machine.execCvtF32Bf16 f s
  | .cvtBf16F32 f => Sys2Proof.Machine.execCvtBf16F32 f s
  | .cvtF32E4m3 f => Sys2Proof.Machine.execCvtF32E4m3 f s
  | .cvtE4m3F32 f => Sys2Proof.Machine.execCvtE4m3F32 f s
  | .cvtF32E5m2 f => Sys2Proof.Machine.execCvtF32E5m2 f s
  | .cvtE5m2F32 f => Sys2Proof.Machine.execCvtE5m2F32 f s
  | .cvtF32Nf f => Sys2Proof.Machine.execCvtF32Nf f s
  | .cvtNfF32 f => Sys2Proof.Machine.execCvtNfF32 f s
  | .pack4 f => Sys2Proof.Machine.execPack4 f s
  | .unpk4 f => Sys2Proof.Machine.execUnpk4 f s
  | .rcpsd f => Sys2Proof.Machine.execRcpsd f s
  | .rsqsd f => Sys2Proof.Machine.execRsqsd f s
  | .rcp f => Sys2Proof.Machine.execRcp f s
  | .rsq f => Sys2Proof.Machine.execRsq f s
  | .ex2 f => Sys2Proof.Machine.execEx2 f s
  | .lg2 f => Sys2Proof.Machine.execLg2 f s
  | .sinpi f => Sys2Proof.Machine.execSinpi f s
  | .cospi f => Sys2Proof.Machine.execCospi f s
  | .tanh f => Sys2Proof.Machine.execTanh f s
  | .sigm f => Sys2Proof.Machine.execSigm f s
  | .rmax f => Sys2Proof.Machine.execRmax f s
  | .rsum f => Sys2Proof.Machine.execRsum f s
  | .cmax f => Sys2Proof.Machine.execCmax f s
  | .csum f => Sys2Proof.Machine.execCsum f s
  | .mskr f => Sys2Proof.Machine.execMskr f s
  | .ex2m f => Sys2Proof.Machine.execEx2m f s
  | .mov f => Sys2Proof.Machine.execMov f s
  | .movw f => Sys2Proof.Machine.execMovw f s
  | .put g w d k => Sys2Proof.Machine.execPut g w d k s
  | .drop g w => Sys2Proof.Machine.execDrop g w s
  | .bcast f => Sys2Proof.Machine.execBcast f s
  | .iota f => Sys2Proof.Machine.execIota f s
  | .clr f => Sys2Proof.Machine.execClr f s
  | .perm f => Sys2Proof.Machine.execPerm f s
  | .shfx f => Sys2Proof.Machine.execShfx f s
  | .shup f => Sys2Proof.Machine.execShup f s
  | .shdn f => Sys2Proof.Machine.execShdn f s
  | .voteAny f => Sys2Proof.Machine.execVoteAny f s
  | .voteAll f => Sys2Proof.Machine.execVoteAll f s
  | .voteBallot f => Sys2Proof.Machine.execVoteBallot f s
  | .sread w d x => Sys2Proof.Machine.execSread w d x s
  | .lend w => Sys2Proof.Machine.execLend w s
  | .ldB8s f => Sys2Proof.Machine.execLdB8s f s
  | .ldB8z f => Sys2Proof.Machine.execLdB8z f s
  | .ldB16s f => Sys2Proof.Machine.execLdB16s f s
  | .ldB16z f => Sys2Proof.Machine.execLdB16z f s
  | .ldB32 f => Sys2Proof.Machine.execLdB32 f s
  | .ldB64 f => Sys2Proof.Machine.execLdB64 f s
  | .ldV16 f => Sys2Proof.Machine.execLdV16 f s
  | .ldV32 f => Sys2Proof.Machine.execLdV32 f s
  | .ldBf16v f => Sys2Proof.Machine.execLdBf16v f s
  | .ldNfv f => Sys2Proof.Machine.execLdNfv f s
  | .pf f => Sys2Proof.Machine.execPf f s
  | .pfL2 f => Sys2Proof.Machine.execPfL2 f s
  | .stB8 f => Sys2Proof.Machine.execStB8 f s
  | .stB16 f => Sys2Proof.Machine.execStB16 f s
  | .stB32 f => Sys2Proof.Machine.execStB32 f s
  | .stB64 f => Sys2Proof.Machine.execStB64 f s
  | .stV16 f => Sys2Proof.Machine.execStV16 f s
  | .stV32 f => Sys2Proof.Machine.execStV32 f s
  | .stBf16v f => Sys2Proof.Machine.execStBf16v f s
  | .stNfv f => Sys2Proof.Machine.execStNfv f s
  | .atomAdd f => Sys2Proof.Machine.execAtomAdd f s
  | .atomAnd f => Sys2Proof.Machine.execAtomAnd f s
  | .atomOr f => Sys2Proof.Machine.execAtomOr f s
  | .atomXor f => Sys2Proof.Machine.execAtomXor f s
  | .atomMins f => Sys2Proof.Machine.execAtomMins f s
  | .atomMaxs f => Sys2Proof.Machine.execAtomMaxs f s
  | .atomMinn f => Sys2Proof.Machine.execAtomMinn f s
  | .atomMaxn f => Sys2Proof.Machine.execAtomMaxn f s
  | .atomXchg f => Sys2Proof.Machine.execAtomXchg f s
  | .atomfAdd f => Sys2Proof.Machine.execAtomfAdd f s
  | .atomfMin f => Sys2Proof.Machine.execAtomfMin f s
  | .atomfMax f => Sys2Proof.Machine.execAtomfMax f s
  | .cas f => Sys2Proof.Machine.execCas f s
  | .cas64 f => Sys2Proof.Machine.execCas64 f s
  | .redAdd f => Sys2Proof.Machine.execRedAdd f s
  | .redAnd f => Sys2Proof.Machine.execRedAnd f s
  | .redOr f => Sys2Proof.Machine.execRedOr f s
  | .redXor f => Sys2Proof.Machine.execRedXor f s
  | .redMins f => Sys2Proof.Machine.execRedMins f s
  | .redMaxs f => Sys2Proof.Machine.execRedMaxs f s
  | .redMinn f => Sys2Proof.Machine.execRedMinn f s
  | .redMaxn f => Sys2Proof.Machine.execRedMaxn f s
  | .redfAdd f => Sys2Proof.Machine.execRedfAdd f s
  | .redfMin f => Sys2Proof.Machine.execRedfMin f s
  | .redfMax f => Sys2Proof.Machine.execRedfMax f s
  | .redfOrd f => Sys2Proof.Machine.execRedfOrd f s
  | .fenceGrp w => Sys2Proof.Machine.execFenceGrp w s
  | .fenceDev w => Sys2Proof.Machine.execFenceDev w s
  | .fenceSys w => Sys2Proof.Machine.execFenceSys w s
  | .cwb f => Sys2Proof.Machine.execCwb f s
  | .bra w o => Sys2Proof.Machine.execBra w o s
  | .braLong w o => Sys2Proof.Machine.execBraLong w o s
  | .bz g w o => Sys2Proof.Machine.execBz g w o s
  | .bzLong g w o => Sys2Proof.Machine.execBzLong g w o s
  | .bnz g w o => Sys2Proof.Machine.execBnz g w o s
  | .bnzLong g w o => Sys2Proof.Machine.execBnzLong g w o s
  | .bez g w o => Sys2Proof.Machine.execBez g w o s
  | .bezLong g w o => Sys2Proof.Machine.execBezLong g w o s
  | .benz g w o => Sys2Proof.Machine.execBenz g w o s
  | .benzLong g w o => Sys2Proof.Machine.execBenzLong g w o s
  | .call w o => Sys2Proof.Machine.execCall w o s
  | .callLong w o => Sys2Proof.Machine.execCallLong w o s
  | .callx w d => Sys2Proof.Machine.execCallx w d s
  | .ret w => Sys2Proof.Machine.execRet w s
  | .blk w => Sys2Proof.Machine.execBlk w s
  | .strandEnd w => Sys2Proof.Machine.execStrandEnd w s
  | .exit w d => Sys2Proof.Machine.execExit w d s
  | .trap w c => Sys2Proof.Machine.execTrap w c s
  | .brk w c => Sys2Proof.Machine.execBrk w c s
  | .bara w b n => Sys2Proof.Machine.execBara w b n s
  | .barw w b => Sys2Proof.Machine.execBarw w b s
  | .bars w b n => Sys2Proof.Machine.execBars w b n s
  | .barx w b n => Sys2Proof.Machine.execBarx w b n s
  | .sexp g w d => Sys2Proof.Machine.execSexp g w d s
  | .sarr g w d => Sys2Proof.Machine.execSarr g w d s
  | .swait g w d => Sys2Proof.Machine.execSwait g w d s
  | .swaitGe g w d => Sys2Proof.Machine.execSwaitGe g w d s
  | .evpost w n => Sys2Proof.Machine.execEvpost w n s
  | .nop w => Sys2Proof.Machine.execNop w s
  | .ifence w => Sys2Proof.Machine.execIfence w s
  | .stflag w d => Sys2Proof.Machine.execStflag w d s
  | .stflagClr w d => Sys2Proof.Machine.execStflagClr w d s
  | .hintYield w d => Sys2Proof.Machine.execHintYield w d s
  | .hintUrgent w d => Sys2Proof.Machine.execHintUrgent w d s
  | .sAddG g w => Sys2Proof.Machine.execSAddG g w s
  | .sSubG g w => Sys2Proof.Machine.execSSubG g w s
  | .sMulG g w => Sys2Proof.Machine.execSMulG g w s
  | .sMadG g w => Sys2Proof.Machine.execSMadG g w s
  | .sAndG g w => Sys2Proof.Machine.execSAndG g w s
  | .sOrG g w => Sys2Proof.Machine.execSOrG g w s
  | .sXorG g w => Sys2Proof.Machine.execSXorG g w s
  | .sShlG g w => Sys2Proof.Machine.execSShlG g w s
  | .sShrnG g w => Sys2Proof.Machine.execSShrnG g w s
  | .sShrsG g w => Sys2Proof.Machine.execSShrsG g w s
  | .sMinsG g w => Sys2Proof.Machine.execSMinsG g w s
  | .sMaxsG g w => Sys2Proof.Machine.execSMaxsG g w s
  | .sCeqG g w => Sys2Proof.Machine.execSCeqG g w s
  | .sCltsG g w => Sys2Proof.Machine.execSCltsG g w s
  | .sCltnG g w => Sys2Proof.Machine.execSCltnG g w s
  | .sLeaG g w => Sys2Proof.Machine.execSLeaG g w s
  | .sAddImm im w => Sys2Proof.Machine.execSAddImm im w s
  | .sAndImm im w => Sys2Proof.Machine.execSAndImm im w s
  | .sShlImm im w => Sys2Proof.Machine.execSShlImm im w s
  | .sShrnImm im w => Sys2Proof.Machine.execSShrnImm im w s
  | .sShrsImm im w => Sys2Proof.Machine.execSShrsImm im w s
  | .sCeqImm im w => Sys2Proof.Machine.execSCeqImm im w s
  | .sCltsImm im w => Sys2Proof.Machine.execSCltsImm im w s
  | .sMovImm im w => Sys2Proof.Machine.execSMovImm im w s
  | .sFaddG g w => Sys2Proof.Machine.execSFaddG g w s
  | .sFsubG g w => Sys2Proof.Machine.execSFsubG g w s
  | .sFmulG g w => Sys2Proof.Machine.execSFmulG g w s
  | .sFfmaG g w => Sys2Proof.Machine.execSFfmaG g w s
  | .sFfmsG g w => Sys2Proof.Machine.execSFfmsG g w s
  | .sFminG g w => Sys2Proof.Machine.execSFminG g w s
  | .sFmaxG g w => Sys2Proof.Machine.execSFmaxG g w s
  | .sFcltG g w => Sys2Proof.Machine.execSFcltG g w s
  | .sFcleG g w => Sys2Proof.Machine.execSFcleG g w s
  | .sFsaccG g w => Sys2Proof.Machine.execSFsaccG g w s
  | .sMovG g w => Sys2Proof.Machine.execSMovG g w s
  | .sPut1 g w => Sys2Proof.Machine.execSPut1 g w s
  | .sPutSticky g w => Sys2Proof.Machine.execSPutSticky g w s
  | .sLdB32 g w => Sys2Proof.Machine.execSLdB32 g w s
  | .sStB32 g w => Sys2Proof.Machine.execSStB32 g w s
  | .sLdV16 g w => Sys2Proof.Machine.execSLdV16 g w s
  | .sStV16 g w => Sys2Proof.Machine.execSStV16 g w s
  | .sLdB64 g w => Sys2Proof.Machine.execSLdB64 g w s
  | .sStB64 g w => Sys2Proof.Machine.execSStB64 g w s
  | .sBra o w => Sys2Proof.Machine.execSBra o w s
  | .sBez o w => Sys2Proof.Machine.execSBez o w s
  | .sBenz o w => Sys2Proof.Machine.execSBenz o w s
  | .sBlk w => Sys2Proof.Machine.execSBlk w s
  | .sEnd w => Sys2Proof.Machine.execSEnd w s
  | .sNop w => Sys2Proof.Machine.execSNop w s
  | .sCvtF32S32 g w => Sys2Proof.Machine.execSCvtF32S32 g w s
  | .sCvtS32F32 g w => Sys2Proof.Machine.execSCvtS32F32 g w s
  | .sRsqsdG g w => Sys2Proof.Machine.execSRsqsdG g w s
  | .sRcpsdG g w => Sys2Proof.Machine.execSRcpsdG g w s
  | .sEx2G g w => Sys2Proof.Machine.execSEx2G g w s
  | .sDrop g w => Sys2Proof.Machine.execSDrop g w s
  | .sRet w => Sys2Proof.Machine.execSRet w s
  | .talAdd d a b => Sys2Proof.Machine.execTalAdd d a b s
  | .talSub d a b => Sys2Proof.Machine.execTalSub d a b s
  | .talMul d a b => Sys2Proof.Machine.execTalMul d a b s
  | .talMulhs d a b => Sys2Proof.Machine.execTalMulhs d a b s
  | .talAnd d a b => Sys2Proof.Machine.execTalAnd d a b s
  | .talOr d a b => Sys2Proof.Machine.execTalOr d a b s
  | .talXor d a b => Sys2Proof.Machine.execTalXor d a b s
  | .talShl d a b => Sys2Proof.Machine.execTalShl d a b s
  | .talShrn d a b => Sys2Proof.Machine.execTalShrn d a b s
  | .talShrs d a b => Sys2Proof.Machine.execTalShrs d a b s
  | .talMins d a b => Sys2Proof.Machine.execTalMins d a b s
  | .talMaxs d a b => Sys2Proof.Machine.execTalMaxs d a b s
  | .talMinn d a b => Sys2Proof.Machine.execTalMinn d a b s
  | .talMaxn d a b => Sys2Proof.Machine.execTalMaxn d a b s
  | .talSlt d a b => Sys2Proof.Machine.execTalSlt d a b s
  | .talSltn d a b => Sys2Proof.Machine.execTalSltn d a b s
  | .taddi d a im => Sys2Proof.Machine.execTaddi d a im s
  | .tandi d a im => Sys2Proof.Machine.execTandi d a im s
  | .tori d a im => Sys2Proof.Machine.execTori d a im s
  | .txori d a im => Sys2Proof.Machine.execTxori d a im s
  | .tshli d a im => Sys2Proof.Machine.execTshli d a im s
  | .tshri d a im => Sys2Proof.Machine.execTshri d a im s
  | .tslti d a im => Sys2Proof.Machine.execTslti d a im s
  | .tlui d im => Sys2Proof.Machine.execTlui d im s
  | .tld d a b => Sys2Proof.Machine.execTld d a b s
  | .tldD d a b => Sys2Proof.Machine.execTldD d a b s
  | .tst d a b => Sys2Proof.Machine.execTst d a b s
  | .tstD d a b => Sys2Proof.Machine.execTstD d a b s
  | .tatomAdd d a b => Sys2Proof.Machine.execTatomAdd d a b s
  | .tatomAnd d a b => Sys2Proof.Machine.execTatomAnd d a b s
  | .tatomOr d a b => Sys2Proof.Machine.execTatomOr d a b s
  | .tatomXor d a b => Sys2Proof.Machine.execTatomXor d a b s
  | .tatomMins d a b => Sys2Proof.Machine.execTatomMins d a b s
  | .tatomMaxs d a b => Sys2Proof.Machine.execTatomMaxs d a b s
  | .tatomMinn d a b => Sys2Proof.Machine.execTatomMinn d a b s
  | .tatomMaxn d a b => Sys2Proof.Machine.execTatomMaxn d a b s
  | .tatomXchg d a b => Sys2Proof.Machine.execTatomXchg d a b s
  | .tatomCas d a b => Sys2Proof.Machine.execTatomCas d a b s
  | .tbeq a b o => Sys2Proof.Machine.execTbeq a b o s
  | .tbne a b o => Sys2Proof.Machine.execTbne a b o s
  | .tblt a b o => Sys2Proof.Machine.execTblt a b o s
  | .tbge a b o => Sys2Proof.Machine.execTbge a b o s
  | .tjmp o => Sys2Proof.Machine.execTjmp o s
  | .tcall o => Sys2Proof.Machine.execTcall o s
  | .tret => Sys2Proof.Machine.execTret s
  | .push d a => Sys2Proof.Machine.execPush d a s
  | .tqwait im => Sys2Proof.Machine.execTqwait im s
  | .dqput a b => Sys2Proof.Machine.execDqput a b s
  | .evwait d a => Sys2Proof.Machine.execEvwait d a s
  | .evwaitClr d a => Sys2Proof.Machine.execEvwaitClr d a s
  | .evroute a b => Sys2Proof.Machine.execEvroute a b s
  | .tswait d a b => Sys2Proof.Machine.execTswait d a b s
  | .tsexp a b => Sys2Proof.Machine.execTsexp a b s
  | .frz d a b => Sys2Proof.Machine.execFrz d a b s
  | .thaw a => Sys2Proof.Machine.execThaw a s
  | .thwait a => Sys2Proof.Machine.execThwait a s
  | .publ a => Sys2Proof.Machine.execPubl a s
  | .setfmt a k => Sys2Proof.Machine.execSetfmt a k s
  | .setxv a k => Sys2Proof.Machine.execSetxv a k s
  | .ratio d => Sys2Proof.Machine.execRatio d s
  | .rreq a => Sys2Proof.Machine.execRreq a s
  | .tbarArv a b => Sys2Proof.Machine.execTbarArv a b s
  | .tbarSync a b => Sys2Proof.Machine.execTbarSync a b s
  | .tread d n => Sys2Proof.Machine.execTread d n s
  | .gdone => Sys2Proof.Machine.execGdone s
  | .ttrap c => Sys2Proof.Machine.execTtrap c s
  | .tfenceGrp => Sys2Proof.Machine.execTfenceGrp s
  | .tfenceDev => Sys2Proof.Machine.execTfenceDev s
  | .tfenceSys => Sys2Proof.Machine.execTfenceSys s
  | .sfmode m => Sys2Proof.Machine.execSfmode m s
  | .tnop => Sys2Proof.Machine.execTnop s
  | .copy cmd => Sys2Proof.Machine.execCopy cmd s
  | .gather cmd => Sys2Proof.Machine.execGather cmd s
  | .matrix cmd => Sys2Proof.Machine.execMatrix cmd s
  | .table cmd => Sys2Proof.Machine.execTable cmd s
  | .shadow cmd => Sys2Proof.Machine.execShadow cmd s
  | .collectReduce cmd => Sys2Proof.Machine.execCollectReduce cmd s
  | .collectBroadcast cmd => Sys2Proof.Machine.execCollectBroadcast cmd s
  | .collectAllGather cmd => Sys2Proof.Machine.execCollectAllGather cmd s
  | .collectReduceScatter cmd => Sys2Proof.Machine.execCollectReduceScatter cmd s
  | .copyRunPerformed cmd => Sys2Proof.Machine.execCopyRunPerformed cmd s
  | .matrixStep cmd => Sys2Proof.Machine.execMatrixStep cmd s
  | .commandComplete cmd => Sys2Proof.Machine.execCommandComplete cmd s
  | .commandResume cmd => Sys2Proof.Machine.execCommandResume cmd s
  | .eventFire core out => Sys2Proof.Machine.execEventFire core out s
  | .tellerWake gid => Sys2Proof.Machine.execTellerWake gid s
  | .formBundle core => Sys2Proof.Machine.execFormBundle core s
  | .promote gid tid n => Sys2Proof.Machine.execPromote gid tid n s
  | .hintExpire gid tid n => Sys2Proof.Machine.execHintExpire gid tid n s
  | .registerPresent gid tid g => Sys2Proof.Machine.execRegisterPresent gid tid g s
  | .resultLands gid tid n => Sys2Proof.Machine.execResultLands gid tid n s
  | .loadReturn bundle => Sys2Proof.Machine.execLoadReturn bundle s
  | .accessPerformed acc scope => Sys2Proof.Machine.execAccessPerformed acc scope s
  | .coinDeadlock gid => Sys2Proof.Machine.execCoinDeadlock gid s
  | .threadRetire gid tid => Sys2Proof.Machine.execThreadRetire gid tid s
  | .groupComplete gid => Sys2Proof.Machine.execGroupComplete gid s
  | .codeLineFill core ctx line => Sys2Proof.Machine.execCodeLineFill core ctx line s
  | .l1ReadMiss acc => Sys2Proof.Machine.execL1ReadMiss acc s
  | .l1WriteMiss acc => Sys2Proof.Machine.execL1WriteMiss acc s
  | .homeAtomic acc => Sys2Proof.Machine.execHomeAtomic acc s
  | .l1Eviction core key => Sys2Proof.Machine.execL1Eviction core key s
  | .l2Eviction key => Sys2Proof.Machine.execL2Eviction key s
  | .engineRead cmd => Sys2Proof.Machine.execEngineRead cmd s
  | .engineWrite cmd => Sys2Proof.Machine.execEngineWrite cmd s
  | .l2MissTranslate acc => Sys2Proof.Machine.execL2MissTranslate acc s
  | .pageWalkDone acc => Sys2Proof.Machine.execPageWalkDone acc s
  | .remoteRequest r => Sys2Proof.Machine.execRemoteRequest r s
  | .nimbusFlit f => Sys2Proof.Machine.execNimbusFlit f s
  | .refreshSlot => Sys2Proof.Machine.execRefreshSlot s
  | .migrationStart ctx va => Sys2Proof.Machine.execMigrationStart ctx va s
  | .migrationSwitch => Sys2Proof.Machine.execMigrationSwitch s
  | .switchOut col => Sys2Proof.Machine.execSwitchOut col s
  | .stopColumn col reason => Sys2Proof.Machine.execStopColumn col reason s
  | .saveRecordWrite col => Sys2Proof.Machine.execSaveRecordWrite col s
  | .lateFault acc => Sys2Proof.Machine.execLateFault acc s
  | .saveSlotFreed ctx => Sys2Proof.Machine.execSaveSlotFreed ctx s
  | .freezeRequest => Sys2Proof.Machine.execFreezeRequest s
  | .freezeRange id slice => Sys2Proof.Machine.execFreezeRange id slice s
  | .freezeAck id chip => Sys2Proof.Machine.execFreezeAck id chip s
  | .thawRequest => Sys2Proof.Machine.execThawRequest s
  | .dropAck id chip => Sys2Proof.Machine.execDropAck id chip s
  | .unmark id slice => Sys2Proof.Machine.execUnmark id slice s
  | .unmarkAck id chip => Sys2Proof.Machine.execUnmarkAck id chip s
  | .publish ctx pair => Sys2Proof.Machine.execPublish ctx pair s
  | .stagingWrite ctx off data => Sys2Proof.Machine.execStagingWrite ctx off data s
  | .launchSubmit ctx off data => Sys2Proof.Machine.execLaunchSubmit ctx off data s
  | .launchAccept => Sys2Proof.Machine.execLaunchAccept s
  | .captureInputs launch => Sys2Proof.Machine.execCaptureInputs launch s
  | .placeColumn => Sys2Proof.Machine.execPlaceColumn s
  | .preempt => Sys2Proof.Machine.execPreempt s
  | .placementBlockTimeout => Sys2Proof.Machine.execPlacementBlockTimeout s
  | .launchComplete launch => Sys2Proof.Machine.execLaunchComplete launch s
  | .rearbitrate => Sys2Proof.Machine.execRearbitrate s
  | .grantChange => Sys2Proof.Machine.execGrantChange s
  | .thermalStep temps => Sys2Proof.Machine.execThermalStep temps s
  | .telemetrySample power temps => Sys2Proof.Machine.execTelemetrySample power temps s
  | .sweep ctx v => Sys2Proof.Machine.execSweep ctx v s
  | .sweepDone ctx => Sys2Proof.Machine.execSweepDone ctx s
  | .ptseqWrite ctx v => Sys2Proof.Machine.execPtseqWrite ctx v s
  | .replay ctx v => Sys2Proof.Machine.execReplay ctx v s
  | .replayWalk ctx fid => Sys2Proof.Machine.execReplayWalk ctx fid s
  | .swmEnter ctx => Sys2Proof.Machine.execSwmEnter ctx s
  | .swmReturn ctx => Sys2Proof.Machine.execSwmReturn ctx s
  | .swmSwitchDone ctx => Sys2Proof.Machine.execSwmSwitchDone ctx s
  | .grpResume ctx slot => Sys2Proof.Machine.execGrpResume ctx slot s
  | .grpDiscard ctx slot => Sys2Proof.Machine.execGrpDiscard ctx slot s
  | .biasToHost v => Sys2Proof.Machine.execBiasToHost v s
  | .biasToDevice v => Sys2Proof.Machine.execBiasToDevice v s
  | .flipStart => Sys2Proof.Machine.execFlipStart s
  | .flipDone => Sys2Proof.Machine.execFlipDone s
  | .birsp half data => Sys2Proof.Machine.execBirsp half data s
  | .hostMemRead addr n => Sys2Proof.Machine.execHostMemRead addr n s
  | .hostMemWrite addr data => Sys2Proof.Machine.execHostMemWrite addr data s
  | .snpData hpa => Sys2Proof.Machine.execSnpData hpa s
  | .snpInv hpa => Sys2Proof.Machine.execSnpInv hpa s
  | .snpCur hpa => Sys2Proof.Machine.execSnpCur hpa s
  | .hostLineFill key own => Sys2Proof.Machine.execHostLineFill key own s
  | .quiesceStart => Sys2Proof.Machine.execQuiesceStart s
  | .quiescePhase1Done => Sys2Proof.Machine.execQuiescePhase1Done s
  | .peerPhase1 chip => Sys2Proof.Machine.execPeerPhase1 chip s
  | .quiesceEnd => Sys2Proof.Machine.execQuiesceEnd s
  | .imgcmd v => Sys2Proof.Machine.execImgcmd v s
  | .restore v => Sys2Proof.Machine.execRestore v s
  | .dbgStop page core brkstop => Sys2Proof.Machine.execDbgStop page core brkstop s
  | .dbgRun page core brkstop => Sys2Proof.Machine.execDbgRun page core brkstop s
  | .dbgStep page core steps brkstop => Sys2Proof.Machine.execDbgStep page core steps brkstop s
  | .dbgStepExpire core => Sys2Proof.Machine.execDbgStepExpire core s
  | .dbgDump page v => Sys2Proof.Machine.execDbgDump page v s
  | .profclr v => Sys2Proof.Machine.execProfclr v s
  | .chConfigWrite reg v => Sys2Proof.Machine.execChConfigWrite reg v s
  | .chdump v => Sys2Proof.Machine.execChdump v s
  | .ctxCreate v => Sys2Proof.Machine.execCtxCreate v s
  | .ctxDestroy v => Sys2Proof.Machine.execCtxDestroy v s
  | .ringConfigWrite ctx ring off size v => Sys2Proof.Machine.execRingConfigWrite ctx ring off size v s
  | .wsWindowWrite off data => Sys2Proof.Machine.execWsWindowWrite off data s
  | .routeWrite v => Sys2Proof.Machine.execRouteWrite v s
  | .commcfgWrite v => Sys2Proof.Machine.execCommcfgWrite v s
  | .pwrcapWrite v => Sys2Proof.Machine.execPwrcapWrite v s
  | .fwBegin => Sys2Proof.Machine.execFwBegin s
  | .fwAppend => Sys2Proof.Machine.execFwAppend s
  | .fwEnd => Sys2Proof.Machine.execFwEnd s
  | .attest v => Sys2Proof.Machine.execAttest v s
  | .registerWrite page off size v => Sys2Proof.Machine.execRegisterWrite page off size v s
  | .functionLevelReset => Sys2Proof.Machine.execFunctionLevelReset s
  | .coldReset => Sys2Proof.Machine.execColdReset s
  | .flashDrop id => Sys2Proof.Machine.execFlashDrop id s
  | .ringConsWrite ctx ring v => Sys2Proof.Machine.execRingConsWrite ctx ring v s
  | .linkDown link => Sys2Proof.Machine.execLinkDown link s
  | .linkUp link => Sys2Proof.Machine.execLinkUp link s
  | .powerLoss => Sys2Proof.Machine.execPowerLoss s
  | .illegalTellerWord word => Sys2Proof.Machine.execIllegalTellerWord word s
  | .migrationEpochEnd => Sys2Proof.Machine.execMigrationEpochEnd s

end Sys2Proof.Machine
end

