-- ==== Sys2Proof/Machine/Bus.lean ====
section
/-! DEFINITION. The function on the host's bus: its class code, its BARs, the pages that their offsets reach, and the event of the table that
a write of the host is: 23_host_pod R408 to R412. As the decoder does, what names the instructions past the 244th is marked noncomputable;
Lean's kernel evaluates it. -/

namespace Sys2Proof.Machine

/-- The class code: processing accelerator (R408). -/
def classCode : Nat := 0x120000
/-- Bytes of a BAR; 0 for one that the function does not have (R408). -/
def barBytes (bar : Nat) : Nat := match bar with | 0 => 2 ^ 20 | 2 => 2 ^ 21 | _ => 0
/-- The page that an offset of a BAR reaches, and the offset within it: of BAR2, context k's launch window at 8 KiB × k and its control page
4 KiB behind it (R408). -/
def pageOf (bar off : Nat) : Option (RegPage × Nat) :=
  if barBytes bar ≤ off then none
  else if bar = 0 then some (.bar0, off)
  else if off % 8192 < 4096 then some (.window (off / 8192), off % 8192)
  else some (.control (off / 8192), off % 8192 - 4096)

noncomputable section

/-- A write of DBGCTL through a page (R399). -/
def dbgInstr (page : Option Nat) (v : BitVec 64) : Instr :=
  let core := dbgCore v
  let brk := dbgBrk v
  match v.extractLsb' 8 2 with
  | 0 => .dbgStop page core brk
  | 1 => .dbgRun page core brk
  | 2 => .dbgStep page core (v.extractLsb' 16 16).toNat brk
  | _ => .dbgDump page v

/-- A write of a whole 8-byte register of BAR0 that starts an action (R409, R410; log 91); none for any other register. -/
def bar0Action (off : Nat) (v : BitVec 64) : Option Instr :=
  match off with
  | 0x020 => some (if v.getLsbD 0 then .ctxDestroy v else .ctxCreate v)
  | 0x038 => some (.pwrcapWrite v)
  | 0x048 => if v &&& 3 = 1 then some .quiesceStart else if v &&& 3 = 2 then some .quiesceEnd else none
  | 0x058 => some (.imgcmd v)
  | 0x060 => some (.restore v)
  | 0x070 => some (if v.getLsbD 40 then .biasToHost v else .biasToDevice v)
  | 0x080 => some (dbgInstr none v)
  | 0x0B8 => some (.profclr v)
  | 0x180 => some (.chConfigWrite 0 v)
  | 0x188 => some (.chConfigWrite 1 v)
  | 0x190 => some (.chConfigWrite 2 v)
  | 0x198 => some (.chdump v)
  | 0x208 => some (.routeWrite v)
  | 0x210 => some (.commcfgWrite v)
  | 0x320 => some (.attest v)
  | 0x340 =>
    match v.extractLsb' 0 2 with
    | 1 => some .fwBegin
    | 2 => some .fwAppend
    | 3 => some .fwEnd
    | _ => none
  | _ => none

/-- A write of a whole 8-byte register of a control page that starts an action (R409, R412); none for any other register. -/
def controlAction (ctx off : Nat) (v : BitVec 64) : Option Instr :=
  match off with
  | 0x008 => some (.sweep ctx v)
  | 0x018 => some (.ptseqWrite ctx (v.extractLsb' 0 32))
  | 0x020 => some (.replay ctx v)
  | 0x040 => some (if v.getLsbD 0 then .swmEnter ctx else .swmReturn ctx)
  | 0x060 =>
    match v.extractLsb' 16 2 with
    | 0 => some (.grpResume ctx (v.extractLsb' 0 16).toNat)
    | 1 => some (.grpDiscard ctx (v.extractLsb' 0 16).toNat)
    | _ => none
  | 0x0A0 => some (dbgInstr (some ctx) v)
  | _ => none

/-- A write of 4 bytes that starts an action: PTSEQ and a ring's CONS have 32 bits, and PROFCLR needs its bit 0 only (R405, R409, R412). -/
def wordAction (page : RegPage) (off : Nat) (w : Word) : Option Instr :=
  match page with
  | .bar0 => if off = 0x0B8 then some (.profclr (w.setWidth 64)) else none
  | .control ctx =>
    if off = 0x018 then some (.ptseqWrite ctx w)
    else if 0x100 ≤ off ∧ off < 0x180 ∧ off % 32 = 20 then some (.ringConsWrite ctx ((off - 0x100) / 32) w)
    else none
  | .window _ => none

/-- A write within a ring descriptor's BASE and LOG2N (R412). -/
def ringAction (page : RegPage) (off size : Nat) (v : BitVec 64) : Option Instr :=
  match page with
  | .control ctx =>
    if 0x100 ≤ off ∧ off < 0x180 ∧ off % 32 + size ≤ 16 then some (.ringConfigWrite ctx ((off - 0x100) / 32) (off % 32) size v) else none
  | _ => none

/-- The event of the table that a host write of bytes to a page is (R74, R75, R409, R412). -/
def pageWrite (page : RegPage) (off : Nat) (data : List Byte) : Instr :=
  let v : BitVec 64 := BitVec.ofNat 64 (leNat data)
  let size := data.length
  let action : Option Instr := match page, size with
    | .bar0, 8 => bar0Action off v
    | .control ctx, 8 => controlAction ctx off v
    | p, 4 => wordAction p off (v.extractLsb' 0 32)
    | _, _ => none
  match page with
  | .window ctx => if off < 0x100 ∧ 0xF8 < off + size then .launchSubmit ctx off data else .stagingWrite ctx off data
  | .bar0 => if 0xF0000 ≤ off then .wsWindowWrite (off - 0xF0000) data else action.getD (.registerWrite page off size v)
  | .control _ => (action.or (ringAction page off size v)).getD (.registerWrite page off size v)

/-- The event of the table that a host write at an offset of a BAR is; none where no BAR is. -/
def busInstr (bar off : Nat) (data : List Byte) : Option Instr := (pageOf bar off).map fun p => pageWrite p.1 p.2 data

end

/-- What a host read at an offset of a BAR gives (R408, R409); zero where no BAR is. -/
def State.busRead (s : State) (bar off size : Nat) : BitVec 64 :=
  match pageOf bar off with | some (p, o) => s.readReg p o size | none => 0

end Sys2Proof.Machine
end

