-- ==== Sys2Proof/Machine/Clock.lean ====
section
/-! DEFINITION. One cycle of the 2.6 GHz reference clock: TIME, the vector cycles of the dies, what advances with them: 00_scope R4;
01_work R43; 06_issue R127, R134, R135; 08_arith R183; 10_memory R220; 22_retire_debug R400, R403. -/

namespace Sys2Proof.Machine

/-! ## What a vector cycle counts -/

/-- A strand is stalled in the sense of R220. -/
def Runner.stalls (r : Runner) : Bool :=
  r.held.any fun x => x == .absent || x == .coins || x == .dq || x == .barrier || x == .crew || x == .sync
/-- A strand one vector cycle later: its wait, which ends its promotion when it starts again from 0 (R127), and its stall count
(R220). -/
def Strand.aged (st : Strand) (r : Option Runner) : Strand :=
  let waits := match r with | some r => r.waiting | none => false
  let stalls := match r with | some r => r.stalls | none => false
  { st with wait := if waits then st.wait + 1 else 0, promoted := st.promoted && waits, stalled := if stalls then st.stalled + 1 else 0 }
/-- A group one vector cycle later: CYCLE (R183), its coin-deadlock count (R135), its strands. -/
def State.agedGroup (s : State) (rs : List Runner) (g : Group) : Group :=
  let runner (tid n : Nat) : Option Runner := rs.find? fun r => r.lane.gid == g.id && r.lane.tid == tid && r.lane.st.n == n
  let thread (t : Thread) : Thread := { t with strands := t.strands.map fun st => st.aged (runner t.tid st.n) }
  { g with cycle := (g.cycle + 1) % 2 ^ 64, deadlock := if s.coinStuck g then g.deadlock + 1 else 0, threads := g.threads.map thread }

/-- The vector cycle of a core that ends: its trace records go to their rings; a stopped cycle counts in PERTURB when the trace alone
stalls it (R403), and any other ages its groups and its STEPS (R400). -/
def State.ageCore (s : State) (core : Nat) : State :=
  let s := if (s.coreAt core).traceQ.isEmpty then s else s.flushTrace core (s.coreAt core).traceQ
  let k := s.coreAt core
  if k.standsStill then
    let still (g : Group) : Group := { g with deadlock := 0 }
    let s := { s with groups := updWhere (·.core == core) still s.groups }
    if k.stopped then s else s.modCore core fun k => { k with perturb := (k.perturb + 1) % 2 ^ 64 }
  else
    let s := if s.groups.any (·.core == core) then
      let rs := s.runners core
      { s with groups := updWhere (·.core == core) (s.agedGroup rs) s.groups }
    else s
    match k.stepsLeft with
    | some (n + 1) => s.modCore core fun k => { k with stepsLeft := some n }
    | _ => s

/-! ## The teller pipeline (R134) -/

/-- The teller's next word is in the code store. -/
def State.tellerFetched (s : State) (g : Group) : Bool :=
  (s.codeLine? g.core (s.ctxAt g.ctx).asid (g.teller.pc.toNat / 128)).isSome
/-- The context served on a teller cycle: in rotation, ascending from the one after the last (R134). -/
def State.nextTeller (s : State) (core : Nat) : Option Group :=
  let go := s.groups.filter fun g => g.core == core && s.tellerReady g && s.tellerFetched g
  let last := (s.coreAt core).lastTctx
  (List.range 8).findSome? fun i => go.find? fun g => g.tctx == (last + 1 + i) % 8
/-- A stop asked of a core takes effect now, at its bundle slot (R400). -/
def State.stopsNow (s : State) (core : Nat) : Bool := (s.coreAt core).stopAsked && s.cycle core % 4 == 0
/-- The teller cycle of a core that begins: one teller instruction is to issue. -/
def State.serveTeller (s : State) (core : Nat) : State :=
  if s.coreHeld core || s.stopsNow core then s
  else
    match s.nextTeller core with
    | none => s
    | some g =>
      let s := s.dropOnce core |>.useLine core (s.ctxAt g.ctx).asid (g.teller.pc.toNat / 128)
      { s with issue := s.issue ++ [Machine.Issue.teller g.id] }.modCore core fun k => { k with tellerAt := some (s.cycle core), lastTctx := g.tctx }

/-! ## The reference clock (R2, R4) -/

/-- The cores of a die. -/
def coresOf (die : Nat) : List Nat := (List.range 40).map (· + 40 * die)
/-- A die's vector cycle ends and the next begins. -/
def State.vectorCycle (s : State) (die : Nat) : State :=
  let s := (coresOf die).foldl State.ageCore s
  let next (d : Die) : Die := { d with cycle := d.cycle + 1 }
  (coresOf die).foldl State.serveTeller { s with dies := s.dies.modify die next }
/-- One reference cycle of a die: its vector clock runs at its ratio in sixteenths of the reference clock (R4, R91). -/
def State.tickDie (s : State) (die : Nat) : State :=
  let phase := (match s.dies[die]? with | some d => d.phase | none => 0) + s.exch.clocks.vec.getD die 4
  let at_ (d : Die) : Die := { d with phase := phase % 16 }
  let s := { s with dies := s.dies.modify die at_ }
  if 16 ≤ phase then s.vectorCycle die else s
/-- The coordinator's TIME reaches this device: its own slews toward it by 1 ns, at most once a microsecond: ahead, or, since it never
decreases, by a nanosecond that lasts twice as long (R417, log 139). -/
def State.slew (s : State) (coord : Nat) : State :=
  if s.isCoord || s.fw.step == 0 || s.time == coord || decide (s.time < s.slewed + 1000) then s
  else if s.time < coord then { s with time := s.time + 1, slewed := s.time + 1 }
  else { s with slewBack := true, slewed := s.time }
/-- One cycle of the reference clock: 13 make 5 ns of TIME. Launch slots go to the blocks that arrived on it (R76), a flash write that was in
progress is done, bring-up takes a step; without power nothing runs. -/
def State.tick (s : State) : State :=
  if s.fw.step = 0 then s
  else
    let phase := s.timePhase + 5
    let ns := if s.slewBack then 26 else 13
    let s := { s.takeSlots with fw := { s.fw with writing := false } }.bringUp
    let s := if ns ≤ phase then { s with timePhase := phase - ns, time := s.time + 1, slewBack := false } else { s with timePhase := phase }
    (List.range Config.dies).foldl State.tickDie s

end Sys2Proof.Machine
end

