-- ==== Sys2Proof/Machine/Fetch.lean ====
section
/-! DEFINITION. What the next issue executes: the bytes at a program counter and the instruction they decode to (05_encoding R93, R97, R108
to R112), what a bundle of bytes that are no instruction does (R109), and the probe that stands for a loaded program (log 6). -/

namespace Sys2Proof.Machine

/-! ## Bundles that are no instruction (R109) -/

/-- The threads of the current bundle that nothing holds, for an instruction that uses `u`. -/
def State.readyFor (s : State) (u : Use) : List Lane :=
  match s.cur with
  | some (.bundle core n pc members) =>
    (members.filterMap (s.lane? n)).filter fun l => l.t.running n && l.st.pc == pc && (s.holds core l u).isEmpty
  | _ => []
/-- A bundle of bytes that are no instruction: each of its threads takes the illegal-instruction trap (R109). -/
def State.illegalBundle (s : State) (u : Use) : State := (s.readyFor u).foldl (fun s l => s.refuse l .illegal) s

/-- The ASID under which a bundle's code is fetched. -/
def State.bundleAsid (s : State) (members : List (GroupId × Nat)) : Nat :=
  match members.head?.bind fun m => s.group? m.1 with
  | some g => (s.ctxAt g.ctx).asid
  | none => 0

/-- The word at a teller's program counter, when its line is in the code store (R32, R108). -/
def State.tellerWordAt (s : State) (g : Group) : Option Word :=
  (s.codeLine? g.core (s.ctxAt g.ctx).asid (g.teller.pc.toNat / 128)).map fun l =>
    wordOf (((lineBytes l.data).drop (g.teller.pc.toNat % 128)).take 4)

/-! ## Decoding what is fetched -/

/-- What stands at a strand's program counter. -/
inductive AtPc where
  | missing
  | illegal (u : Use)
  | instr (i : Instr)

noncomputable section

/-- The instruction of a strand at a program counter of a core, decoded from its code store (R97). -/
def State.instrAt (s : State) (core asid : Nat) (pc : Addr) : AtPc :=
  match s.fetch core asid pc with
  | .missing _ => .missing
  | .bad => .illegal {}
  | .form f =>
    match f.instr with
    | .ok i => if i.wf then .instr i else .illegal f.use
    | .error _ => .illegal f.use

/-- The instruction a teller's word decodes to; any other word is an illegal one (R112). -/
def tellerInstr (w : Word) : Instr :=
  match decodeTeller w with
  | .ok i => if i.wf then i else .illegalTellerWord w
  | .error _ => .illegalTellerWord w

end

/-! ## The probe (log 6) -/

/-- The bytes of an instruction of `nbits` bits, its first word in the low bits of `w`, zeros after it; a teller word is one little-endian
word, the other 32-bit words are two parcels, the one with the opcode first (R97, R101, R110). -/
def probeBytes (nbits w : Nat) : List Byte :=
  if nbits = 16 ∨ 0xC0 ≤ w / 2 ^ 24 then leBytes 128 (w % 2 ^ nbits) else leBytes 128 (w / 2 ^ 16 % 2 ^ 16 + 2 ^ 16 * (w % 2 ^ 16))
/-- A teller's word. -/
def isTellerWord (nbits w : Nat) : Bool := nbits == 32 && decide (0xC0 ≤ w / 2 ^ 24)
/-- A group of one thread on core 0, at program counter 0, with every register present and sticky, a decision-queue entry to read, and all
its barriers. -/
def probeGroup (launch : Nat) : Group :=
  let greg : GReg := { GReg.reset with p := true }
  let bar : Barrier :=
    { phase := 0, cnt := 0, expect := 1, arrive := 0, tarr := false, twait := false, arrived := [], waiting := [], left := [], before := [],
      owed := [] }
  { id := { launch := launch, col := 0, stage := 0 }, core := 0, tctx := 0, ctx := 0, launchId := 0, gx := 0, gy := 0, gz := 0, nx := 1, ny := 1,
    nz := 1, t := 1, kernel := { kidx := 0, smask := 1, ngpr := 64, nbar := 16, dqd := 64 }, turns := [0], check := false,
    fixedOrder := false, seg := List.replicate 7 0, wbase := 0, wsize := 1024, nf := List.replicate 8 fmtReset, sfmode := false,
    nfOld := List.replicate 8 fmtReset, sfOld := false, fmtAt := 0, cycle := 0, dq := [{ seq := 0, value := 0, readers := 1 }], dqNext := 1,
    bars := List.replicate 16 bar, threads :=
      [{ tid := 0, gregs := List.replicate 64 greg, strands := [Strand.start 0 0 0], status := 0, exited := false, retired := false }],
    teller := { s := List.replicate 64 0, pc := 0, rstack := [], wake := 0, wait := none, ready := 0, isDefault := false, done := false,
                parked := none, after := [] },
    credits := List.replicate 7 0, pushed := 0, deadlock := 0, status := 0, stany := false, masks := [] }
/-- Its column, with a window of 1 KiB. -/
def probeColumn (launch : Nat) : Column :=
  { id := { launch := launch, col := 0 }, core := 0, ctx := 0, wbase := 0, wsize := 1024, missing := 0, stop := none }
/-- The code line that holds it. -/
def probeLine (asid nbits w : Nat) : CodeLine :=
  { core := 0, key := { line := 0, asid := some asid }, data := lineOf (probeBytes nbits w), typ := .local, place := .lpddr 0, vtag := none,
    stamp := 0, once := false, used := false }

end Sys2Proof.Machine
end

