-- ==== Sys2Proof/Machine/Step.lean ====
section
/-! DEFINITION. One step of the machine: an issue, an event that is due, an agent's turn, or a cycle of the reference clock (log 3). -/

namespace Sys2Proof.Machine

noncomputable section

/-! ## Issues -/

/-- The state after a step with the current issue over. -/
def settle (o : Out) : Out :=
  match o with
  | .next s => .next { s with cur := none }
  | .fault f => .fault f
  | .refused r => .refused r

/-- Executes one issue: what stands at the bundle's program counter, or at the teller's. -/
def State.runIssue (s : State) (i : Issue) : Out :=
  let s := { s with cur := some i }
  settle <| match i with
    | .bundle core _ pc members =>
      match s.instrAt core (s.bundleAsid members) pc with
      | .missing => .next s
      | .illegal u => .next (s.illegalBundle u)
      | .instr i => exec i s
    | .teller gid =>
      match s.group? gid with
      | none => .next s
      | some g =>
        match s.tellerWordAt g with
        | none => .next s
        | some w => exec (tellerInstr w) s

/-! ## What the device does by itself -/

/-- What falls due at its time: results, `put`s, hints, promotions, loads' returns, late faults, coin deadlocks, outputs of events that
fire (R310), the weight store's refresh slot (R209), the end of a STEPS run. -/
def State.dueEvents (s : State) : List Instr :=
  (s.groups.flatMap fun g => g.threads.flatMap fun t =>
    (t.strands.flatMap fun st =>
      (if st.pend.any fun p => decide (p.due ≤ s.cycle g.core) then [Instr.resultLands g.id t.tid st.n] else []) ++
      (if st.hintOver (s.cycle g.core) then [.hintExpire g.id t.tid st.n] else []) ++
      (if st.promotes then [.promote g.id t.tid st.n] else [])) ++
    (t.gregs.zipIdx.filter fun r => r.1.arrives (s.cycle g.core)).map fun r => .registerPresent g.id t.tid r.2) ++
  (s.accs.map fun a => .loadReturn a.bundle) ++ (s.accs.filter (·.isFaulted)).map (fun a => .lateFault a.id) ++
  s.groups.map (fun g => .coinDeadlock g.id) ++ (s.routes.filter Route.fires).map (fun r => .eventFire r.core r.out) ++ [.refreshSlot] ++
  ((List.range Config.cores).filter fun k => (s.coreAt k).stepsLeft == some 0).map fun k => .dbgStepExpire k

/-- The code lines that cores have requested, and those that strands and tellers need (R94). -/
def State.codeEvents (s : State) : List Instr :=
  s.codeReqs.map (fun r => .codeLineFill r.core r.ctx r.line) ++ (s.groups.flatMap fun g =>
    (if !g.teller.isDefault && !g.teller.done then [Instr.codeLineFill g.core g.ctx (g.teller.pc.toNat / 128)] else []) ++
    ((s.lanesOn g.core).filter (·.gid == g.id)).flatMap fun l =>
      match s.fetch g.core (s.ctxAt g.ctx).asid l.st.pc with | .missing line => [.codeLineFill g.core g.ctx line] | _ => [])

/-- What the accesses in flight do next (R205, R213, R228). -/
def State.accessEvents (s : State) : List Instr :=
  s.accs.flatMap fun a =>
    [.l2MissTranslate a.id, .pageWalkDone a.id, .l1ReadMiss a.id, .l1WriteMiss a.id, .homeAtomic a.id, .accessPerformed a.id .grp,
     .accessPerformed a.id .dev, .accessPerformed a.id .sys]

/-- What the engines do next (R288, R292, R308, R315). -/
def State.engineEvents (s : State) : List Instr :=
  (s.cmds.flatMap fun c =>
    [.commandResume c.id, .copy c.id, .gather c.id, .matrix c.id, .table c.id, .shadow c.id, .collectReduce c.id, .collectBroadcast c.id,
     .collectAllGather c.id, .collectReduceScatter c.id, .engineRead c.id, .copyRunPerformed c.id, .engineWrite c.id, .matrixStep c.id,
     .commandComplete c.id]) ++
  s.shadows.map fun p => .publish p.ctx p.id

/-- Tellers that wake, threads that retire, groups that complete. -/
def State.groupEvents (s : State) : List Instr :=
  s.groups.flatMap fun g => .tellerWake g.id :: (g.threads.map fun t => .threadRetire g.id t.tid) ++ [.groupComplete g.id]

/-- The freeze protocol of this device (R347, R349). -/
def State.freezeEvents (s : State) : List Instr :=
  .freezeRequest :: .thawRequest :: s.freezes.flatMap fun f =>
    ((List.range 288).map fun k => .freezeRange f.id k) ++ [.freezeAck f.id s.chip, .flashDrop f.id, .dropAck f.id s.chip] ++
    ((List.range 288).map fun k => .unmark f.id k) ++ [.unmarkAck f.id s.chip]

/-- Columns that stop, are saved, are switched out (R220, R371, R374). -/
def State.columnEvents (s : State) : List Instr :=
  (s.columns.flatMap fun c =>
    [.switchOut c.id, .stopColumn c.id .preempt, .stopColumn c.id .switchOut, .stopColumn c.id .trap, .stopColumn c.id .quiesce,
     .saveRecordWrite c.id]) ++
  (List.range 256).flatMap fun k => if (s.ctxAt k).exist then [.saveSlotFreed k] else []

/-- Launches, placement, the exchange (R76, R81 to R92, R395, R396). -/
def State.launchEvents (s : State) : List Instr :=
  .launchAccept :: (s.launches.map fun l => .captureInputs l.seq) ++ [.placementBlockTimeout, .preempt, .placeColumn] ++
    (s.launches.map fun l => .launchComplete l.seq) ++ [.rearbitrate, .grantChange]

/-- Sweeps, replays, switches of regions, flips, a page being moved, the quiesce, requests of other chips. -/
def State.deviceEvents (s : State) : List Instr :=
  ((List.range 256).flatMap fun k => if (s.ctxAt k).exist then [.sweepDone k, .swmSwitchDone k] else []) ++
  (s.faults.map fun f => .replayWalk f.ctx f.fid) ++ [.flipStart, .flipDone, .migrationSwitch, .quiescePhase1Done] ++
  s.linkRx.flatMap fun x => match x.queue with | .request r :: _ => [.remoteRequest r] | _ => []

/-- The bundle slots that have come (R122). -/
def State.slotEvents (s : State) : List Instr := ((List.range Config.cores).filter s.slotDue).map .formBundle

/-- Everything the device may do by itself in a state, in the order in which this model tries it (log 3). -/
def State.ownEvents (s : State) : List Instr :=
  s.columnEvents ++ s.codeEvents ++ s.accessEvents ++ s.engineEvents ++ s.groupEvents ++ s.freezeEvents ++ s.launchEvents ++
    s.deviceEvents ++ s.slotEvents

/-- The first of these events that changes the state. -/
def State.firstOf (s : State) : List Instr → Option Out
  | [] => none
  | i :: rest =>
    match exec i s with
    | .next t => if t = s then s.firstOf rest else some (.next t)
    | o => some o

/-- The event of the table that waited for memory. -/
def LateEvent.instr (e : LateEvent) : Instr :=
  match e with
  | .ptseq ctx v => .ptseqWrite ctx v
  | .migrate ctx va => .migrationStart ctx va
  | .swm ctx => .swmEnter ctx
  | .comm v => .commcfgWrite v
  | .resume ctx slot => .grpResume ctx slot
  | .image v => .imgcmd v
  | .restore v => .restore v

/-! ## The step -/

/-- An agent's turn. A cycle does not pass a bundle slot at which no bundles have been formed (R122): they are, and the turn stays. -/
def State.takeTurn (s : State) (t : Turn) : Out :=
  match t with
  | .event i => exec i s
  | .late e => exec e.instr s
  | .unit acc k => .next (s.performUnit acc k)
  | .decoder base => .next { s with mgmt := { s.mgmt with hdmBase := base } }
  | .slew coord => .next (s.slew coord)
  | .cable links => .next { s with cabled := links }
  | .resend link seq => .next (s.resend link seq)
  | .tick =>
    match s.slotEvents with
    | i :: _ => exec i { s with agenda := .tick :: s.agenda }
    | [] => .next s.tick
  | .hostStore hpa data => .next { s with mems := s.mems.write (.host hpa) data }
  | .peerStore chip asid va data => .next { s with mems := s.mems.write (.remote chip asid va) data }
  | .peerMap chip asid vpn faults =>
    let rest := s.remoteBad.filter (· != (chip, asid, vpn))
    .next { s with remoteBad := if faults then (chip, asid, vpn) :: rest else rest }
  | .pod chips => .next { s with peers := chips }
  | .regRead page off size => .next (s.send (.regData (s.readReg page off size)))
  | .busRead bar off size => .next (s.send (.regData (s.busRead bar off size)))
  | .busWrite bar off data => match busInstr bar off data with | some i => exec i s | none => .next s

/-- One step: an issue of this cycle; else what is due; else the next agent's turn; else what the device does by itself; else a cycle of
the reference clock. -/
def step (s : State) : Out :=
  match s.issue with
  | i :: rest => { s with issue := rest }.runIssue i
  | [] =>
    match s.firstOf s.dueEvents with
    | some o => o
    | none =>
      match s.agenda with
      | t :: rest => { s with agenda := rest }.takeTurn t
      | [] =>
        match s.firstOf s.ownEvents with
        | some o => o
        | none => .next s.tick

/-- A machine whose very next step runs the instruction of `nbits` bits that begins with `w`: a group of one thread on core 0 whose code
line holds it, and its issue (log 6). -/
def State.withFetchWord (s : State) (nbits w : Nat) : State :=
  let g := probeGroup s.nextLaunch
  { s with
    agenda := [], groups := g :: s.groups, columns := probeColumn s.nextLaunch :: s.columns, code := probeLine (s.ctxAt 0).asid nbits w :: s.code,
    issue := [if isTellerWord nbits w then .teller g.id else .bundle 0 0 0 [(g.id, 0)]] }

end

end Sys2Proof.Machine
end

