-- ==== Sys2Proof/Safety.lean ====
section
/-! DEFINITION. When an instruction issues normally, in the terms that claims use: for a bundle of threads, and for a teller. -/

namespace Sys2Proof.Machine

/-- The threads named by the current bundle. -/
def State.members (s : State) : List (GroupId × Nat) :=
  match s.cur with
  | some (.bundle _ _ _ ms) => ms
  | _ => []

/-- An instruction of this form issues for the current bundle without a trap of R37, R109 or R116: the bundle names each thread once,
some of its threads can issue, the kernel has the register, barrier and decision queue that it uses, every entry it reads has readers
enough, and under CHECK no result is in flight. -/
def State.issues (s : State) (fm : Form) : Bool :=
  decide s.members.Nodup && !(s.ready fm).isEmpty &&
    (s.ready fm).all fun l =>
      !illegalIn fm.use l.g.kernel && !(fm.use.dq && dqReclaimed (s.ready fm) l) && (checkCause fm.use l).isNone

/-- A strand once it has issued a form on cycle `c`: the next instruction, the stall count, the cursor (R37, R114, R127). -/
def Lane.stepped (l : Lane) (c : Nat) (fm : Form) : Strand :=
  { l.st with
    pc := l.st.pc + BitVec.ofNat 64 (2 * fm.size), ready := c + fm.stall + 1, wait := 0, promoted := false, issuedAt := c + 1,
    know := l.know fm.use, after := l.after fm.use, fenced := l.fenced fm.use, cursor := if fm.use.dq then l.st.cursor + 1 else l.st.cursor }

end Sys2Proof.Machine
end

