-- ==== Sys2Proof/Certificates/Slice0/Obligations.lean ====
section
/-! DEFINITION. What the provers are to prove: the statements, and the tables and phrases they use. -/

namespace Sys2Proof.Claims

open Sys2Proof.Machine

/-! ## Phrases -/

/-- The cycle on which the current bundle issues. -/
def now (s : State) : Nat := s.cycle s.curCore

/-- The strand of every thread of the bundle that issues becomes `F` of that thread. -/
def strandsBecome (s t : State) (fm : Form) (F : Lane → Strand) : Prop :=
  ∀ l ∈ s.ready fm, t.strand? l.gid l.tid l.st.n = some (F l)

/-- One result in flight: due on a cycle, at the elements named (R115). -/
def inFlight (l : Lane) (due : Nat) (writes : List (Nat × Word)) (flags : Flags) : Pend :=
  { due := due, writes := writes, flags := flags, var := false, pc := l.st.pc }

/-- A strand that has issued and has one more result in flight. -/
def withResult (l : Lane) (c : Nat) (fm : Form) (p : Pend) : Strand := { l.stepped c fm with pend := l.st.pend ++ [p] }

/-- A thread that has spent the coin of the register its instruction reads (R24). -/
def spent (fm : Form) (t : Thread) : Thread := match fm.use.read with | some g => t.spend g | none => t

/-- A thread but for its general registers and its strand `n`. -/
def sameBut (n : Nat) (x y : Thread) : Prop :=
  y.tid = x.tid ∧ y.status = x.status ∧ y.exited = x.exited ∧ y.retired = x.retired ∧ ∀ m, m ≠ n → y.strand? m = x.strand? m

/-- Nothing but the groups' threads, lane masks and, where the form reads it, decision queues has changed, and of the cores only when
their pipes are free again and what waits to be traced. -/
def onlyWork (s t : State) (dq : Bool) : Prop :=
  t = { s with groups := t.groups, cores := t.cores } ∧
  (∀ g x, s.group? g = some x → ∃ y, t.group? g = some y ∧ y = { x with threads := y.threads, dq := y.dq, masks := y.masks } ∧
    (dq = false → y.dq = x.dq)) ∧
  ∀ k, t.coreAt k = { s.coreAt k with elemBusy := (t.coreAt k).elemBusy, accBusy := (t.coreAt k).accBusy, traceQ := (t.coreAt k).traceQ }

/-- No thread outside the bundle has changed. -/
def othersKept (s t : State) (fm : Form) : Prop :=
  ∀ g tid, (∀ l ∈ s.ready fm, (l.gid, l.tid) ≠ (g, tid)) → t.thread? g tid = s.thread? g tid

/-- From `u`, which is `s` but for what the instruction does beside its strands, the bundle's strands have changed, and of its threads
nothing else but the coin that they spend. -/
def onlyStrandsFrom (s u t : State) (fm : Form) : Prop :=
  onlyWork u t fm.use.dq ∧ othersKept s t fm ∧
  ∀ l ∈ s.ready fm, ∃ y, t.thread? l.gid l.tid = some y ∧ sameBut l.st.n l.t y ∧ y.gregs = (spent fm l.t).gregs

/-- The bundle's strands have changed, and of its threads nothing else but the coin that they spend. -/
def onlyStrands (s t : State) (fm : Form) : Prop := onlyStrandsFrom s s t fm

/-- Of the groups only `gid` has changed: its strands, its lane masks, its barrier `b` and what its teller's next accesses follow (R244);
and of the rest of the machine only its cores. -/
def onlyBarrier (s t : State) (gid : GroupId) (b : Nat) : Prop :=
  t = { s with groups := t.groups, cores := t.cores } ∧ (∀ h, h ≠ gid → t.group? h = s.group? h) ∧
  ∀ g y, s.group? gid = some g → t.group? gid = some y →
    y = { g with
      threads := y.threads
      bars := y.bars
      masks := y.masks
      teller := { g.teller with after := y.teller.after } } ∧
    (∀ k, k ≠ b → y.bars[k]? = g.bars[k]?) ∧
    ∀ tid th, g.thread? tid = some th → ∃ z, y.thread? tid = some z ∧ z.gregs = th.gregs

/-! ## Integer instructions (R155 to R157) -/

/-- An exact integer under SATM: clamped, or modulo 2^32 (R157). -/
def narrowInt (m : SatMode) (z : Int) : Word :=
  match m with
  | .none => BitVec.ofInt 32 z
  | .sat => BitVec.ofInt 32 (if z < -2147483648 then -2147483648 else if 2147483647 < z then 2147483647 else z)
  | .clamp01 => if z ≤ 0 then 0 else 1
  | .clampSym => if z < 0 then BitVec.ofInt 32 (-1) else if z = 0 then 0 else 1

/-- 1 when it holds, else 0. -/
def truth (p : Prop) [Decidable p] : Word := if p then 1 else 0

/-- What an integer instruction makes of SATM and the patterns of e[D], e[X] and B. -/
abbrev IntRule := SatMode → Word → Word → Word → Word

def addRule : IntRule := fun m a _ b => narrowInt m (a.toInt + b.toInt)
def subRule : IntRule := fun m a _ b => narrowInt m (a.toInt - b.toInt)
def rsubRule : IntRule := fun m a _ b => narrowInt m (b.toInt - a.toInt)
def mulRule : IntRule := fun m a _ b => narrowInt m (a.toInt * b.toInt)
def mulhsRule : IntRule := fun _ a _ b => BitVec.ofInt 32 ((a.toInt * b.toInt).fdiv 4294967296)
def mulhnRule : IntRule := fun _ a _ b => BitVec.ofNat 32 (a.toNat * b.toNat / 4294967296)
def madRule : IntRule := fun m a x b => narrowInt m (a.toInt + x.toInt * b.toInt)
def minsRule : IntRule := fun _ a _ b => BitVec.ofInt 32 (min a.toInt b.toInt)
def maxsRule : IntRule := fun _ a _ b => BitVec.ofInt 32 (max a.toInt b.toInt)
def minnRule : IntRule := fun _ a _ b => BitVec.ofNat 32 (min a.toNat b.toNat)
def maxnRule : IntRule := fun _ a _ b => BitVec.ofNat 32 (max a.toNat b.toNat)
def andRule : IntRule := fun _ a _ b => a &&& b
def orRule : IntRule := fun _ a _ b => a ||| b
def xorRule : IntRule := fun _ a _ b => a ^^^ b
def andnRule : IntRule := fun _ a _ b => a &&& ~~~b
def shlRule : IntRule := fun _ a _ b => BitVec.ofNat 32 (a.toNat * 2 ^ (b.toNat % 32))
def shrnRule : IntRule := fun _ a _ b => BitVec.ofNat 32 (a.toNat / 2 ^ (b.toNat % 32))
def shrsRule : IntRule := fun _ a _ b => BitVec.ofInt 32 (a.toInt.fdiv (2 ^ (b.toNat % 32)))
def rolRule : IntRule := fun _ a _ b => (a <<< (b.toNat % 32)) ||| (a >>> (32 - b.toNat % 32))
def popcRule : IntRule := fun _ _ _ b => BitVec.ofNat 32 ((List.finRange 32).filter fun i => b[i]).length
def clzRule : IntRule := fun _ _ _ b => if b = 0 then 32 else BitVec.ofNat 32 (31 - b.toNat.log2)
def brevRule : IntRule := fun _ _ _ b => b.reverse
/-- Position and length of a field (R156). -/
def fieldAt (b : Word) : Nat := b.toNat % 32
def fieldLen (b : Word) : Nat := min (b.toNat / 256 % 64) 32
def bfxnRule : IntRule := fun _ a _ b => (a >>> fieldAt b) &&& BitVec.ofNat 32 (2 ^ fieldLen b - 1)
def bfxsRule : IntRule := fun _ a _ b => ((a.sshiftRight (fieldAt b)) <<< (32 - fieldLen b)).sshiftRight (32 - fieldLen b)
def bfiRule : IntRule := fun _ a x b =>
  let mask : Word := BitVec.ofNat 32 (2 ^ fieldLen b - 1) <<< fieldAt b
  (a &&& ~~~mask) ||| ((x <<< fieldAt b) &&& mask)
def leaRule : IntRule := fun m _ x b => narrowInt m (x.toInt + 4 * b.toInt)
def ceqRule : IntRule := fun _ a _ b => truth (a = b)
def cneRule : IntRule := fun _ a _ b => truth (a ≠ b)
def cltsRule : IntRule := fun _ a _ b => truth (a.toInt < b.toInt)
def clesRule : IntRule := fun _ a _ b => truth (a.toInt ≤ b.toInt)
def cltnRule : IntRule := fun _ a _ b => truth (a.toNat < b.toNat)
def clenRule : IntRule := fun _ a _ b => truth (a.toNat ≤ b.toNat)

/-- The integer instructions, long and short, with their operands, latency (R131, R155) and rule. -/
def intRow : Instr → Option (EFields × Nat × IntRule)
  | .add f => some (f, 4, addRule) | .sub f => some (f, 4, subRule) | .rsub f => some (f, 4, rsubRule)
  | .mul f => some (f, 6, mulRule) | .mulhs f => some (f, 6, mulhsRule) | .mulhn f => some (f, 6, mulhnRule)
  | .mad f => some (f, 6, madRule) | .mins f => some (f, 4, minsRule) | .maxs f => some (f, 4, maxsRule)
  | .minn f => some (f, 4, minnRule) | .maxn f => some (f, 4, maxnRule) | .and f => some (f, 4, andRule)
  | .or f => some (f, 4, orRule) | .xor f => some (f, 4, xorRule) | .andn f => some (f, 4, andnRule)
  | .shl f => some (f, 4, shlRule) | .shrn f => some (f, 4, shrnRule) | .shrs f => some (f, 4, shrsRule)
  | .rol f => some (f, 4, rolRule) | .popc f => some (f, 4, popcRule) | .clz f => some (f, 4, clzRule)
  | .brev f => some (f, 4, brevRule) | .bfxs f => some (f, 4, bfxsRule) | .bfxn f => some (f, 4, bfxnRule)
  | .bfi f => some (f, 4, bfiRule) | .lea f => some (f, 4, leaRule) | .ceq f => some (f, 4, ceqRule)
  | .cne f => some (f, 4, cneRule) | .clts f => some (f, 4, cltsRule) | .cles f => some (f, 4, clesRule)
  | .cltn f => some (f, 4, cltnRule) | .clen f => some (f, 4, clenRule)
  | .sAddG g w => some (shortG g w, 4, addRule) | .sSubG g w => some (shortG g w, 4, subRule)
  | .sMulG g w => some (shortG g w, 6, mulRule) | .sMadG g w => some (shortG g w, 6, madRule)
  | .sAndG g w => some (shortG g w, 4, andRule) | .sOrG g w => some (shortG g w, 4, orRule)
  | .sXorG g w => some (shortG g w, 4, xorRule) | .sShlG g w => some (shortG g w, 4, shlRule)
  | .sShrnG g w => some (shortG g w, 4, shrnRule) | .sShrsG g w => some (shortG g w, 4, shrsRule)
  | .sMinsG g w => some (shortG g w, 4, minsRule) | .sMaxsG g w => some (shortG g w, 4, maxsRule)
  | .sCeqG g w => some (shortG g w, 4, ceqRule) | .sCltsG g w => some (shortG g w, 4, cltsRule)
  | .sCltnG g w => some (shortG g w, 4, cltnRule) | .sLeaG g w => some (shortG g w, 4, leaRule)
  | .sAddImm i w => some (shortI i w, 4, addRule) | .sAndImm i w => some (shortI i w, 4, andRule)
  | .sShlImm i w => some (shortI i w, 4, shlRule) | .sShrnImm i w => some (shortI i w, 4, shrnRule)
  | .sShrsImm i w => some (shortI i w, 4, shrsRule) | .sCeqImm i w => some (shortI i w, 4, ceqRule)
  | .sCltsImm i w => some (shortI i w, 4, cltsRule)
  | _ => none

/-- What an integer rule writes for one thread. -/
def intWrites (l : Lane) (f : EFields) (rule : IntRule) : List (Nat × Word) :=
  f.dst.pairs.map fun dx =>
    (dx.1, rule (f.mods.getD .zero).satm (l.st.elem dx.1) (l.st.elem dx.2) (l.operand f.g f.b dx.2))

/-! ## FP32, packed pairs, conversions, special functions (R158 to R171, R177) -/

/-- The FP32 and packed-pair instructions (R158 to R163). -/
def floatRow : Instr → Option (EFields × (ElemIn → ElemOut))
  | .fadd f => some (f, Arith.fadd) | .fsub f => some (f, Arith.fsub) | .fmul f => some (f, Arith.fmul)
  | .ffma f => some (f, Arith.ffma) | .ffms f => some (f, Arith.ffms) | .fnma f => some (f, Arith.fnma)
  | .fmin f => some (f, Arith.fmin) | .fmax f => some (f, Arith.fmax) | .fminnm f => some (f, Arith.fminnm)
  | .fmaxnm f => some (f, Arith.fmaxnm) | .fceq f => some (f, Arith.fceq) | .fclt f => some (f, Arith.fclt)
  | .fcle f => some (f, Arith.fcle) | .fcun f => some (f, Arith.fcun) | .fsel f => some (f, Arith.fsel)
  | .fcpsgn f => some (f, Arith.fcpsgn) | .ffloor f => some (f, Arith.ffloor) | .fceil f => some (f, Arith.fceil)
  | .ftrunc f => some (f, Arith.ftrunc) | .frnd f => some (f, Arith.frnd) | .fsacc f => some (f, Arith.fsacc)
  | .hadd2 f => some (f, Arith.hadd2) | .hmul2 f => some (f, Arith.hmul2) | .hfma2 f => some (f, Arith.hfma2)
  | .badd2 f => some (f, Arith.badd2) | .bmul2 f => some (f, Arith.bmul2) | .bfma2 f => some (f, Arith.bfma2)
  | .sFaddG g w => some (shortG g w, Arith.fadd) | .sFsubG g w => some (shortG g w, Arith.fsub)
  | .sFmulG g w => some (shortG g w, Arith.fmul) | .sFfmaG g w => some (shortG g w, Arith.ffma)
  | .sFfmsG g w => some (shortG g w, Arith.ffms) | .sFminG g w => some (shortG g w, Arith.fmin)
  | .sFmaxG g w => some (shortG g w, Arith.fmax) | .sFcltG g w => some (shortG g w, Arith.fclt)
  | .sFcleG g w => some (shortG g w, Arith.fcle) | .sFsaccG g w => some (shortG g w, Arith.fsacc)
  | _ => none

/-- The conversions (R164 to R167). -/
def convertRow : Instr → Option (EFields × (ElemIn → ElemOut))
  | .cvtF32S32 f => some (f, Arith.cvtF32S32) | .cvtF32N32 f => some (f, Arith.cvtF32N32)
  | .cvtS32F32 f => some (f, Arith.cvtS32F32) | .cvtN32F32 f => some (f, Arith.cvtN32F32)
  | .cvtF32F16 f => some (f, Arith.cvtF32F16) | .cvtF16F32 f => some (f, Arith.cvtF16F32)
  | .cvtF32Bf16 f => some (f, Arith.cvtF32Bf16) | .cvtBf16F32 f => some (f, Arith.cvtBf16F32)
  | .cvtF32E4m3 f => some (f, Arith.cvtF32E4m3) | .cvtE4m3F32 f => some (f, Arith.cvtE4m3F32)
  | .cvtF32E5m2 f => some (f, Arith.cvtF32E5m2) | .cvtE5m2F32 f => some (f, Arith.cvtE5m2F32)
  | .cvtF32Nf f => some (f, Arith.cvtF32Nf) | .cvtNfF32 f => some (f, Arith.cvtNfF32)
  | .pack4 f => some (f, Arith.pack4) | .unpk4 f => some (f, Arith.unpk4)
  | .sCvtF32S32 g w => some (shortG g w, Arith.cvtF32S32) | .sCvtS32F32 g w => some (shortG g w, Arith.cvtS32F32)
  | _ => none

/-- The seeds, the interpolated functions and `ex2m`, with their latencies (R131, R168 to R171, R177). -/
def specialRow : Instr → Option (EFields × Nat × (ElemIn → ElemOut))
  | .rcpsd f => some (f, 6, Arith.rcpsd) | .rsqsd f => some (f, 6, Arith.rsqsd) | .rcp f => some (f, 10, Arith.rcp)
  | .rsq f => some (f, 10, Arith.rsq) | .ex2 f => some (f, 10, Arith.ex2) | .lg2 f => some (f, 10, Arith.lg2)
  | .sinpi f => some (f, 10, Arith.sinpi) | .cospi f => some (f, 10, Arith.cospi) | .tanh f => some (f, 10, Arith.tanh)
  | .sigm f => some (f, 10, Arith.sigm) | .ex2m f => some (f, 10, Arith.ex2m)
  | .sRsqsdG g w => some (shortG g w, 6, Arith.rsqsd) | .sRcpsdG g w => some (shortG g w, 6, Arith.rcpsd)
  | .sEx2G g w => some (shortG g w, 10, Arith.ex2)
  | _ => none

/-- Exec answers the state in which every thread of the bundle has issued an elementwise instruction. -/
def elementwiseResult (i : Instr) (f : EFields) (lat : Nat) (rule : ElemIn → ElemOut) (s : State) (fm : Form) : Prop :=
  ∃ t, exec i s = .next t ∧ strandsBecome s t fm fun l =>
    withResult l (now s) fm (inFlight l (landsAt (now s) lat f.dst) (l.results (now s) f rule).1 (l.results (now s) f rule).2)

/-! ## Moves, registers, rows, crews (R175, R176, R180 to R190) -/

/-- What a move writes to a destination, from the element it reads there and B (R180). -/
def moveRow : Instr → Option (EFields × (Lane → Nat × Nat → Word → Word))
  | .mov f => some (f, fun _ _ b => b)
  | .movw f => some (f, fun l dx b => l.st.elem ((dx.2 + b.toNat) % 32))
  | .bcast f => some (f, fun l _ b => l.st.elem (b.toNat % 32))
  | .iota f => some (f, fun _ dx b => b + BitVec.ofNat 32 dx.1)
  | .clr f => some (f, fun _ _ _ => 0)
  | .sMovG g w => some (shortG g w, fun _ _ b => b)
  | .sMovImm i w => some (shortI i w, fun _ _ b => b)
  | _ => none

/-- `rmax`, `rsum` and `mskr` (R175, R176). -/
def isRow : Instr → Bool
  | .rmax _ | .rsum _ | .mskr _ => true
  | _ => false

/-- `put`: register, element, coins (R181). -/
def putRow : Instr → Option (Nat × Nat × Nat)
  | .put g _ d k => some (g.toNat, d.toNat, k.toNat)
  | .sPut1 g _ => some (g.toNat, 0, 1)
  | .sPutSticky g _ => some (g.toNat, 0, 0)
  | _ => none

/-- `drop`: the register (R182). -/
def dropRow : Instr → Option Nat
  | .drop g _ => some g.toNat
  | .sDrop g _ => some g.toNat
  | _ => none

/-- The lane `i` of a thread's crew among those that take part (R187). -/
def mateAt (s : State) (fm : Form) (l : Lane) (i : Nat) : Option Lane :=
  (s.ready fm).find? fun m => m.gid == l.gid && m.tid == crewOf l.tid * 16 + i

/-- The lane that a fetch reads, from the reader's own lane and its B; none where it keeps its own element (R188). -/
def fetchRow : Instr → Option (EFields × (Nat → Nat → Option Nat))
  | .perm f => some (f, fun _ b => some (b % 16))
  | .shfx f => some (f, fun l b => some (l ^^^ (b % 16)))
  | .shup f => some (f, fun l b => if b ≤ l then some (l - b) else none)
  | .shdn f => some (f, fun l b => if l + b < 16 then some (l + b) else none)
  | _ => none

/-- A reduction over a crew: what stands for a lane that takes no part, and the rule over the sixteen values (R190). -/
def crewRow : Instr → Option (EFields × Word × (List Word → Word × Flags))
  | .cmax f => some (f, 0xFF7FFFFF, fun w => (Arith.rowMax w, {}))
  | .csum f => some (f, 0, Arith.rowSum)
  | _ => none

/-- A vote: what it writes for the lanes that vote true, by ascending lane (R189). -/
def voteRow : Instr → Option (VoteFields × (List Nat → Word))
  | .voteAny f => some (f, fun v => truth (v ≠ []))
  | .voteAll f => some (f, fun v => truth (v = List.range 16))
  | .voteBallot f => some (f, fun v => BitVec.ofNat 32 ((v.map (2 ^ ·)).sum))
  | _ => none

/-- The lanes of a crew that vote true: B, or e[D] with BS = 01, is not zero (R189). -/
def trueVotes (s : State) (fm : Form) (f : VoteFields) (l : Lane) : List Nat :=
  (List.range 16).filter fun i =>
    match mateAt s fm l i with
    | some m => (if f.b = .elem then m.st.elem f.d.toNat else m.operand f.g f.b 0) != 0
    | none => false

/-! ## Flow (R192 to R201) -/

/-- A branch: its offset in parcels, and whether a thread takes it (R192, R99). -/
def branchRow : Instr → Option (Int × (Lane → Bool))
  | .bra _ o => some (o.toInt, fun _ => true) | .braLong _ o => some (o.toInt, fun _ => true)
  | .bz g _ o => some (o.toInt, fun l => (l.t.greg g.toNat).val == 0)
  | .bzLong g _ o => some (o.toInt, fun l => (l.t.greg g.toNat).val == 0)
  | .bnz g _ o => some (o.toInt, fun l => (l.t.greg g.toNat).val != 0)
  | .bnzLong g _ o => some (o.toInt, fun l => (l.t.greg g.toNat).val != 0)
  | .bez g _ o => some (o.toInt, fun l => l.st.elem ((l.t.greg g.toNat).val.toNat % 32) == 0)
  | .bezLong g _ o => some (o.toInt, fun l => l.st.elem ((l.t.greg g.toNat).val.toNat % 32) == 0)
  | .benz g _ o => some (o.toInt, fun l => l.st.elem ((l.t.greg g.toNat).val.toNat % 32) != 0)
  | .benzLong g _ o => some (o.toInt, fun l => l.st.elem ((l.t.greg g.toNat).val.toNat % 32) != 0)
  | .sBra o _ => some (o.toInt, fun _ => true)
  | .sBez o _ => some (o.toInt, fun l => l.st.elem 0 == 0)
  | .sBenz o _ => some (o.toInt, fun l => l.st.elem 0 != 0)
  | _ => none

/-- A call: its target (R193). -/
def callRow : Instr → Option (Lane → Addr)
  | .call _ o => some fun l => l.st.pc + BitVec.ofInt 64 (2 * o.toInt)
  | .callLong _ o => some fun l => l.st.pc + BitVec.ofInt 64 (2 * o.toInt)
  | .callx _ d => some fun l => l.st.elem (d.toNat + 1) ++ l.st.elem d.toNat
  | _ => none

/-- A return. -/
def isReturn : Instr → Bool
  | .ret _ | .sRet _ => true
  | _ => false

/-- Instructions that change only the program counter and the stall count (R194, R198). -/
def isPass : Instr → Bool
  | .blk _ | .sBlk _ | .nop _ | .sNop _ => true
  | _ => false

/-- The fences, with their levels: group 1, device 2, system 3 (R241). -/
def fenceRow : Instr → Option Nat
  | .fenceGrp _ => some 1
  | .fenceDev _ => some 2
  | .fenceSys _ => some 3
  | _ => none

/-- What a strand that acquires puts before what it does next: its own order, and the stores of its column that the core's L1 holds
(R241, R248; log 140). -/
def acquired (s : State) (fm : Form) (l : Lane) : List Nat := l.after fm.use ++ s.heldInL1 l.gid.column

/-- A strand once its fence has issued: an acquire, and the release, at the fence's level, of what its order holds that is not performed
there yet (R241, R325). -/
def fencedStrand (s : State) (fm : Form) (k : Nat) (l : Lane) : Strand :=
  { l.stepped (now s) fm with
    after := acquired s fm l
    fenced := l.fenced fm.use ++ ((acquired s fm l).filter fun i => s.accs.any fun a => a.id == i && decide (a.level < k)).map fun i => (i, k) }

/-- `end` of a strand. -/
def isEnd : Instr → Bool
  | .strandEnd _ | .sEnd _ => true
  | _ => false

/-- `stflag`: the element, and whether it clears (R200). -/
def flagRow : Instr → Option (Nat × Bool)
  | .stflag _ d => some (d.toNat, false)
  | .stflagClr _ d => some (d.toNat, true)
  | _ => none

/-- `hint`: D, and whether it is urgent (R201). -/
def hintRow : Instr → Option (Nat × Bool)
  | .hintYield _ d => some (d.toNat, false)
  | .hintUrgent _ d => some (d.toNat, true)
  | _ => none

/-! ## Barriers, sync words, events (R243 to R249) -/

/-- `bara`, `bars`, `barx`: barrier, count, whether it waits, whether it leaves (R243). -/
def arriveRow : Instr → Option (Nat × Nat × Bool × Bool)
  | .bara _ b n => some (b.toNat, n.toNat, false, false)
  | .bars _ b n => some (b.toNat, n.toNat, true, false)
  | .barx _ b n => some (b.toNat, n.toNat, false, true)
  | _ => none

/-- The first arrival of a phase (R243). -/
def firstArrival (x : Barrier) : Bool := x.arrive == 0 && !x.tarr

/-- What a phase expects once an agent with count `n` has arrived: a count of 0 expects every thread that is neither retired nor in LEFT,
fixed at the first arrival (R243). -/
def expects (g : Group) (x : Barrier) (n : Nat) : Nat :=
  if firstArrival x then (if n = 0 then (g.threads.filter fun t => !t.retired && !x.left.contains t.tid).length else n) else x.expect

/-- `sexp` and `sarr`: register, element, and whether it counts in TARGET (R247). -/
def syncRow : Instr → Option (Nat × Nat × Bool)
  | .sexp g _ d => some (g.toNat, d.toNat, true)
  | .sarr g _ d => some (g.toNat, d.toNat, false)
  | _ => none

/-- `swait`: register and element (R247). -/
def waitRow : Instr → Option (Nat × Nat)
  | .swait g _ d => some (g.toNat, d.toNat)
  | .swaitGe g _ d => some (g.toNat, d.toNat)
  | _ => none

/-- The offset of a thread's sync word is inside the window and 16-aligned (R226, R227). -/
def syncLegal (g : Nat) (l : Lane) : Prop := (l.t.greg g).val.toNat + 16 ≤ l.g.wsize ∧ (l.t.greg g).val.toNat % 16 = 0

/-- One update of a sync word (R246): its TARGET and COUNT take what is added; a COUNT that reaches a TARGET other than 0 raises GEN and
clears both; a COUNT past it sets ERR. -/
def syncWordAfter (w : SyncWord) (dT dC : Word) : SyncWord :=
  let t := w.target + dT
  let c := w.count + dC
  if t ≠ 0 ∧ c = t then { target := 0, count := 0, gen := w.gen + 1, ctl := w.ctl }
  else if t ≠ 0 ∧ t.toNat < c.toNat then { target := t, count := c, gen := w.gen, ctl := w.ctl ||| 0x20#32 }
  else { target := t, count := c, gen := w.gen, ctl := w.ctl }

/-- The memories once one thread has updated its sync word (R246, R247). -/
def syncMems (g d : Nat) (target : Bool) (m : Mems) (l : Lane) : Mems :=
  let at_ := l.g.wbase + (l.t.greg g).val.toNat
  let v := l.st.elem d
  m.scratchWrite l.g.core at_
    (syncWordAfter (.ofBytes (m.scratchRead l.g.core at_ 16)) (if target then v else 0) (if target then 0 else v)).bytes

/-! ## Memory instructions (R225 to R240) -/

/-- What a memory instruction enters for each thread: register, segment, address word; its size on a cycle; whether its address must be
a multiple of that (R227); whether issue faults it (R234, R235); whether it leaves a variable-latency write pending (R225); what it does;
its flags on cycle c + 4 (R231); whether it is a vector access, which is cut into words (R227). -/
structure AccRow where
  g : BitVec 6
  seg : BitVec 3
  word : AddrWord
  size : Nat → Lane → Nat
  aligned : Bool
  faults : Bool
  writes : Bool
  kind : Nat → Lane → AccKind
  flags : Nat → Lane → Flags := fun _ _ => {}
  vec : Bool := false

/-- A load (R230, R231). -/
def loadRow (f : MemFields) (size : Nat) (form : LoadForm) : AccRow :=
  { g := f.g, seg := f.seg, word := f.word, size := fun _ _ => size, aligned := f.word.order != .relaxed, faults := true, writes := true,
    kind := fun _ _ => .load form }

/-- The elements of a thread as bytes, the lowest first (R230). -/
def bytesOf (l : Lane) (first count : Nat) : List Byte := (List.range count).flatMap fun i => wordBytes (l.st.elem (first + i))

/-- A store (R230). -/
def storeRow (f : MemFields) (size : Nat) (data : Lane → List Byte) : AccRow :=
  { g := f.g, seg := f.seg, word := f.word, size := fun _ _ => size, aligned := f.word.order != .relaxed, faults := true, writes := false,
    kind := fun _ l => .store (data l) }

/-- A prefetch or write-back: it faults nothing at issue (R234, R235). -/
def hintLine (f : MemFields) (kind : AccKind) : AccRow :=
  { g := f.g, seg := f.seg, word := f.word, size := fun _ _ => 1, aligned := false, faults := false, writes := false, kind := fun _ _ => kind }

/-- An atomic, which returns the old value to `ret`, or a reduction; its address is aligned (R227, R237). -/
def rmwRow (f : AtomFields) (size : Nat) (op : Lane → RmwOp × Word) (ret : Option LoadForm) : AccRow :=
  { g := f.g, seg := f.seg, word := f.word, size := fun _ _ => size, aligned := true, faults := true, writes := ret.isSome,
    kind := fun _ l => .rmw (op l).1 (op l).2 ret }

/-- `atom` and `red` on e[D]. -/
def intAtom (f : AtomFields) (op : AtomOp) (returns : Bool) : AccRow :=
  rmwRow f 4 (fun l => (.int op, l.st.elem f.d.toNat)) (if returns then some (.old f.d.toNat 1) else none)
/-- `atomf` and `redf` on e[D]. -/
def floatAtom (f : AtomFields) (op : RmwOp) (returns : Bool) : AccRow :=
  rmwRow f 4 (fun l => (op, l.st.elem f.d.toNat)) (if returns then some (.old f.d.toNat 1) else none)

/-- A short form: segment 0, no offset, device default of the address word (R99). -/
def shortRow (g : BitVec 6) (size : Nat) (writes : Bool) (kind : Lane → AccKind) : AccRow :=
  { g := g, seg := 0, word := .zero, size := fun _ _ => size, aligned := false, faults := true, writes := writes, kind := fun _ => kind }

/-- First element and number of elements of WIN 00, 01, 10 (R102, R230). -/
def winAt (win : BitVec 2) : Nat × Nat := if win = 0 then (0, 16) else if win = 1 then (16, 16) else (0, 32)

/-- A memory instruction of codes in a thread's format register (R231). -/
def nfBytes (f : MemFields) (c : Nat) (l : Lane) : Nat := (winAt f.win).2 * containerBits (l.g.nfAt c (f.d.toNat % 8)) / 8

/-- The memory instructions. -/
def accRow : Instr → Option AccRow
  | .ldB8s f => some (loadRow f 1 (.scalar 1 true f.d.toNat)) | .ldB8z f => some (loadRow f 1 (.scalar 1 false f.d.toNat))
  | .ldB16s f => some (loadRow f 2 (.scalar 2 true f.d.toNat)) | .ldB16z f => some (loadRow f 2 (.scalar 2 false f.d.toNat))
  | .ldB32 f => some (loadRow f 4 (.scalar 4 false f.d.toNat)) | .ldB64 f => some (loadRow f 8 (.pair f.d.toNat))
  | .ldV16 f => some { loadRow f 64 (.words (winAt f.win).1 16) with vec := true }
  | .ldV32 f => some { loadRow f 128 (.words 0 32) with vec := true }
  | .ldBf16v f => some { loadRow f (2 * (winAt f.win).2) (.codes (winAt f.win).1 (winAt f.win).2 none) with vec := true }
  | .ldNfv f => some { loadRow f 0 (.words 0 0) with
      vec := true, size := nfBytes f, kind := fun c l => .load (.codes (winAt f.win).1 (winAt f.win).2 (some (l.g.nfAt c (f.d.toNat % 8)))) }
  | .pf f => some (hintLine f (.prefetch false)) | .pfL2 f => some (hintLine f (.prefetch true))
  | .cwb f => some (hintLine f (.writeBack (f.word.hint == .keep)))
  | .stB8 f => some (storeRow f 1 fun l => (bytesOf l f.d.toNat 1).take 1)
  | .stB16 f => some (storeRow f 2 fun l => (bytesOf l f.d.toNat 1).take 2)
  | .stB32 f => some (storeRow f 4 fun l => bytesOf l f.d.toNat 1) | .stB64 f => some (storeRow f 8 fun l => bytesOf l f.d.toNat 2)
  | .stV16 f => some { storeRow f 64 (fun l => bytesOf l (winAt f.win).1 16) with vec := true }
  | .stV32 f => some { storeRow f 128 (fun l => bytesOf l 0 32) with vec := true }
  | .stBf16v f => some { storeRow f (2 * (winAt f.win).2) (fun l => packCodes 16 (l.narrowed f.win bf16)) with
      vec := true
      flags := fun _ l => codeFlags (l.narrowed f.win bf16) }
  | .stNfv f => some { storeRow f 0 (fun _ => []) with
      vec := true
      size := nfBytes f
      kind := fun c l => .store (packCodes (containerBits (l.g.nfAt c (f.d.toNat % 8)))
        (l.narrowed f.win (.ofReg (l.g.nfAt c (f.d.toNat % 8)))))
      flags := fun c l => codeFlags (l.narrowed f.win (.ofReg (l.g.nfAt c (f.d.toNat % 8)))) }
  | .atomAdd f => some (intAtom f .add true) | .atomAnd f => some (intAtom f .and true) | .atomOr f => some (intAtom f .or true)
  | .atomXor f => some (intAtom f .xor true) | .atomMins f => some (intAtom f .mins true) | .atomMaxs f => some (intAtom f .maxs true)
  | .atomMinn f => some (intAtom f .minn true) | .atomMaxn f => some (intAtom f .maxn true) | .atomXchg f => some (intAtom f .xchg true)
  | .atomfAdd f => some (floatAtom f .fadd true) | .atomfMin f => some (floatAtom f .fmin true)
  | .atomfMax f => some (floatAtom f .fmax true)
  | .cas f => some (rmwRow f 4 (fun l => (.cas (l.st.elem f.d.toNat).toNat (l.st.elem (f.d.toNat + 1)).toNat 4, 0))
      (some (.old f.d.toNat 1)))
  | .cas64 f => some (rmwRow f 8 (fun l =>
      (.cas ((l.st.elem f.d.toNat).toNat + 2 ^ 32 * (l.st.elem (f.d.toNat + 1)).toNat)
        ((l.st.elem (f.d.toNat + 2)).toNat + 2 ^ 32 * (l.st.elem (f.d.toNat + 3)).toNat) 8, 0)) (some (.old f.d.toNat 2)))
  | .redAdd f => some (intAtom f .add false) | .redAnd f => some (intAtom f .and false) | .redOr f => some (intAtom f .or false)
  | .redXor f => some (intAtom f .xor false) | .redMins f => some (intAtom f .mins false) | .redMaxs f => some (intAtom f .maxs false)
  | .redMinn f => some (intAtom f .minn false) | .redMaxn f => some (intAtom f .maxn false)
  | .redfAdd f => some (floatAtom f .fadd false) | .redfMin f => some (floatAtom f .fmin false)
  | .redfMax f => some (floatAtom f .fmax false) | .redfOrd f => some (floatAtom f .ord false)
  | .sLdB32 g _ => some (shortRow g 4 true fun _ => .load (.scalar 4 false 0))
  | .sStB32 g _ => some (shortRow g 4 false fun l => .store (bytesOf l 0 1))
  | .sLdV16 g _ => some { shortRow g 64 true (fun _ => .load (.words 0 16)) with vec := true }
  | .sStV16 g _ => some { shortRow g 64 false (fun l => .store (bytesOf l 0 16)) with vec := true }
  | .sLdB64 g _ => some (shortRow g 8 true fun _ => .load (.pair 0))
  | .sStB64 g _ => some (shortRow g 8 false fun l => .store (bytesOf l 0 2))
  | _ => none

/-- The address of a thread's access: the segment's base plus the register and the offset, modulo 2^64, or modulo 2^32 in the window
(R104, R204). -/
def AccRow.va (r : AccRow) (l : Lane) : Addr :=
  let off := (l.t.greg r.g.toNat).val.setWidth 64 + r.word.off.signExtend 64
  if r.seg = 7 then BitVec.ofNat 64 (off.toNat % 4294967296) else l.g.seg.getD r.seg.toNat 0 + off

/-- Step 2 of R228 finds nothing: inside the window, and aligned where it must be. -/
def AccRow.legal (r : AccRow) (c : Nat) (l : Lane) : Prop :=
  r.faults = true → (r.seg = 7 → (r.va l).toNat + r.size c l ≤ l.g.wsize) ∧ (r.aligned = true → (r.va l).toNat % r.size c l = 0)

/-- The access that a thread's instruction enters, with the number it gets and the bundle it belongs to, after those that a barrier
has put before it and those that a fence has released: nothing of it is performed (R25, R28, R225, R241, R244). -/
def AccRow.entered (r : AccRow) (s : State) (fm : Form) (l : Lane) (id : Nat) : Acc :=
  { id := id, bundle := s.nextId, gid := l.gid, tid := l.tid, n := l.st.n, seq := l.st.seq, know := l.know fm.use,
    after := (s.stillOpen (l.after fm.use)).filter fun i => decide (i < s.nextId)
    fenced := (l.fenced fm.use).filter fun x => decide (x.1 < s.nextId) && s.accs.any fun b => b.id == x.1 && decide (b.level < x.2)
    units := [], pins := [], vec := r.vec, pc := l.st.pc,
    coin := some (r.g.toNat, l.t.greg r.g.toNat), core := l.g.core, ctx := l.g.ctx, asid := (s.ctxAt l.g.ctx).asid, seg7 := r.seg == 7,
    va := r.va l, size := r.size (now s) l, kind := r.kind (now s) l, scope := r.word.scope, order := r.word.order, hint := r.word.hint,
    st := .open_, got := [], cont := (l.stepped (now s) fm).pc, at_ := now s, since := now s }

/-- The strand after the issue of its access: the access counts in strand order, a result is owed to the accumulator where one comes, and
the flags of a narrowing store land on cycle c + 4. -/
def AccRow.strand (r : AccRow) (s : State) (fm : Form) (l : Lane) : Strand :=
  { l.stepped (now s) fm with
    seq := l.st.seq + 1, know := (l.know fm.use).set l.st.n (l.st.seq + 1),
    varPend := if r.writes then some s.nextId else l.st.varPend,
    pend := if r.flags (now s) l = {} then l.st.pend else l.st.pend ++ [inFlight l (now s + 4) [] (r.flags (now s) l)] }

/-! ## Traps at issue (R109, R116, R367, R368) -/

/-- The trap of a thread at its instruction. -/
def trapAt (l : Lane) (c : Cause) : Trap := { Trap.ofStrand c.cls c.code l.gid l.tid l.st.n l.st.pc with va := c.va }

/-- Every thread's column is placed and none of them is stopping. -/
def columnsRun (s : State) (fm : Form) : Prop := ∀ l ∈ s.ready fm, ∃ c, s.column? l.gid.column = some c ∧ c.stop = none

/-- Every one of some threads stands where it stood, and its column stops for the trap that comes first among theirs (R368, R369). -/
def lanesTrap (s t : State) (lanes : List Lane) (cause : Lane → Cause) : Prop :=
  t.groups = s.groups ∧ t.mems = s.mems ∧
  ∀ l ∈ lanes, ∃ st tr, t.stopOf l.gid.column = some st ∧ st.reason = .trap ∧ st.begun = false ∧ st.trap = some tr ∧
    (∃ m ∈ lanes, m.gid.column = l.gid.column ∧ tr = trapAt m (cause m)) ∧ tr.rank ≤ (trapAt l (cause l)).rank

/-- The threads of the bundle take the traps of their causes. -/
def allTrap (s t : State) (fm : Form) (cause : Lane → Cause) : Prop := lanesTrap s t (s.ready fm) cause

/-! ## Tellers (R31, R32, R134, R255 to R285) -/

/-- Of `u`, only the group `g` has changed: it is `G` now. -/
def groupBecomes (u t : State) (g G : Group) : Prop :=
  t = { u with groups := t.groups } ∧ t.group? g.id = some G ∧ ∀ h, h ≠ g.id → t.group? h = u.group? h

/-- A teller's registers after its results; a write to s0 is discarded (R31). -/
def regsAfter (x : Teller) (ws : List (BitVec 6 × Word)) : List Word :=
  ws.foldl (fun r w => if w.1 = 0 then r else r.set w.1.toNat w.2) x.s

/-- A teller that has completed an instruction: its results are written, it stands at the next word, and it may issue again `n` teller
cycles later. -/
def tellerDone (s : State) (g : Group) (ws : List (BitVec 6 × Word)) (n : Nat) : Teller :=
  { g.teller with s := regsAfter g.teller ws, pc := g.teller.pc + 4, ready := s.cycle g.core + n, wait := none }

/-- A teller that has completed an acquire: what its core's L1 holds for its column precedes what it does next (log 140). -/
def tellerAcquires (s : State) (g : Group) (ws : List (BitVec 6 × Word)) (n : Nat) : Teller :=
  { tellerDone s g ws n with after := g.teller.after ++ s.heldInL1 g.id.column }

/-- A teller that has jumped. -/
def tellerAt (s : State) (g : Group) (target : Addr) (stack : List Addr) (n : Nat) : Teller :=
  { g.teller with pc := target, rstack := stack, ready := s.cycle g.core + n, wait := none }

/-- Exec answers the state in which the teller of `g` has completed, and nothing else has changed. -/
def tellerCompletes (i : Instr) (s : State) (g : Group) (ws : List (BitVec 6 × Word)) (n : Nat) : Prop :=
  ∃ t, exec i s = .next t ∧ groupBecomes s t g { g with teller := tellerDone s g ws n }

/-- Exec answers the state in which the teller of `g` waits at its instruction, and nothing else has changed. -/
def tellerWaits (i : Instr) (s : State) (g : Group) (w : Wait) : Prop :=
  ∃ t, exec i s = .next t ∧ groupBecomes s t g { g with teller := { g.teller with wait := some w } }

/-- The column of a group is placed and is not stopping. -/
def columnRuns (s : State) (g : Group) : Prop := ∃ c, s.column? g.id.column = some c ∧ c.stop = none

/-- The teller's column stops for a trap at its instruction; no group and no byte of memory changes (R367 to R369). -/
def tellerTraps (i : Instr) (s : State) (g : Group) (cls code : Nat) (va : Addr) : Prop :=
  ∃ t st, exec i s = .next t ∧ t.groups = s.groups ∧ t.mems = s.mems ∧ t.stopOf g.id.column = some st ∧ st.reason = .trap ∧
    st.begun = false ∧ st.trap = some (Trap.ofTeller cls code g.id g.teller.pc va)

/-- No capture or re-run touches the values that a group reads (R397, R398). -/
def uncaptured (s : State) (launch : Nat) : Prop := ∀ k, s.launch? launch = some k → k.captures = false

/-- The smaller and the larger of two, by a number read from each. -/
def lesser (f : Word → Int) (a b : Word) : Word := if f a ≤ f b then a else b
def larger (f : Word → Int) (a b : Word) : Word := if f a ≤ f b then b else a

/-- The arithmetic of a teller: destination, result, teller cycles (R258 to R260). -/
def tellerRow : Instr → Option (BitVec 6 × (Teller → Word) × Nat)
  | .talAdd d a b => some (d, fun t => BitVec.ofNat 32 ((t.reg a).toNat + (t.reg b).toNat), 1)
  | .talSub d a b => some (d, fun t => BitVec.ofInt 32 ((t.reg a).toInt - (t.reg b).toInt), 1)
  | .talMul d a b => some (d, fun t => BitVec.ofNat 32 ((t.reg a).toNat * (t.reg b).toNat), 3)
  | .talMulhs d a b => some (d, fun t => BitVec.ofInt 32 (((t.reg a).toInt * (t.reg b).toInt).fdiv 4294967296), 3)
  | .talAnd d a b => some (d, fun t => t.reg a &&& t.reg b, 1)
  | .talOr d a b => some (d, fun t => t.reg a ||| t.reg b, 1)
  | .talXor d a b => some (d, fun t => t.reg a ^^^ t.reg b, 1)
  | .talShl d a b => some (d, fun t => BitVec.ofNat 32 ((t.reg a).toNat * 2 ^ ((t.reg b).toNat % 32)), 1)
  | .talShrn d a b => some (d, fun t => BitVec.ofNat 32 ((t.reg a).toNat / 2 ^ ((t.reg b).toNat % 32)), 1)
  | .talShrs d a b => some (d, fun t => BitVec.ofInt 32 ((t.reg a).toInt.fdiv (2 ^ ((t.reg b).toNat % 32))), 1)
  | .talMins d a b => some (d, fun t => lesser (·.toInt) (t.reg a) (t.reg b), 1)
  | .talMaxs d a b => some (d, fun t => larger (·.toInt) (t.reg a) (t.reg b), 1)
  | .talMinn d a b => some (d, fun t => lesser (·.toNat) (t.reg a) (t.reg b), 1)
  | .talMaxn d a b => some (d, fun t => larger (·.toNat) (t.reg a) (t.reg b), 1)
  | .talSlt d a b => some (d, fun t => truth ((t.reg a).toInt < (t.reg b).toInt), 1)
  | .talSltn d a b => some (d, fun t => truth ((t.reg a).toNat < (t.reg b).toNat), 1)
  | .taddi d a i => some (d, fun t => BitVec.ofInt 32 ((t.reg a).toInt + i.toInt), 1)
  | .tandi d a i => some (d, fun t => t.reg a &&& BitVec.ofNat 32 i.toNat, 1)
  | .tori d a i => some (d, fun t => t.reg a ||| BitVec.ofNat 32 i.toNat, 1)
  | .txori d a i => some (d, fun t => t.reg a ^^^ BitVec.ofNat 32 i.toNat, 1)
  | .tshli d a i => some (d, fun t => BitVec.ofNat 32 ((t.reg a).toNat * 2 ^ i.toNat), 1)
  | .tshri d a i => some (d, fun t => BitVec.ofNat 32 ((t.reg a).toNat / 2 ^ i.toNat), 1)
  | .tslti d a i => some (d, fun t => truth ((t.reg a).toInt < i.toInt), 1)
  | .tlui d i => some (d, fun t => BitVec.ofNat 32 ((t.reg d).toNat * 2 ^ 18 + i.toNat), 1)
  | _ => none

/-- A teller's conditional branches: the word offset, and whether they are taken (R261). -/
def tellerBranches : Instr → Option (BitVec 12 × (Teller → Bool))
  | .tbeq a b o => some (o, fun t => t.reg a == t.reg b)
  | .tbne a b o => some (o, fun t => t.reg a != t.reg b)
  | .tblt a b o => some (o, fun t => decide ((t.reg a).toInt < (t.reg b).toInt))
  | .tbge a b o => some (o, fun t => decide ((t.reg b).toInt ≤ (t.reg a).toInt))
  | _ => none

/-- A teller's memory instruction: the address pair, the register added to it, its bytes, its kind for the page's rights and its hotness
type, what it stores in place of the old bytes, and its results (R263, R264). -/
structure TellerAcc where
  pair : BitVec 6
  add : BitVec 6
  size : Nat
  want : Want
  act : Teller → TellerAct
  new : Teller → List Byte → Option (List Byte)
  results : List Byte → List (BitVec 6 × Word)

/-- An atomic on a word: the old word to s[SD] (R264). -/
def tellerAtom (d a b : BitVec 6) (act : Teller → TellerAct) (f : Teller → Word → Word → Word) : TellerAcc :=
  { pair := a, add := 0, size := 4, want := .atomic, act := act, new := fun x old => some (wordBytes (f x (wordOf old) (x.reg b))),
    results := fun old => [(d, wordOf old)] }

/-- The teller's memory instructions. -/
def tellerAccRow : Instr → Option TellerAcc
  | .tld d a b => some {
      pair := a, add := b, size := 4, want := .load, act := fun _ => .load, new := fun _ _ => none, results := fun old => [(d, wordOf old)] }
  | .tldD d a b => some {
      pair := a, add := b, size := 8, want := .load, act := fun _ => .load, new := fun _ _ => none,
      results := fun old => [(d, wordOf (old.take 4)), (d + 1, wordOf (old.drop 4))] }
  | .tst d a b => some {
      pair := a, add := b, size := 4, want := .store, act := fun x => .store (wordBytes (x.reg d)),
      new := fun x _ => some (wordBytes (x.reg d)), results := fun _ => [] }
  | .tstD d a b => some {
      pair := a, add := b, size := 8, want := .store, act := fun x => .store (leBytes 8 (x.pair d).toNat),
      new := fun x _ => some (wordBytes (x.reg d) ++ wordBytes (x.reg (d + 1))), results := fun _ => [] }
  | .tatomAdd d a b => some (tellerAtom d a b (fun x => tatomAct .add (x.reg b)) fun _ old v => old + v)
  | .tatomAnd d a b => some (tellerAtom d a b (fun x => tatomAct .and (x.reg b)) fun _ old v => old &&& v)
  | .tatomOr d a b => some (tellerAtom d a b (fun x => tatomAct .or (x.reg b)) fun _ old v => old ||| v)
  | .tatomXor d a b => some (tellerAtom d a b (fun x => tatomAct .xor (x.reg b)) fun _ old v => old ^^^ v)
  | .tatomMins d a b => some (tellerAtom d a b (fun x => tatomAct .mins (x.reg b)) fun _ old v => lesser (·.toInt) old v)
  | .tatomMaxs d a b => some (tellerAtom d a b (fun x => tatomAct .maxs (x.reg b)) fun _ old v => larger (·.toInt) old v)
  | .tatomMinn d a b => some (tellerAtom d a b (fun x => tatomAct .minn (x.reg b)) fun _ old v => lesser (·.toNat) old v)
  | .tatomMaxn d a b => some (tellerAtom d a b (fun x => tatomAct .maxn (x.reg b)) fun _ old v => larger (·.toNat) old v)
  | .tatomXchg d a b => some (tellerAtom d a b (fun x => tatomAct .xchg (x.reg b)) fun _ _ v => v)
  | .tatomCas d a b => some (tellerAtom d a b (fun x => tatomCasAct (x.reg b) (x.reg d)) fun x old v => if old = v then x.reg d else old)
  | _ => none

/-- The lengths of R132 for a teller: 20 cycles in the window, 160 at a slice of its own half and 290 at another, at nominal figures; four
more for an atomic in the window, eight at a slice. -/
def windowCycles (r : TellerAcc) : Nat := if r.want = .atomic then 24 else 20
def sliceCycles (r : TellerAcc) (core line : Nat) : Nat :=
  (if homeSlice line / 48 = dieOf core then 160 else 290) + if r.want = .atomic then 8 else 0

/-- K and OFFSET of an access's pair (R256). -/
def segAt (g : Group) (r : TellerAcc) : Nat := (g.teller.pair r.pair).toNat / 2 ^ 61
def offsetAt (g : Group) (r : TellerAcc) : Nat := (g.teller.pair r.pair).toNat % 2 ^ 61
/-- The window offset of an access through K = 7, modulo 2^32 (R256). -/
def windowAt (g : Group) (r : TellerAcc) : Nat := (offsetAt g r + (g.teller.reg r.add).toNat) % 2 ^ 32
/-- The virtual address of any other (R256). -/
def addressAt (g : Group) (r : TellerAcc) : Addr :=
  g.seg.getD (segAt g r) 0 + BitVec.ofNat 64 ((offsetAt g r + (g.teller.reg r.add).toNat) % 2 ^ 61)

/-- A teller's instruction that only takes a teller cycle (R265, R284). -/
def isTellerPass : Instr → Bool
  | .tfenceGrp | .tfenceDev | .tnop => true
  | _ => false

/-! ## Engines, lines, agents -/

/-- Exec answers a next state with the property `P`. -/
def answers (i : Instr) (s : State) (P : State → Prop) : Prop := ∃ t, exec i s = .next t ∧ P t

/-- The events that start a COPY, GATHER, MATRIX or TABLE command, with its KIND (R286). -/
def startRow : Instr → Option (Nat × Nat)
  | .copy id => some (id, 0)
  | .gather id => some (id, 1)
  | .matrix id => some (id, 2)
  | .table id => some (id, 3)
  | _ => none

/-- The events that start a COLLECT command, with its OP (R314). -/
def collectRow : Instr → Option (Nat × Nat)
  | .collectReduce id => some (id, 0)
  | .collectBroadcast id => some (id, 1)
  | .collectAllGather id => some (id, 2)
  | .collectReduceScatter id => some (id, 3)
  | _ => none

/-- A command that runs and has work left; one that moves bytes without the decompression stage, nothing of its run served ahead (R294). -/
def runs (s : State) (c : Cmd) : Prop := s.cmd? c.id = some c ∧ c.st = .started ∧ c.finished = false
def movesBytes (c : Cmd) : Prop :=
  c.kind ≤ 1 ∧ c.decomp = false ∧ c.transpose = false ∧ (c.kind = 1 → c.idx.isSome = true) ∧ c.ahead = [] ∧ c.past = []

/-- The queue of a core's commands without one. -/
def withoutCmd (s : State) (id : Nat) : List Cmd := s.cmds.filter (·.id != id)

/-- The sync word that a command names, as it stands, and where it lies. -/
def cmdSyncAt (s : State) (c : Cmd) : Nat := (s.windowOf c).1 + 16 * c.syncIdx
def cmdSync (s : State) (c : Cmd) : SyncWord := .ofBytes (s.mems.scratchRead c.core (cmdSyncAt s c) 16)

/-- An access that is open, of a resident group, and needs `n` next, at `va`. -/
def needs (s : State) (a : Acc) (n : Need) (va : Nat) : Prop := s.openAcc? a.id = some a ∧ s.accNeed a = (n, va)

/-- The event that takes a miss to its home, which finds there what steps 4 and 5 of R228 find. -/
def missEvent (i : Instr) (a : Acc) : Prop := i = if a.atHome then .homeAtomic a.id else if a.writes then .l1WriteMiss a.id else .l1ReadMiss a.id

/-- The line that a slice holds serves an access of a core outside its L1s: its leaf grants it, it is no line of host memory, and no switch,
no transaction of the line, no freeze, no shadow and no store left in an L1 is in the way (R217, R228, R312, R340, R344, R353). -/
def lineServes (s : State) (ctx va core : Nat) (w : Want) (h : L2Line) : Prop :=
  s.l2? (s.ctxAt ctx).asid (va / 128) = some h ∧ va < 2 ^ 57 ∧ s.heldVa ctx va = false ∧ h.perm.allows w = true ∧
    s.notOwner ctx va (some core) = false ∧ (∀ a, h.place ≠ .host a) ∧ h.perm.typ ≠ .host ∧ s.asked h.key = false ∧
    (∀ a ∈ s.accs, a.inL1 = false) ∧
    (w.wr = true → h.perm.typ ≠ .wstore ∧ s.frozenLine (s.ctxAt ctx).asid (va / 128) = false) ∧ s.pairOfShd? ctx va = none

/-- The bytes of an L2 line at an address, and of an L1 line. -/
def lineBytesAt (h : L2Line) (va n : Nat) : List Byte := ((lineBytes h.data).drop (va % 128)).take n
def l1BytesAt (l : L1Line) (va n : Nat) : List Byte := ((lineBytes l.data).drop (va % 128)).take n

/-- An access that lies in one line and needs nothing more, none of it performed, no store left in an L1. -/
def readyInLine (s : State) (a : Acc) : Prop :=
  needs s a .ok a.va.toNat ∧ a.isOpen = true ∧ a.seg7 = false ∧ 0 < a.size ∧ a.va.toNat % 128 + a.size ≤ 128 ∧ a.units = [] ∧
    s.mayPerform a = true ∧ (∀ b ∈ s.accs, b.inL1 = false) ∧ (∀ o, a.kind ≠ .prefetch o) ∧ (∀ o, a.kind ≠ .writeBack o) ∧
    ∀ v f, a.kind ≠ .rmw .ord v f

/-- The scope at which an access performs first: group for a load and for the L1 atomic unit, device for a store (R241). -/
def firstScope (a : Acc) : Scope := if a.seg7 ∨ a.isRmw ∨ a.writes = false ∧ a.isWriteBack = false then .grp else .dev

/-- What an access that has found `old` is then: a store, owed its acknowledgement; one with a result, on its way back with it; gone. -/
def performedAs (a : Acc) (old : List Byte) : Option Acc :=
  match a.kind with
  | .store _ => some { a with st := .performed 2 }
  | _ => if a.returns then some { a with st := .performed 3, got := old } else none

/-- A bundle of a strand of one cluster (R20, R122). -/
def inCluster (cl : Nat) (x : Issue) : Bool := match x with | .bundle _ n _ _ => clusterOf n == cl | .teller _ => false

/-- A snoop of a half (R355). -/
def isSnoop (i : Instr) (hpa : Nat) : Prop := i = .snpData hpa ∨ i = .snpInv hpa ∨ i = .snpCur hpa

/-- What an access of the scratchpad leaves there and takes from it (R226, R237). -/
def windowStore (k : AccKind) (old : List Byte) : Option (List Byte) :=
  match k with
  | .store bs => some bs
  | .rmw op v _ => some (op.apply v old)
  | _ => none

/-- BAR0 registers that are only written and read (R410), with the bits they hold. -/
def bar0Plain : List (Nat × BitVec 64) :=
  [(0x018, 0xFF), (0x028, 0x000FFFFFFFFFF000), (0x048, 3), (0x068, BitVec.allOnes 64), (0x088, BitVec.allOnes 64), (0x0B0, 0xFF),
   (0x218, BitVec.allOnes 64), (0x228, BitVec.allOnes 64), (0x230, BitVec.allOnes 64), (0x238, 0x3FFFF0000)]

/-- Control-page registers that are only written and read (R412), with the bits they hold. -/
def controlPlain : List (Nat × BitVec 64) :=
  [(0x000, BitVec.allOnes 64), (0x028, 0x3F), (0x030, BitVec.allOnes 64), (0x038, BitVec.allOnes 64), (0x050, BitVec.allOnes 64),
   (0x058, 0x1FFF), (0x068, BitVec.allOnes 64), (0x070, BitVec.allOnes 64), (0x078, BitVec.allOnes 64), (0x080, BitVec.allOnes 64),
   (0x090, 0x1FFFFFFFF)]

/-! ## Fetching, the exchange -/

/-- The parcels from a program counter to the end of its line. -/
def parcelsFrom (l : CodeLine) (pc : Addr) : List (BitVec 16) := parcelsOf ((lineBytes l.data).drop (pc.toNat % 128))

/-- The parcels from which a strand's instruction is read: those of its line, and of the next where the instruction reaches into it (R94). -/
def fetched (s : State) (core asid : Nat) (pc : Addr) (ps : List (BitVec 16)) : Prop :=
  ∃ l, s.codeLine? core asid (pc.toNat / 128) = some l ∧
    (ps = parcelsFrom l pc ∧ decodeStrand ps ≠ .error .truncated ∨
      decodeStrand (parcelsFrom l pc) = .error .truncated ∧
        ∃ m, s.codeLine? core asid (pc.toNat / 128 + 1) = some m ∧ ps = parcelsFrom l pc ++ parcelsOf (lineBytes m.data))

/-- Parcels that are no instruction: a reserved or illegal opcode, or a field that its instruction does not accept (R108, R109). -/
def isIllegal (ps : List (BitVec 16)) : Prop :=
  (∃ e, decodeStrand ps = .error e ∧ e ≠ .truncated) ∨ ∃ i rest, decodeStrand ps = .ok (i, rest) ∧ i.wf = false

/-- The teller's word at a program counter of a line. -/
def wordFrom (l : CodeLine) (pc : Addr) : Word := wordOf (((lineBytes l.data).drop (pc.toNat % 128)).take 4)

/-- The instruction that parcels, or a teller's word, must be for the issue to run it: decoded, with every field accepted. -/
def reads (ps : List (BitVec 16)) (i : Instr) : Prop := (∃ rest, decodeStrand ps = .ok (i, rest)) ∧ i.wf = true

/-- The ratios of a grant in the order of R90. -/
def ratiosOf (g : Grant) : List Nat := g.mat ++ g.vec ++ [g.mem, g.net]

/-- Watts of a ratio from 4 up (R89). -/
def wattsAt (table : List Nat) (r : Nat) : Nat := table.getD (r - 4) 0

/-- P of a candidate (R89). -/
def powerOf (g : Grant) : Nat :=
  210 + (g.mat.map (wattsAt [18, 28, 40, 54, 70, 87, 106, 128, 152])).sum + (g.vec.map (wattsAt [14, 22, 32, 43, 55, 68, 83, 100, 119])).sum
    + wattsAt [60, 82, 104, 127, 150, 167, 185, 204, 224] g.mem + wattsAt [30, 37, 45, 52, 60, 66, 72, 78, 84] g.net

/-- What a ratio of one domain costs against a launch's request (R87, R90). -/
def costAgainst (l : Option Launch) (domain granted : Nat) : Nat :=
  match l with
  | none => 0
  | some l =>
    let asked := l.clkreq.toNat / 16 ^ domain % 16
    let want := if asked < 4 then 4 else if 12 < asked then 12 else asked
    if asked = 0 then 0 else (l.clkreq.toNat / 2 ^ (16 + 2 * domain) % 4 + 1) * (if granted ≤ want then want - granted else granted - want)

/-- The cost of a candidate (R88, R90). -/
def costOf (s : State) (g : Grant) : Nat :=
  ((List.range 6).map fun d => costAgainst (s.dieGovernor d) 0 (g.mat.getD d 4) + costAgainst (s.dieGovernor d) 1 (g.vec.getD d 4)).sum
    + costAgainst s.deviceGovernor 2 g.mem + costAgainst s.deviceGovernor 3 g.net

/-- A candidate: 4 on an idle die, each other ratio from 4 to 12 (R88, R90). -/
def isCandidate (s : State) (g : Grant) : Prop :=
  g.mat.length = 6 ∧ g.vec.length = 6 ∧ (∀ r ∈ ratiosOf g, 4 ≤ r ∧ r ≤ 12) ∧
    ∀ d < 6, s.dieGovernor d = none → g.mat.getD d 4 = 4 ∧ g.vec.getD d 4 = 4

/-- A candidate within the effective cap (R90). -/
def admissible (s : State) (g : Grant) : Prop := isCandidate s g ∧ powerOf g ≤ min s.exch.pwrcap s.exch.thermal

/-- Larger at the first position where two grants differ (R90). -/
def firstLarger (a b : Grant) : Prop :=
  ∃ k, (ratiosOf a).take k = (ratiosOf b).take k ∧ (ratiosOf b).getD k 0 < (ratiosOf a).getD k 0
end Sys2Proof.Claims

open Sys2Proof Sys2Proof.Machine Sys2Proof.Claims

/-! ## Strand instructions -/

/-- R155 to R157, R131: each of the 55 integer instructions, long or short, puts in flight for every thread of the bundle the result that
the table of R155 gives, wrapped or clamped as R157 says, due when R131 says, with no flag. -/
def Obligations.IntegerInstructions : Prop :=
  ∀ (i : Instr) (f : EFields) (lat : Nat) (rule : IntRule) (fm : Form) (s : State),
    intRow i = some (f, lat, rule) → i.form = some fm → s.issues fm = true →
      ∃ t, exec i s = .next t ∧ strandsBecome s t fm fun l =>
        withResult l (now s) fm (inFlight l (landsAt (now s) lat f.dst) (intWrites l f rule) {})

/-- R158 to R171, R177, R131: FP32 and packed-pair instructions, conversions, seeds, interpolated functions and `ex2m`, long and short: for every
thread of the bundle the results and flags of the instruction's rule are in flight, due when R131 says. -/
def Obligations.FloatsConversionsFunctions : Prop :=
  (∀ (i : Instr) (f : EFields) (rule : ElemIn → ElemOut) (fm : Form) (s : State),
      floatRow i = some (f, rule) → i.form = some fm → s.issues fm = true → elementwiseResult i f 4 rule s fm) ∧
  (∀ (i : Instr) (f : EFields) (rule : ElemIn → ElemOut) (fm : Form) (s : State),
      convertRow i = some (f, rule) → i.form = some fm → s.issues fm = true → elementwiseResult i f 4 rule s fm) ∧
  (∀ (i : Instr) (f : EFields) (lat : Nat) (rule : ElemIn → ElemOut) (fm : Form) (s : State),
      specialRow i = some (f, lat, rule) → i.form = some fm → s.issues fm = true → elementwiseResult i f lat rule s fm)

/-- R180: moves copy patterns, four cycles later, and set no flag. -/
def Obligations.Moves : Prop :=
  ∀ (i : Instr) (f : EFields) (rule : Lane → Nat × Nat → Word → Word) (fm : Form) (s : State),
    moveRow i = some (f, rule) → i.form = some fm → s.issues fm = true →
      ∃ t, exec i s = .next t ∧ strandsBecome s t fm fun l =>
        withResult l (now s) fm (inFlight l (landsAt (now s) 4 f.dst)
          (f.dst.pairs.map fun dx => (dx.1, rule l dx (l.operand f.g f.b dx.2))) {})

/-- R23, R26, R181, R182: `put` makes the register present from six cycles after issue with its coins, `drop` makes it absent at once, and both
leave the thread's other registers alone. -/
def Obligations.PutsAndDrops : Prop :=
  (∀ (i : Instr) (g d k : Nat) (fm : Form) (s : State),
      putRow i = some (g, d, k) → i.form = some fm → s.issues fm = true →
        ∃ t, exec i s = .next t ∧ onlyWork s t false ∧ othersKept s t fm ∧ strandsBecome s t fm (·.stepped (now s) fm) ∧
          ∀ l ∈ s.ready fm, ∃ y, t.thread? l.gid l.tid = some y ∧ sameBut l.st.n l.t y ∧
            y.greg g = { val := l.st.elem d, p := true, c := BitVec.ofNat 3 k, w := l.st.n, visible := now s + 6, know := l.st.know,
                         after := l.st.after, fenced := l.st.fenced, pc := l.st.pc } ∧
            ∀ m, m ≠ g → y.greg m = l.t.greg m) ∧
  (∀ (i : Instr) (g : Nat) (fm : Form) (s : State),
      dropRow i = some g → i.form = some fm → s.issues fm = true →
        ∃ t, exec i s = .next t ∧ onlyWork s t false ∧ othersKept s t fm ∧ strandsBecome s t fm (·.stepped (now s) fm) ∧
          ∀ l ∈ s.ready fm, ∃ y, t.thread? l.gid l.tid = some y ∧ sameBut l.st.n l.t y ∧
            (y.greg g).p = false ∧ (y.greg g).c = 0 ∧ ∀ m, m ≠ g → y.greg m = l.t.greg m)

/-- R183, R186, R303: `sread` of a special register, in a launch that captures nothing, puts its low word in flight for e[D], and a 64-bit one's
high word for e[D + 1]; `lend` gives the accumulator to the running MATRIX command that waits for it, or to none yet, and what it releases is
what the strand knows of that is not performed at group scope. -/
def Obligations.SpecialReadsAndLends : Prop :=
  (∀ (w : BitVec 3) (d x : BitVec 5) (fm : Form) (s : State),
      (Instr.sread w d x).form = some fm → s.issues fm = true →
      (∀ l ∈ s.ready fm, ∀ k, s.launch? l.gid.launch = some k → k.captures = false) →
        ∃ t, exec (.sread w d x) s = .next t ∧ onlyStrands s t fm ∧ strandsBecome s t fm fun l =>
          withResult l (now s) fm (inFlight l (now s + 4)
            ((d.toNat, BitVec.ofNat 32 (s.specialReg l x.toNat)) ::
              if x.toNat = 14 ∨ x.toNat = 15 ∨ x.toNat = 18 then [(d.toNat + 1, BitVec.ofNat 32 (s.specialReg l x.toNat / 2 ^ 32))] else []) {})) ∧
  (∀ (w : BitVec 3) (fm : Form) (s : State),
      (Instr.lend w).form = some fm → s.issues fm = true →
        ∃ t, exec (.lend w) s = .next t ∧ onlyWork s t false ∧
          (strandsBecome s t fm fun l => { l.stepped (now s) fm with
            own := match s.claimant? l.gid l.t.tid l.st.n with | some c => .claimed c.id | none => .offered
            lent := s.unsettled l.gid l.tid l.st.know l.st.after }) ∧
          ∀ g tid th, s.thread? g tid = some th → ∃ y, t.thread? g tid = some y ∧ y.gregs = th.gregs ∧ y.status = th.status ∧
            y.exited = th.exited ∧ y.retired = th.retired ∧
            ∀ n st, th.strand? n = some st → ∃ z, y.strand? n = some z ∧ z.e = st.e ∧ z.flags = st.flags ∧ z.rstack = st.rstack)

/-- R175, R176, R187 to R190: `rmax`, `rsum`; `mskr`, which writes the masked elements alone; `perm`, `shfx`, `shup`, `shdn`, which read the
element of another lane of the crew; `cmax`, `csum` and the votes over the lanes that take part. -/
def Obligations.RowsAndCrews : Prop :=
  (∀ (f : EFields) (fm : Form) (s : State), s.issues fm = true →
      ((Instr.rmax f).form = some fm → ∃ t, exec (.rmax f) s = .next t ∧ strandsBecome s t fm fun l =>
        withResult l (now s) fm (inFlight l (now s + 12)
          (f.dst.pairs.map fun dx => (dx.1, Arith.rowMax (f.dst.pairs.map fun dx => l.st.elem dx.2))) {})) ∧
      ((Instr.rsum f).form = some fm → ∃ t, exec (.rsum f) s = .next t ∧ strandsBecome s t fm fun l =>
        withResult l (now s) fm (inFlight l (now s + 12)
          (f.dst.pairs.map fun dx => (dx.1, (Arith.rowSum (f.dst.pairs.map fun dx => l.st.elem dx.2)).1))
          (Arith.rowSum (f.dst.pairs.map fun dx => l.st.elem dx.2)).2)) ∧
      ((Instr.mskr f).form = some fm → ∃ t, exec (.mskr f) s = .next t ∧ strandsBecome s t fm fun l =>
        withResult l (now s) fm (inFlight l (landsAt (now s) 4 f.dst)
          (((f.dst.pairs.map (·.1)).filter fun j => !(l.operand f.g f.b 0).getLsbD j).map fun j => (j, 0xFF7FFFFF))
          { am := f.dst.pairs.all fun dx => !(l.operand f.g f.b 0).getLsbD dx.1 }))) ∧
  (∀ (i : Instr) (f : EFields) (src : Nat → Nat → Option Nat) (fm : Form) (s : State),
      fetchRow i = some (f, src) → i.form = some fm → s.issues fm = true →
        ∃ t, exec i s = .next t ∧ strandsBecome s t fm fun l =>
          withResult l (now s) fm (inFlight l (landsAt (now s) 14 f.dst)
            (f.dst.pairs.map fun dx => (dx.1, match src (laneOf l.tid) (l.operand f.g f.b dx.2).toNat with
              | none => l.st.elem dx.2
              | some k => match mateAt s fm l k with | some m => m.st.elem dx.2 | none => 0)) {})) ∧
  ((∀ (i : Instr) (f : EFields) (neutral : Word) (rule : List Word → Word × Flags) (fm : Form) (s : State),
      crewRow i = some (f, neutral, rule) → i.form = some fm → s.issues fm = true →
        ∃ t, exec i s = .next t ∧ strandsBecome s t fm fun l =>
          let value (dx : Nat × Nat) : Word × Flags := rule ((List.range 16).map fun k =>
            match mateAt s fm l k with | some m => m.operand f.g f.b dx.2 | none => neutral)
          withResult l (now s) fm (inFlight l (landsAt (now s) 14 f.dst) (f.dst.pairs.map fun dx => (dx.1, (value dx).1))
            (f.dst.pairs.foldl (fun fl dx => fl.or (value dx).2) {}))) ∧
    ∀ (i : Instr) (f : VoteFields) (result : List Nat → Word) (fm : Form) (s : State),
      voteRow i = some (f, result) → i.form = some fm → s.issues fm = true →
        ∃ t, exec i s = .next t ∧ strandsBecome s t fm fun l =>
          withResult l (now s) fm (inFlight l (now s + 14) [(f.d.toNat, result (trueVotes s fm f l))] {}))

/-- R106, R192: every branch goes to PC + 2 × offset or to the next instruction, each thread by its own condition. -/
def Obligations.Branches : Prop :=
  ∀ (i : Instr) (off : Int) (taken : Lane → Bool) (fm : Form) (s : State),
    branchRow i = some (off, taken) → i.form = some fm → s.issues fm = true →
      ∃ t, exec i s = .next t ∧ strandsBecome s t fm fun l =>
        { l.stepped (now s) fm with
          pc := if taken l then l.st.pc + BitVec.ofInt 64 (2 * off) else (l.stepped (now s) fm).pc }

/-- R54, R193: a call pushes the next instruction's address and jumps; a return pops it. A target's bit 0 is 0 wherever the strand's PC and
the pair it comes from are even. -/
def Obligations.CallsAndReturns : Prop :=
  (∀ (i : Instr) (target : Lane → Addr) (fm : Form) (s : State),
    callRow i = some target → i.form = some fm → s.issues fm = true →
    (∀ l ∈ s.ready fm, l.st.rstack.length < 8 ∧ (target l).getLsbD 0 = false) →
      ∃ t, exec i s = .next t ∧ onlyStrands s t fm ∧ strandsBecome s t fm fun l =>
        { l.stepped (now s) fm with pc := target l, rstack := (l.stepped (now s) fm).pc :: l.st.rstack }) ∧
  ∀ (i : Instr) (fm : Form) (s : State),
    isReturn i = true → i.form = some fm → s.issues fm = true → (∀ l ∈ s.ready fm, l.st.rstack ≠ []) →
      ∃ t, exec i s = .next t ∧ onlyStrands s t fm ∧ strandsBecome s t fm fun l =>
        { l.stepped (now s) fm with pc := l.st.rstack.headD 0, rstack := l.st.rstack.tail }

/-- R193: a ninth entry traps with class 6 code 1, an empty stack with code 2, and the thread stands at its instruction. -/
def Obligations.ReturnStackFaults : Prop :=
  (∀ (i : Instr) (target : Lane → Addr) (fm : Form) (s : State),
    callRow i = some target → i.form = some fm → s.issues fm = true → columnsRun s fm →
    (∀ l ∈ s.ready fm, l.st.rstack.length = 8 ∧ (target l).getLsbD 0 = false) →
      ∃ t, exec i s = .next t ∧ allTrap s t fm fun _ => { cls := 6, code := 1 }) ∧
  ∀ (i : Instr) (fm : Form) (s : State),
    isReturn i = true → i.form = some fm → s.issues fm = true → columnsRun s fm → (∀ l ∈ s.ready fm, l.st.rstack = []) →
      ∃ t, exec i s = .next t ∧ allTrap s t fm fun _ => { cls := 6, code := 2 }

/-- R193 to R198, R241: `nop` has no effect but its stall count, and its short form is the parcel 0x6000; `blk`, once it issues, only lets the
strand go on; a fence lets it go on after what it acquires, and releases, at its level, what the strand's order holds (that a store which an
L1 holds for the column counts in that order is the model's choice: log 140); `end` finishes the strand and discards its return stack; `exit`
finishes every strand with the status e[D]. -/
def Obligations.PassesAndEnds : Prop :=
  (∀ (i : Instr) (w : BitVec 3) (fm : Form) (s : State), (i = .nop w ∨ i = .sNop w) → i.form = some fm → s.issues fm = true →
    fm.use.touch = false ∧ ∃ t, exec i s = .next t ∧ onlyWork s t false ∧ othersKept s t fm ∧
      ∀ l ∈ s.ready fm, ∃ y st, t.thread? l.gid l.tid = some y ∧ sameBut l.st.n l.t y ∧ y.gregs = l.t.gregs ∧ y.strand? l.st.n = some st ∧
        st = l.stepped (now s) fm ∧ st.ready = now s + w.toNat + 1) ∧
  encode (.sNop 0) = .strand [0x6000] ∧
  (∀ (i : Instr) (fm : Form) (s : State), isPass i = true → i.form = some fm → s.issues fm = true →
      ∃ t, exec i s = .next t ∧ strandsBecome s t fm (·.stepped (now s) fm)) ∧
  (∀ (i : Instr) (k : Nat) (fm : Form) (s : State), fenceRow i = some k → i.form = some fm → s.issues fm = true →
      ∃ t, exec i s = .next t ∧ onlyStrands s t fm ∧ strandsBecome s t fm (fencedStrand s fm k)) ∧
  ((∀ (i : Instr) (fm : Form) (s : State), isEnd i = true → i.form = some fm → s.issues fm = true →
      ∃ t, exec i s = .next t ∧ onlyStrands s t fm ∧ strandsBecome s t fm fun l =>
        { l.stepped (now s) fm with state := .finished, over_ := true, rstack := [] }) ∧
    ∀ (w : BitVec 3) (d : BitVec 5) (fm : Form) (s : State), (Instr.exit w d).form = some fm → s.issues fm = true →
      ∃ t, exec (.exit w d) s = .next t ∧ onlyWork s t false ∧ othersKept s t fm ∧ ∀ l ∈ s.ready fm, ∃ y, t.thread? l.gid l.tid = some y ∧
        y.gregs = l.t.gregs ∧ y.retired = l.t.retired ∧ y.exited = true ∧ y.status = l.st.elem d.toNat ∧ ∀ st ∈ y.strands, st.state = .finished ∧ st.over_ = true ∧ st.rstack = [])

/-- R197, R367, R368, R400: `trap` stops its column with class 8 and its code, and `brk`, where no BRKSTOP takes it, with class 9; where
BRKSTOP of BAR0 or of the thread's context takes it, the core stops with the thread at its `brk`, which it passes when the core goes on (that
BRKSTOP counts for the page that wrote it is the model's choice, log 145). -/
def Obligations.TrapInstructions : Prop :=
  (∀ (w : BitVec 3) (c : BitVec 13) (fm : Form) (s : State),
    (Instr.trap w c).form = some fm → s.issues fm = true → columnsRun s fm →
      ∃ t, exec (.trap w c) s = .next t ∧ allTrap s t fm fun _ => { cls := 8, code := c.toNat }) ∧
  ∀ (w : BitVec 3) (c : BitVec 13) (fm : Form) (s : State),
    (Instr.brk w c).form = some fm →
    let k := s.coreAt s.curCore
    let key (l : Lane) := (l.gid, l.tid, l.st.n)
    let taken (l : Lane) : Prop := none ∈ k.brkstop ∨ some l.g.ctx ∈ k.brkstop
    (s.issues fm = true → columnsRun s fm → (∀ l ∈ s.ready fm, ¬taken l ∧ key l ∉ k.brkPass) →
      ∃ t, exec (.brk w c) s = .next t ∧ allTrap s t fm fun _ => { cls := 9, code := c.toNat }) ∧
    (s.curCore < s.cores.length → (∃ l ∈ s.ready fm, taken l ∧ key l ∉ k.brkPass) →
      ∃ t, exec (.brk w c) s = .next t ∧ t = { s with cores := t.cores } ∧ (∀ n, n ≠ s.curCore → t.coreAt n = s.coreAt n) ∧
        ∃ more, t.coreAt s.curCore = { k with stopped := true, stopAsked := false, stepsLeft := none, brkPass := k.brkPass ++ more } ∧
          ∀ l ∈ s.ready fm, taken l → key l ∉ k.brkPass → key l ∈ more) ∧
    (s.issues fm = true → (∀ l ∈ s.ready fm, key l ∈ k.brkPass) →
      ∃ t, exec (.brk w c) s = .next t ∧ strandsBecome s t fm (·.stepped (now s) fm) ∧ ∀ l ∈ s.ready fm, key l ∉ (t.coreAt s.curCore).brkPass)

/-- R149, R199 to R201: `stflag` reads the flags, but those that land on its own cycle, and its clearing form clears what it read; a hint holds
for 4(D + 1) cycles; `ifence` drops the core's code lines of the context, and of global pages, and no other. -/
def Obligations.FlagsHintsAndIfence : Prop :=
  ((∀ (i : Instr) (d : Nat) (clear : Bool) (fm : Form) (s : State),
      flagRow i = some (d, clear) → i.form = some fm → s.issues fm = true →
        ∃ t, exec i s = .next t ∧ strandsBecome s t fm fun l =>
          let read := if l.st.freshAt = now s then l.st.flags.minus l.st.fresh else l.st.flags
          { withResult l (now s) fm (inFlight l (now s + 4) [(d, read.word)] {}) with
            flags := if clear then l.st.flags.minus read else l.st.flags }) ∧
    ∀ (i : Instr) (d : Nat) (urgent : Bool) (fm : Form) (s : State),
      hintRow i = some (d, urgent) → i.form = some fm → s.issues fm = true →
        ∃ t, exec i s = .next t ∧ strandsBecome s t fm fun l =>
          { l.stepped (now s) fm with hint := some { urgent := urgent, until_ := now s + 4 * (d + 1) } }) ∧
  (∀ (w : BitVec 3) (fm : Form) (s : State) (ctx : Nat),
      (Instr.ifence w).form = some fm → s.issues fm = true → (∀ l ∈ s.ready fm, l.g.ctx = ctx) →
        ∃ t, exec (.ifence w) s = .next t ∧ onlyStrandsFrom s { s with code := t.code } t fm ∧ strandsBecome s t fm (·.stepped (now s) fm) ∧
          ∀ c, c ∈ t.code ↔ c ∈ s.code ∧ ¬(c.core = s.curCore ∧ (c.key.asid = none ∨ c.key.asid = some (s.ctxAt ctx).asid)))

/-- R243, R244: threads of one group that arrive without completing the phase: the barrier counts them, `bars` sleeps at its instruction, `bara` and
`barx` go on, and `barx` leaves; `barw` of a thread that has arrived sleeps until the phase ends, and of any other it passes, after what its
ended phase released. That such a pass acquires, and the PC that a sleeper keeps, are the model's readings (logs 129, 42). -/
def Obligations.BarrierArrivalsAndWaits : Prop :=
  (∀ (i : Instr) (b n : Nat) (waits leaves : Bool) (fm : Form) (s : State) (gid : GroupId) (g : Group) (x : Barrier),
      arriveRow i = some (b, n, waits, leaves) → i.form = some fm → s.issues fm = true →
      (∀ l ∈ s.ready fm, l.gid = gid) → s.group? gid = some g → g.bars[b]? = some x →
      (∀ l ∈ s.ready fm, l.tid ∉ x.left) → (firstArrival x = true ∨ n = x.cnt) → x.arrive + (s.ready fm).length < expects g x n →
        ∃ t y z, exec i s = .next t ∧ onlyBarrier s t gid b ∧ othersKept s t fm ∧ t.group? gid = some y ∧ y.bars[b]? = some z ∧
          z.phase = x.phase ∧ z.arrive = x.arrive + (s.ready fm).length ∧ z.expect = expects g x n ∧
          (∀ k, k ∈ z.arrived ↔ k ∈ x.arrived ∨ ∃ l ∈ s.ready fm, l.tid = k) ∧
          (∀ k, k ∈ z.left ↔ k ∈ x.left ∨ leaves = true ∧ ∃ l ∈ s.ready fm, l.tid = k) ∧
          (∀ k, k ∈ z.waiting ↔ k ∈ x.waiting ∨ waits = true ∧ ∃ l ∈ s.ready fm, l.tid = k) ∧
          strandsBecome s t fm fun l =>
            if waits then { l.stepped (now s) fm with pc := l.st.pc, sleep := some (b, (l.stepped (now s) fm).pc) }
            else l.stepped (now s) fm) ∧
  (∀ (w : BitVec 3) (b : BitVec 4) (fm : Form) (s : State), (Instr.barw w b).form = some fm → s.issues fm = true →
      ∃ t, exec (.barw w b) s = .next t ∧ t = { s with groups := t.groups, cores := t.cores } ∧ othersKept s t fm ∧ strandsBecome s t fm fun l =>
        if l.tid ∈ (l.g.bars.getD b.toNat .reset).arrived then
          { l.stepped (now s) fm with pc := l.st.pc, sleep := some (b.toNat, (l.stepped (now s) fm).pc) }
        else { l.stepped (now s) fm with after := (l.stepped (now s) fm).after ++ (l.g.bars.getD b.toNat .reset).owedTo l.tid })

/-- R243, R244: the arrival that completes a phase, by the one thread of a bundle or by one of several, ends it: PHASE advances, the counts and
the masks of the phase clear, and every strand that slept at the barrier goes on, after the accesses that the phase's arrivals release: those
of the arrivals before, and those of the bundle's threads up to that one that are not performed at system scope. The bundle's threads behind
it arrive at the next phase, as its first. -/
def Obligations.BarrierPhaseEnds : Prop :=
  (∀ (i : Instr) (b n : Nat) (waits leaves : Bool) (fm : Form) (s : State) (l : Lane) (g : Group) (x : Barrier),
    arriveRow i = some (b, n, waits, leaves) → i.form = some fm → s.issues fm = true → s.ready fm = [l] →
    s.group? l.gid = some g → g.bars[b]? = some x → l.tid ∉ x.left → (firstArrival x = true ∨ n = x.cnt) →
    x.arrive + 1 = expects g x n →
      ∃ t y z, exec i s = .next t ∧ onlyBarrier s t l.gid b ∧ t.group? l.gid = some y ∧ y.bars[b]? = some z ∧
        z.phase = x.phase + 1 ∧ z.arrive = 0 ∧ z.arrived = [] ∧ z.waiting = [] ∧ z.tarr = false ∧ z.twait = false ∧
        z.left = (if leaves then l.tid :: x.left else x.left) ∧
        (∀ u ∈ y.threads, ∀ st ∈ u.strands, ∀ pc, st.sleep ≠ some (b, pc)) ∧
        ∀ tid n st pc, tid ≠ l.tid → s.strand? l.gid tid n = some st → st.sleep = some (b, pc) →
          t.strand? l.gid tid n = some { st with
            pc := pc, sleep := none, after := st.after ++ (x.before ++ s.unsettled l.gid l.tid l.st.know l.st.after) }) ∧
  ∀ (i : Instr) (b n : Nat) (waits leaves : Bool) (fm : Form) (s : State) (gid : GroupId) (g : Group) (x : Barrier) (done rest : List Lane),
    arriveRow i = some (b, n, waits, leaves) → i.form = some fm → s.issues fm = true → s.ready fm = done ++ rest →
    (∀ l ∈ s.ready fm, l.gid = gid ∧ l.tid ∉ x.left ∧ l.st.sleep = none) → s.group? gid = some g → g.bars[b]? = some x →
    (firstArrival x = true ∨ n = x.cnt) → done ≠ [] → x.arrive + done.length = expects g x n →
    let left := if leaves then done.map (·.tid) ++ x.left else x.left
    let again := if n = 0 then (g.threads.filter fun t => !t.retired && !left.contains t.tid).length else n
    rest.length < again ∨ rest = [] →
      let released := x.before ++ done.flatMap fun l => s.unsettled gid l.tid l.st.know l.st.after
      ∃ t y z, exec i s = .next t ∧ onlyBarrier s t gid b ∧ t.group? gid = some y ∧ y.bars[b]? = some z ∧
        z.phase = x.phase + 1 ∧ z.arrive = rest.length ∧ z.tarr = false ∧ z.twait = false ∧
        (∀ k, k ∈ z.arrived ↔ ∃ l ∈ rest, l.tid = k) ∧ (∀ k, k ∈ z.waiting ↔ waits = true ∧ ∃ l ∈ rest, l.tid = k) ∧
        (∀ k, k ∈ z.left ↔ k ∈ x.left ∨ leaves = true ∧ ∃ l ∈ s.ready fm, l.tid = k) ∧
        (∀ l ∈ done, t.strand? gid l.tid l.st.n = some
          (if waits then { l.stepped (now s) fm with after := (l.stepped (now s) fm).after ++ released } else l.stepped (now s) fm)) ∧
        (∀ l ∈ rest, t.strand? gid l.tid l.st.n = some
          (if waits then { l.stepped (now s) fm with pc := l.st.pc, sleep := some (b, (l.stepped (now s) fm).pc) } else l.stepped (now s) fm)) ∧
        ∀ tid n st pc, (∀ l ∈ s.ready fm, l.tid ≠ tid) → s.strand? gid tid n = some st → st.sleep = some (b, pc) →
          t.strand? gid tid n = some { st with pc := pc, sleep := none, after := st.after ++ released }

/-- R225, R245 to R248: `sexp` and `sarr` update the sync word at each thread's offset of its window, in ascending lane order, and no other byte;
`swait` puts GEN, as it reads it at issue, in flight for twenty cycles, which the core interlocks as a write of unknown latency, and acquires
(the stores that it puts before the strand are the model's choice: log 140). -/
def Obligations.SyncWordInstructions : Prop :=
  (∀ (i : Instr) (g d : Nat) (target : Bool) (fm : Form) (s : State),
      syncRow i = some (g, d, target) → i.form = some fm → s.issues fm = true → (∀ l ∈ s.ready fm, syncLegal g l) →
        ∃ t, exec i s = .next t ∧ onlyStrandsFrom s { s with mems := t.mems, routes := t.routes, columns := t.columns, ctxs := t.ctxs } t fm ∧
          strandsBecome s t fm (·.stepped (now s) fm) ∧ t.mems = (s.ready fm).foldl (syncMems g d target) s.mems) ∧
  (∀ (i : Instr) (g d : Nat) (fm : Form) (s : State),
      waitRow i = some (g, d) → i.form = some fm → s.issues fm = true → (∀ l ∈ s.ready fm, syncLegal g l) →
        ∃ t, exec i s = .next t ∧ onlyStrands s t fm ∧ strandsBecome s t fm fun l =>
          { withResult l (now s) fm
              { inFlight l (now s + 20)
                  [(d, wordOf (s.mems.scratchRead l.g.core (l.g.wbase + (l.t.greg g).val.toNat + 8) 4))] {} with var := true } with
            after := acquired s fm l })

/-- R249, R310: `evpost` pulses its input once for each thread of the bundle: every output of the core whose mask selects it counts them. -/
def Obligations.EventPosts : Prop :=
  ∀ (w : BitVec 3) (n : BitVec 4) (fm : Form) (s : State), (Instr.evpost w n).form = some fm → s.issues fm = true →
    ∃ t, exec (.evpost w n) s = .next t ∧ onlyStrandsFrom s { s with routes := t.routes } t fm ∧ strandsBecome s t fm (·.stepped (now s) fm) ∧
      t.routes = s.routes.map fun r =>
        if r.core = s.curCore ∧ r.word.getLsbD n.toNat then { r with count := r.count + (s.ready fm).length } else r

/-- R104, R204, R225, R228: a load, store, atomic, reduction, prefetch or write-back enters one access for each thread, in ascending lane
order, at the address the rules give; nothing of it is performed by the issue, so that no byte of memory and no element changes. -/
def Obligations.AccessesEnter : Prop :=
  ∀ (i : Instr) (r : AccRow) (fm : Form) (s : State),
    accRow i = some r → i.form = some fm → s.issues fm = true → (∀ l ∈ s.ready fm, r.legal (now s) l) →
      ∃ t, exec i s = .next t ∧ onlyStrandsFrom s { s with accs := t.accs, nextId := t.nextId } t fm ∧ strandsBecome s t fm (r.strand s fm) ∧
        t.accs = s.accs ++ (s.ready fm).zipIdx.map fun p => r.entered s fm p.1 (s.nextId + p.2)

/-- R226 to R228: an access beyond the window traps with class 4 code 6, else one that is not aligned where it must be with code 3; the
bundle's threads stand at their instruction and no access is entered. -/
def Obligations.AccessFaults : Prop :=
  ∀ (i : Instr) (r : AccRow) (fm : Form) (s : State),
    accRow i = some r → r.faults = true → i.form = some fm → s.issues fm = true → columnsRun s fm →
    ((r.seg = 7 ∧ ∀ l ∈ s.ready fm, l.g.wsize < (r.va l).toNat + r.size (now s) l) →
      ∃ t, exec i s = .next t ∧ t.accs = s.accs ∧ allTrap s t fm fun l => { cls := 4, code := 6, va := r.va l }) ∧
    ((r.aligned = true ∧ ∀ l ∈ s.ready fm, (r.seg = 7 → (r.va l).toNat + r.size (now s) l ≤ l.g.wsize) ∧
        (r.va l).toNat % r.size (now s) l ≠ 0) →
      ∃ t, exec i s = .next t ∧ t.accs = s.accs ∧ allTrap s t fm fun l => { cls := 4, code := 3, va := r.va l })

/-- R19, R36, R37, R109, R116: an instruction that names a register its kernel does not have, a barrier or the decision queue, traps with class
1 code 0; under CHECK, one that uses an accumulator with a fixed-latency result in flight with class 2 code 0; a read of a decision-queue entry
that is gone with class 1 code 1. -/
def Obligations.UseTraps : Prop :=
  (∀ (i : Instr) (fm : Form) (s : State), i.form = some fm → s.ready fm ≠ [] → columnsRun s fm →
    (∀ l ∈ s.ready fm, ∃ g, fm.use.name = some g ∧ l.g.kernel.ngpr ≤ g) →
      ∃ t, exec i s = .next t ∧ allTrap s t fm fun _ => { cls := 1, code := 0 }) ∧
  (∀ (i : Instr) (fm : Form) (s : State), i.form = some fm → (∀ w c, i ≠ .brk w c) → s.ready fm ≠ [] → columnsRun s fm →
      (∀ l ∈ s.ready fm, illegalIn fm.use l.g.kernel = true) →
        ∃ t, exec i s = .next t ∧ allTrap s t fm fun _ => { cls := 1, code := 0 }) ∧
  (∀ (i : Instr) (fm : Form) (s : State), i.form = some fm → (∀ w c, i ≠ .brk w c) → s.ready fm ≠ [] → columnsRun s fm →
      (∀ l ∈ s.ready fm, illegalIn fm.use l.g.kernel = false ∧ fm.use.dq = false ∧ l.g.check = true ∧ fm.use.touch = true ∧
        ∃ p ∈ l.st.pend, p.var = false) →
        ∃ t, exec i s = .next t ∧ allTrap s t fm fun _ => { cls := 2, code := 0 }) ∧
  (∀ (i : Instr) (fm : Form) (s : State) (l : Lane), i.form = some fm → s.ready fm = [l] → columnsRun s fm → fm.use.dq = true →
      illegalIn fm.use l.g.kernel = false → (∀ e ∈ l.g.dq, e.seq ≠ l.st.cursor) →
        ∃ t, exec i s = .next t ∧ allTrap s t fm fun _ => { cls := 1, code := 1 })

/-- No strand instruction stops the machine: exec answers a next state in every state. -/
def Obligations.StrandInstructionsComplete : Prop :=
  ∀ (i : Instr) (fm : Form) (s : State), i.form = some fm → ∃ t, exec i s = .next t

/-- R24: an instruction that reads a general register, of whatever form, spends one coin of it, the last one makes it absent, a sticky one
spends none; the thread's other registers keep what they hold. A memory instruction's access, and a sync word's offset, must be one that the
memory model allows (R226, R227). -/
def Obligations.ReadSpendsCoin : Prop :=
  ∀ (i : Instr) (fm : Form) (s : State) (g : Nat), i.form = some fm → s.issues fm = true → fm.use.read = some g →
    (∀ r, accRow i = some r → ∀ l ∈ s.ready fm, r.legal (now s) l) →
    (∀ k d x, syncRow i = some (k, d, x) → ∀ l ∈ s.ready fm, syncLegal k l) →
    (∀ k d, waitRow i = some (k, d) → ∀ l ∈ s.ready fm, syncLegal k l) →
      ∃ t, exec i s = .next t ∧ ∀ l ∈ s.ready fm, ∃ y, t.thread? l.gid l.tid = some y ∧
        y.greg g = (if (l.t.greg g).c = 0 then l.t.greg g
          else if (l.t.greg g).c = 1 then { l.t.greg g with p := false, c := 0 }
          else { l.t.greg g with c := (l.t.greg g).c - 1 }) ∧
        ∀ m, m ≠ g → y.greg m = l.t.greg m

/-- The frame of the elementwise, move, row, crew, branch, flag and hint instructions: no memory, cache, context, special register or queue
of the device changes, no other thread, no other strand of the thread, no register but the coin of the one it reads. -/
def Obligations.RegisterOnlyFrame : Prop :=
  ∀ (i : Instr) (fm : Form) (s : State),
    ((intRow i).isSome ∨ (floatRow i).isSome ∨ (convertRow i).isSome ∨ (specialRow i).isSome ∨ (moveRow i).isSome ∨ (fetchRow i).isSome ∨
      (crewRow i).isSome ∨ (voteRow i).isSome ∨ (branchRow i).isSome ∨ isPass i = true ∨ (fenceRow i).isSome ∨ (flagRow i).isSome ∨ (hintRow i).isSome ∨ isRow i = true) →
    i.form = some fm → s.issues fm = true →
      ∃ t, exec i s = .next t ∧ onlyStrands s t fm

/-! ## Teller instructions -/

/-- R31, R258 to R260: the arithmetic of a teller writes its one destination, or nothing where that is s0, goes on to the next word, takes 3
teller cycles for a product and 1 else, and changes nothing but its teller. -/
def Obligations.TellerArithmetic : Prop :=
  ∀ (i : Instr) (d : BitVec 6) (rule : Teller → Word) (n : Nat) (s : State) (g : Group),
    tellerRow i = some (d, rule, n) → s.curTeller = some g → tellerCompletes i s g [(d, rule g.teller)] n

/-- R261, R262: a teller's branches, jump, call and return, 2 teller cycles when they go elsewhere, 1 for a branch that does not. -/
def Obligations.TellerFlow : Prop :=
  ∀ (s : State) (g : Group), s.curTeller = some g →
    (∀ i o taken, tellerBranches i = some (o, taken) → taken g.teller = true → ∃ t, exec i s = .next t ∧
      groupBecomes s t g { g with teller := tellerAt s g (g.teller.pc + BitVec.ofInt 64 (4 * o.toInt)) g.teller.rstack 2 }) ∧
    (∀ i o taken, tellerBranches i = some (o, taken) → taken g.teller = false → tellerCompletes i s g [] 1) ∧
    (∀ o : BitVec 18, ∃ t, exec (.tjmp o) s = .next t ∧
      groupBecomes s t g { g with teller := tellerAt s g (g.teller.pc + BitVec.ofInt 64 (4 * o.toInt)) g.teller.rstack 2 }) ∧
    (∀ o : BitVec 18, g.teller.rstack.length < 8 → ∃ t, exec (.tcall o) s = .next t ∧
      groupBecomes s t g
        { g with teller := tellerAt s g (g.teller.pc + BitVec.ofInt 64 (4 * o.toInt)) ((g.teller.pc + 4) :: g.teller.rstack) 2 }) ∧
    ∀ pc rest, g.teller.rstack = pc :: rest → ∃ t, exec .tret s = .next t ∧ groupBecomes s t g { g with teller := tellerAt s g pc rest 2 }

/-- R256, R263, R264, R132: `tld`, `tld.d`, `tst`, `tst.d` and each of the ten `tatom` COMPLETE through K = 7, for every state and operands in
which the access lies inside the column's window and is aligned: exec answers the state in which the bank's bytes are read, what the
instruction stores stands in their place and nothing else, in 20 cycles, or 24 for an atomic. That it takes effect at its issue is the
model's choice (log 126). -/
def Obligations.TellerWindowAccesses : Prop :=
  ∀ (i : Instr) (r : TellerAcc) (s : State) (g : Group),
    tellerAccRow i = some r → s.curTeller = some g → segAt g r = 7 → offsetAt g r < 2 ^ 32 →
    windowAt g r + r.size ≤ g.wsize → windowAt g r % r.size = 0 →
      let old := s.mems.scratchRead g.core (g.wbase + windowAt g r) r.size
      let mems := match r.new g.teller old with | some bs => s.mems.scratchWrite g.core (g.wbase + windowAt g r) bs | none => s.mems
      ∃ t, exec i s = .next t ∧
        groupBecomes { s with mems := mems } t g { g with teller := tellerDone s g (r.results old) (windowCycles r) }

/-- R217, R228, R256, R263 to R265, R339: a teller's access through another segment, aligned, is one step at its home. The same fourteen
forms COMPLETE there on an address whose line its slice holds under a leaf that grants the access, with no switch, freeze or shadow in the
way, no transaction of the line under way, no store left in an L1 and, for a write, none of its core to the line before it: the old bytes
come back, the line then holds what the instruction stores, and a change of memory is owed its acknowledgement. Wherever else the home serves
the access it completes with what the home gives; one that the home holds is issued again; a translation fault parks the teller; a marked
line, an unpublished shadow, the weight store and host memory without CXLCACHE trap with class 4 and codes 1, 2, 5 and 13. That the access
takes effect at its issue, and the cycles it takes, are the model's choice (log 126). -/
def Obligations.TellerGlobalAccesses : Prop :=
  ∀ (i : Instr) (r : TellerAcc) (s : State) (g : Group),
    tellerAccRow i = some r → s.curTeller = some g → segAt g r < 7 → (addressAt g r).toNat % r.size = 0 →
      let va := (addressAt g r).toNat
      let asid := (s.ctxAt g.ctx).asid
      let home := s.tellerGlobal g va r.size (r.act g.teller)
      (∀ h, lineServes s g.ctx va g.core r.want h → (r.want ≠ .load → s.writesAhead g.core asid (va / 128) = false) →
          let old := (s.readSite (.l2 h.key) va r.size).1
          ∃ t, exec i s = .next t ∧
            t.group? g.id = some { g with teller := tellerDone s g (r.results old) (sliceCycles r g.core (va / 128)) } ∧
            (t.accs = s.accs ↔ r.new g.teller old = none) ∧
            ∀ bs, r.new g.teller old = some bs → ∃ x, t.l2Key? h.key = some x ∧ x.dirty = true ∧
              lineBytesAt x va r.size = bs) ∧
      (∀ old cycles u, home = .ok (old, cycles, u) → exec i s = .next (u.modTeller g.id fun x =>
        { x with s := regsAfter x (r.results old), pc := x.pc + 4, ready := s.cycle g.core + cycles, wait := none })) ∧
      (home = .error .held → exec i s = .next s) ∧
      (∀ cause va, home = .error (.walk cause va) → ∃ t fid y, exec i s = .next t ∧ t.group? g.id = some y ∧ y.teller.parked = some fid ∧
        y.teller.pc = g.teller.pc ∧ y.teller.s = g.teller.s) ∧
      (∀ va, columnRuns s g →
        (home = .error (.frozen va) → tellerTraps i s g 4 1 (BitVec.ofNat 64 va)) ∧
        (home = .error (.shadow va) → tellerTraps i s g 4 2 (BitVec.ofNat 64 va)) ∧
        (home = .error (.wstore va) → tellerTraps i s g 4 5 (BitVec.ofNat 64 va)) ∧
        (home = .error (.unavailable va) → tellerTraps i s g 4 13 (BitVec.ofNat 64 va)))

/-- R265, R268, R269, R282, R284: `tfence.grp`, `tfence.dev` and `tnop`, whose word is 0xE8000000, pass; `tfence.sys` passes, or waits until the
teller's earlier accesses are acknowledged; `tqwait` waits for a queue with room, of 0 to 6; `dqput` appends an entry once there is room
for it; `gdone` waits for the threads. -/
def Obligations.TellerQueues : Prop :=
  ∀ (s : State) (g : Group), s.curTeller = some g →
    (∀ i, isTellerPass i = true → tellerCompletes i s g [] 1) ∧
    (if s.unacked g.id = true then tellerWaits .tfenceSys s g .acks else tellerCompletes .tfenceSys s g [] 1) ∧
    (∀ q : BitVec 12, q.toNat ≤ 6 → if s.queueUsed g.core q.toNat < 16 then tellerCompletes (.tqwait q) s g [] 1
      else tellerWaits (.tqwait q) s g (.queue q.toNat)) ∧
    (∀ a b : BitVec 6, g.teller.reg b ≠ 0 → (g.teller.reg b).toNat ≤ 8192 → g.kernel.dqd ≠ 0 →
      if g.dq.length < g.kernel.dqd then ∃ t, exec (.dqput a b) s = .next t ∧ groupBecomes s t g { g with
        dq := g.dq ++ [{ seq := g.dqNext, value := g.teller.reg a, readers := (g.teller.reg b).toNat }], dqNext := g.dqNext + 1,
        teller := tellerDone s g [] 1 }
      else tellerWaits (.dqput a b) s g .dqRoom) ∧
    (∀ q : BitVec 12, 7 ≤ q.toNat → columnRuns s g → tellerTraps (.tqwait q) s g 1 0 0) ∧
    tellerWaits .gdone s g .threads ∧ encode .tnop = .teller 0xE8000000

/-- R270 to R273: `evwait` returns the wake bits that its mask selects, and clears them in its `.clr` form, or waits for one; `evroute`
gives an output a new route with a counter at 0, or releases it, after what the old counter has reached has fired; `tsexp` adds to TARGET in
24 teller cycles, and a COUNT already past the new TARGET sets ERR and stops the group with class 5 after the instruction; `tswait` reads
GEN once it differs, in 20. `evwait` and `tswait` acquire (which stores they put before what follows is the model's choice: log 140). -/
def Obligations.TellerEvents : Prop :=
  ∀ (s : State) (g : Group), s.curTeller = some g →
    (∀ d a : BitVec 6, g.teller.reg a ≠ 0 → (g.teller.reg a).toNat < 2 ^ 16 →
      let hit := g.teller.wake &&& BitVec.ofNat 16 (g.teller.reg a).toNat
      if hit = 0 then tellerWaits (.evwait d a) s g (.wake (BitVec.ofNat 16 (g.teller.reg a).toNat)) ∧
        tellerWaits (.evwaitClr d a) s g (.wake (BitVec.ofNat 16 (g.teller.reg a).toNat))
      else (∃ t, exec (.evwait d a) s = .next t ∧ groupBecomes s t g { g with teller := tellerAcquires s g [(d, BitVec.ofNat 32 hit.toNat)] 1 }) ∧
        ∃ t, exec (.evwaitClr d a) s = .next t ∧ groupBecomes s t g { g with teller :=
          { tellerAcquires s g [(d, BitVec.ofNat 32 hit.toNat)] 1 with wake := g.teller.wake &&& ~~~hit } }) ∧
    (∀ a b : BitVec 6,
      let out := (g.teller.reg a).toNat
      let w := g.teller.reg b
      let dest := w.toNat / 2 ^ 28
      let others := s.routes.filter fun r => !(r.core == g.core && r.out == out)
      out < 15 → w.getLsbD 15 = false → (dest = 0 ∨ 8 ≤ dest ∧ dest ≤ 14 ∧ g.pushed.getLsbD (dest - 8) = true) →
      (∀ r ∈ s.routes, r.core = g.core → r.out = out → r.gid = g.id) →
        exec (.evroute a b) s = exec (.evroute a b) (s.fire g.core out) ∧
        ((∀ r ∈ s.routes, r.core = g.core → r.out = out → r.fires = false) → ∃ t, exec (.evroute a b) s = .next t ∧ groupBecomes
          { s with routes := others ++ (if w.toNat / 2 ^ 16 % 2 ^ 12 = 0 then [] else [{ core := g.core, out := out, gid := g.id, word := w, count := 0 }]) }
          t g { g with teller := tellerDone s g [] 1 })) ∧
    (∀ a b : BitVec 6, (g.teller.reg a).toNat + 16 ≤ g.wsize → (g.teller.reg a).toNat % 16 = 0 →
      let at_ := g.wbase + (g.teller.reg a).toNat
      let old := SyncWord.ofBytes (s.mems.scratchRead g.core at_ 16)
      let new := syncWordAfter old (g.teller.reg b) 0
      ∃ t y, exec (.tsexp a b) s = .next t ∧ t.mems = s.mems.scratchWrite g.core at_ new.bytes ∧ t.group? g.id = some y ∧
        y.teller = tellerDone s g [] 24 ∧
        (columnRuns s g → new.ctl ≠ old.ctl → ∃ st, t.stopOf g.id.column = some st ∧
          st.trap = some { Trap.ofTeller 5 0 g.id g.teller.pc with atIssue := false })) ∧
    ∀ d a b : BitVec 6, (g.teller.reg a).toNat + 16 ≤ g.wsize → (g.teller.reg a).toNat % 16 = 0 →
      let gen := wordOf (s.mems.scratchRead g.core (g.wbase + (g.teller.reg a).toNat + 8) 4)
      if gen = g.teller.reg b then tellerWaits (.tswait d a b) s g (.gen (g.teller.reg a) (g.teller.reg b))
      else ∃ t, exec (.tswait d a b) s = .next t ∧ groupBecomes s t g { g with teller := tellerAcquires s g [(d, gen)] 20 }

/-- R274 to R276, R346: `frz` makes the request for its pages to the coordinator and waits for the answer; `thaw` lowers the nesting count
of its freeze, and at the coordinator asks for the thaw at 0, at another device tells the coordinator; `thwait` waits until no thaw of its
id is in progress; `publ` begins the publication and waits for it. The contents of the message and its lane are the model's choices (logs 32,
100). -/
def Obligations.TellerFreezes : Prop :=
  ∀ (s : State) (g : Group), s.curTeller = some g →
    (∀ d a b : BitVec 6,
      let k := (g.teller.pair a).toNat / 2 ^ 61
      let base := (g.seg.getD k 0 + BitVec.ofNat 64 ((g.teller.pair a).toNat % 2 ^ 61)).toNat
      let pages := (g.teller.reg b).toNat
      k < 7 → base % 4096 = 0 → 1 ≤ pages → pages ≤ 2 ^ 20 → base + pages * 4096 ≤ 2 ^ 57 → s.rangeBusy g.ctx base pages = false →
        ∃ t, exec (.frz d a b) s = .next t ∧ groupBecomes
          { s with
            nextId := s.nextId + 1
            frzReqs := s.frzReqs ++ [⟨s.nextId, some g.id, (s.ctxAt g.ctx).asid, base / 4096, pages, s.mgmt.chipid.toNat % 256, false⟩] }
          t g { g with teller := { g.teller with wait := some (.freeze d s.nextId) } }) ∧
    (∀ (a : BitVec 6) (f : Freeze),
      s.freezes.find? (fun f => f.id == (g.teller.reg a).toNat && f.asid == (s.ctxAt g.ctx).asid && (f.st == .freezing || f.st == .active) &&
        f.count != 0) = some f →
        ∃ t y, exec (.thaw a) s = .next t ∧ t.group? g.id = some y ∧ y = { g with teller := tellerDone s g [] 1 } ∧
          t.freezes = (s.freezes.map fun x => if x.id = f.id then { x with count := x.count - 1 } else x) ∧
          let asid := (s.ctxAt g.ctx).asid
          let m : PeerMsg := .thaw asid f.id false
          (s.isCoord = true → t.thawReqs = s.thawReqs ++ (if f.count = 1 ∧ (asid, f.id) ∉ s.thawReqs then [(asid, f.id)] else [])) ∧
          (s.isCoord = false → t.thawReqs = s.thawReqs ∧
            match s.route? s.mgmt.coord (homeHash 0 % 8) with
            | some r => t.out = s.out ++ [.toPeer s.mgmt.coord (s.flitOf r m)] ∧ t.txNext r.link = s.txNext r.link + 1
            | none => t.heldOut = s.heldOut ++ [(s.mgmt.coord, homeHash 0 % 8, m)])) ∧
    (∀ a : BitVec 6, if ∃ f ∈ s.freezes, f.id = (g.teller.reg a).toNat ∧ f.count = 0 then
        tellerWaits (.thwait a) s g (.thawed (g.teller.reg a).toNat)
      else tellerCompletes (.thwait a) s g [] 1) ∧
    ∀ (a : BitVec 6) (p : Shadow), s.shadows.find? (fun p => p.ctx == g.ctx && p.id == (g.teller.reg a).toNat) = some p →
      ∃ t y, exec (.publ a) s = .next t ∧ t.group? g.id = some y ∧
        y = { g with teller := { g.teller with wait := some (.published (g.teller.reg a).toNat) } } ∧
        ∃ q, t.shadows.find? (fun p => p.ctx == g.ctx && p.id == (g.teller.reg a).toNat) = some q ∧ q.publishing = true

/-- R143, R277 to R281: `setfmt` and `setxv` write a format register and `sfmode` the mode, which instructions of the same cycle do not see;
`ratio` and `tread` read the ratio word and the special registers 4 to 18, 64-bit ones to a pair, in a launch that captures nothing; `rreq`
replaces the launch's clock request and triggers the exchange where the launch governs. -/
def Obligations.TellerFormatsAndReads : Prop :=
  ∀ (s : State) (g : Group), s.curTeller = some g →
    (∀ (a : BitVec 6) (k : BitVec 3) (w : Word) (i : Instr),
      (i = .setfmt a k ∧ w = g.teller.reg a ∨
        i = .setxv a k ∧ (g.teller.reg a).toNat < 2 ^ 9 ∧
          w = (g.nf.getD k.toNat fmtReset &&& ~~~0x07FC0000#32) ||| BitVec.ofNat 32 ((g.teller.reg a).toNat / 2 ^ 8 * 2 ^ 18) |||
            BitVec.ofNat 32 ((g.teller.reg a).toNat % 2 ^ 8 * 2 ^ 19)) →
      fmtLegal w = true → (w.getLsbD 18 = true → Config.available 7 = true) →
        ∃ t G, exec i s = .next t ∧ groupBecomes s t g G ∧ G.teller = tellerDone s g [] 1 ∧ G.nf = g.nf.set k.toNat w ∧ G.sfmode = g.sfmode ∧
          (∀ j, G.nfAt (s.cycle g.core) j = g.nfAt (s.cycle g.core) j) ∧ ∀ c j, c ≠ s.cycle g.core → G.nfAt c j = G.nf.getD j fmtReset) ∧
    (∀ m : BitVec 1, ∃ t G, exec (.sfmode m) s = .next t ∧ groupBecomes s t g G ∧ G.teller = tellerDone s g [] 1 ∧ G.nf = g.nf ∧
      (G.sfmode = true ↔ m = 1) ∧ G.sfAt (s.cycle g.core) = g.sfAt (s.cycle g.core)) ∧
    (uncaptured s g.id.launch →
      (∀ d : BitVec 6, tellerCompletes (.ratio d) s g [(d, s.ratioWord (dieOf g.core))] 1) ∧
      ∀ (d : BitVec 6) (n : BitVec 18), 4 ≤ n.toNat → n.toNat ≤ 18 →
        tellerCompletes (.tread d n) s g
          ((d, BitVec.ofNat 32 (s.groupReg g n.toNat)) ::
            if n.toNat = 14 ∨ n.toNat = 15 ∨ n.toNat = 18 then [(d + 1, BitVec.ofNat 32 (s.groupReg g n.toNat / 2 ^ 32))] else []) 1) ∧
    ∀ a : BitVec 6, ∃ t y, exec (.rreq a) s = .next t ∧ t.group? g.id = some y ∧ y = { g with teller := tellerDone s g [] 1 } ∧
      t.launches = (s.launches.map fun l => if l.seq = g.id.launch then { l with clkreq := g.teller.reg a } else l) ∧
      t.exch = { s.exch with trigger := s.exch.trigger || s.governs g.id.launch }

/-- R243, R244, R280: `tbar.arv` and `tbar.sync` COMPLETE an arrival, with a count of 1 to 511, at a barrier where the teller has not arrived:
the barrier counts it, `tbar.sync` waits for the phase, and the arrival that completes the phase ends it: the strands that slept there go on
after the accesses that its arrivals release, and so does a `tbar.sync`, whose wait is over. A second arrival in a phase waits for its end,
and a count other than the phase's traps with class 1 code 3. -/
def Obligations.TellerBarriers : Prop :=
  ∀ (s : State) (g : Group) (a : BitVec 6) (b : BitVec 4) (x : Barrier), s.curTeller = some g →
    1 ≤ (g.teller.reg a).toNat → (g.teller.reg a).toNat ≤ 511 → b.toNat < g.kernel.nbar → g.bars[b.toNat]? = some x →
    ∀ (i : Instr) (sync : Bool), (i = .tbarArv a b ∧ sync = false ∨ i = .tbarSync a b ∧ sync = true) →
      (x.tarr = true → tellerWaits i s g (.arrival b.toNat)) ∧
      (x.tarr = false → firstArrival x = false → (g.teller.reg a).toNat ≠ x.cnt → columnRuns s g → tellerTraps i s g 1 3 0) ∧
      (x.tarr = false → (firstArrival x = true ∨ (g.teller.reg a).toNat = x.cnt) →
        ∃ t y z, exec i s = .next t ∧ t.group? g.id = some y ∧ y.bars[b.toNat]? = some z ∧ t.mems = s.mems ∧
          if x.arrive + 1 = expects g x (g.teller.reg a).toNat then
            z.phase = x.phase + 1 ∧ z.arrive = 0 ∧ z.arrived = [] ∧ z.waiting = [] ∧ z.tarr = false ∧ z.twait = false ∧ z.left = x.left ∧
              y.teller = (if sync then { tellerDone s g [] 1 with after := g.teller.after ++ x.before } else tellerDone s g [] 1) ∧
              ∀ tid n st pc, s.strand? g.id tid n = some st → st.sleep = some (b.toNat, pc) →
                t.strand? g.id tid n = some { st with pc := pc, sleep := none, after := st.after ++ x.before }
          else
            z.phase = x.phase ∧ z.arrive = x.arrive + 1 ∧ z.tarr = true ∧ z.twait = sync ∧ z.arrived = x.arrived ∧
              y.teller = (if sync then { g.teller with wait := some (.barrier b.toNat) } else tellerDone s g [] 1) ∧
              ∀ tid n, t.strand? g.id tid n = s.strand? g.id tid n)

/-- R267, R271, R286, R300, R309: a push that passes the checks, in a launch that captures nothing: with room it enters the command, queued,
held in an empty held slot, or ready where its slot's trigger has come, marks the queue as pushed to and writes 0; without room, or into a held
slot that is another's or not triggered or that holds a command, it enters nothing and writes 1. It takes 4 teller cycles. -/
def Obligations.TellerPush : Prop :=
  ∀ (s : State) (g : Group) (d a : BitVec 6), s.curTeller = some g → a.toNat ≤ 48 → uncaptured s g.id.launch →
    let ws := (List.range 16).map fun i => g.teller.reg (a + BitVec.ofNat 6 i)
    s.badCommand g (s.offered g ws) = false →
    let held := ws.headD 0 |>.getLsbD 8
    let queue := (ws.headD 0).toNat % 16
    let slot := (ws.headD 0).toNat / 2 ^ 10 % 2
    let triggered : Prop := ∃ h, s.slot? g.core slot = some h ∧ h.owner = g.id ∧ h.pending = true ∧ s.slotCmd? g.core slot = none
    (held = false ∧ s.queueUsed g.core queue < 16 ∨ held = true ∧ (s.slot? g.core slot = none ∨ triggered) →
      ∃ t y c, exec (.push d a) s = .next t ∧ t.group? g.id = some y ∧ y.teller = tellerDone s g [(d, 0)] 4 ∧
        y.pushed = g.pushed ||| BitVec.ofNat 7 (2 ^ queue) ∧ t.cmds = s.cmds ++ [c] ∧ c.id = s.nextId ∧ t.nextId = s.nextId + 1 ∧
        c.words = ws ∧ c.gid = g.id ∧ c.core = g.core ∧ c.queue = queue ∧
        c.st = (if held = false then .queued else if s.slot? g.core slot = none then .held else .ready) ∧
        t.held = (if held = true ∧ s.slot? g.core slot = none then s.held ++ [⟨g.core, slot, g.id, false⟩] else s.held)) ∧
    (held = false ∧ 16 ≤ s.queueUsed g.core queue ∨ held = true ∧ (s.slot? g.core slot).isSome = true ∧ ¬triggered → tellerCompletes (.push d a) s g [(d, 1)] 4)

/-- R112, R255, R256, R262, R268, R269, R271, R273 to R277, R280, R281, R283, R287: where a teller's instruction traps, at its own address: a
software trap with class 8, a full or empty return stack with class 6, an operand it may not have with class 1 code 0 (the model's reading:
log 109), another group's output with code 4, a bad command, whatever the room (log 11), with code 5, a queue not pushed to with code 6, NFXV
where it is not there with code 7, an access or sync word beyond the window or misaligned with class 4 codes 6 and 3, a freeze, thaw or
publication that is not allowed with class 4 codes 9, 11 and 12. -/
def Obligations.TellerTraps : Prop :=
  ∀ (s : State) (g : Group), s.curTeller = some g → columnRuns s g →
    (∀ c : BitVec 13, tellerTraps (.ttrap c) s g 8 c.toNat 0) ∧
    (∀ w : Word, tellerTraps (.illegalTellerWord w) s g 1 0 0) ∧
    (∀ o : BitVec 18, 8 ≤ g.teller.rstack.length → tellerTraps (.tcall o) s g 6 1 0) ∧
    (g.teller.rstack = [] → tellerTraps .tret s g 6 2 0) ∧
    (∀ q : BitVec 12, 6 < q.toNat → tellerTraps (.tqwait q) s g 1 0 0) ∧
    (∀ a b : BitVec 6, (g.teller.reg b = 0 ∨ 8192 < (g.teller.reg b).toNat ∨ g.kernel.dqd = 0) → tellerTraps (.dqput a b) s g 1 0 0) ∧
    (∀ d a : BitVec 6, ((g.teller.reg a).toNat % 2 ^ 16 = 0 ∨ 2 ^ 16 ≤ (g.teller.reg a).toNat) →
      tellerTraps (.evwait d a) s g 1 0 0 ∧ tellerTraps (.evwaitClr d a) s g 1 0 0) ∧
    (∀ d a : BitVec 6, 48 < a.toNat → tellerTraps (.push d a) s g 1 0 0) ∧
    (∀ d a : BitVec 6, a.toNat ≤ 48 →
      s.badCommand g (s.offered g ((List.range 16).map fun i => g.teller.reg (a + BitVec.ofNat 6 i))) = true → tellerTraps (.push d a) s g 1 5 0) ∧
    (∀ (d : BitVec 6) (n : BitVec 18), (n.toNat < 4 ∨ 18 < n.toNat) → tellerTraps (.tread d n) s g 1 0 0) ∧
    (∀ (a : BitVec 6) (b : BitVec 4), (g.teller.reg a = 0 ∨ 511 < (g.teller.reg a).toNat ∨ g.kernel.nbar ≤ b.toNat) →
      tellerTraps (.tbarArv a b) s g 1 0 0 ∧ tellerTraps (.tbarSync a b) s g 1 0 0) ∧
    (∀ (a : BitVec 6) (k : BitVec 3), fmtLegal (g.teller.reg a) = false → tellerTraps (.setfmt a k) s g 1 0 0) ∧
    (∀ (a : BitVec 6) (k : BitVec 3), fmtLegal (g.teller.reg a) = true → (g.teller.reg a).getLsbD 18 = true → Config.available 7 = false →
      tellerTraps (.setfmt a k) s g 1 7 0) ∧
    (∀ (a : BitVec 6) (k : BitVec 3), 2 ^ 9 ≤ (g.teller.reg a).toNat → tellerTraps (.setxv a k) s g 1 0 0) ∧
    (∀ a b : BitVec 6,
      let out := (g.teller.reg a).toNat
      let w := g.teller.reg b
      let dest := w.toNat / 2 ^ 28
      (15 ≤ out ∨ w.getLsbD 15 = true ∨ 1 ≤ dest ∧ dest < 8 ∨ dest = 15 → tellerTraps (.evroute a b) s g 1 0 0) ∧
      (out < 15 → w.getLsbD 15 = false → (dest = 0 ∨ 8 ≤ dest ∧ dest ≤ 14) →
        ((∃ r ∈ s.routes, r.core = g.core ∧ r.out = out ∧ r.gid ≠ g.id) → tellerTraps (.evroute a b) s g 1 4 0) ∧
        ((∀ r ∈ s.routes, r.core = g.core → r.out = out → r.gid = g.id) → 8 ≤ dest → g.pushed.getLsbD (dest - 8) = false →
          tellerTraps (.evroute a b) s g 1 6 0))) ∧
    (∀ d a b : BitVec 6,
      let k := (g.teller.pair a).toNat / 2 ^ 61
      let base := g.seg.getD k 0 + BitVec.ofNat 64 ((g.teller.pair a).toNat % 2 ^ 61)
      let pages := (g.teller.reg b).toNat
      (k < 7 → (base.toNat % 4096 ≠ 0 ∨ pages = 0 ∨ 2 ^ 20 < pages ∨ 2 ^ 57 < base.toNat + pages * 4096 ∨ s.rangeBusy g.ctx base.toNat pages = true) →
        tellerTraps (.frz d a b) s g 4 9 base) ∧
      (k = 7 → ∃ va, tellerTraps (.frz d a b) s g 4 9 va)) ∧
    (∀ a : BitVec 6, (∀ f ∈ s.freezes, ¬(f.id = (g.teller.reg a).toNat ∧ f.asid = (s.ctxAt g.ctx).asid ∧ (f.st = .freezing ∨ f.st = .active) ∧
      f.count ≠ 0)) → tellerTraps (.thaw a) s g 4 11 0) ∧
    (∀ a : BitVec 6, (∀ p ∈ s.shadows, ¬(p.ctx = g.ctx ∧ p.id = (g.teller.reg a).toNat)) → tellerTraps (.publ a) s g 4 12 0) ∧
    (∀ d a b : BitVec 6, ∀ i, (i = .tsexp a b ∨ i = .tswait d a b) → let off := (g.teller.reg a).toNat
      (g.wsize < off + 16 → tellerTraps i s g 4 6 ((g.teller.reg a).setWidth 64)) ∧
      (off + 16 ≤ g.wsize → off % 16 ≠ 0 → tellerTraps i s g 4 3 ((g.teller.reg a).setWidth 64))) ∧
    (∀ (i : Instr) (r : TellerAcc), tellerAccRow i = some r →
      (segAt g r = 7 → 2 ^ 32 ≤ offsetAt g r → tellerTraps i s g 4 6 (BitVec.ofNat 64 (offsetAt g r))) ∧
      (segAt g r < 7 → (addressAt g r).toNat % r.size ≠ 0 → tellerTraps i s g 4 3 (addressAt g r))) ∧
    ∀ (i : Instr) (r : TellerAcc), tellerAccRow i = some r → segAt g r = 7 → offsetAt g r < 2 ^ 32 →
      (g.wsize < windowAt g r + r.size → tellerTraps i s g 4 6 (BitVec.ofNat 64 (windowAt g r))) ∧
      (windowAt g r + r.size ≤ g.wsize → windowAt g r % r.size ≠ 0 → tellerTraps i s g 4 3 (BitVec.ofNat 64 (windowAt g r)))

/-- R257, R265, R275, R276, R280, R282: where a teller's wait is over, `frz` answers its id, `publ` and `tbar.sync` complete, `gdone` is done, and
any other instruction is issued again; where it is not, nothing changes. -/
def Obligations.TellerWakes : Prop :=
  ∀ (s : State) (g : Group), s.group? g.id = some g →
    let waits (w : Wait) : Prop := g.teller.wait = some w
    let again : Prop := ∃ t, exec (.tellerWake g.id) s = .next t ∧ groupBecomes s t g { g with teller := { g.teller with wait := none } }
    let stays : Prop := exec (.tellerWake g.id) s = .next s
    let completes (ws : List (BitVec 6 × Word)) : Prop := tellerCompletes (.tellerWake g.id) s g ws 1
    (∀ q, waits (.queue q) → (s.queueUsed g.core q < 16 → again) ∧ (16 ≤ s.queueUsed g.core q → stays)) ∧
    (waits .dqRoom → (g.dq.length < g.kernel.dqd → again) ∧ (g.kernel.dqd ≤ g.dq.length → stays)) ∧
    (∀ m, waits (.wake m) → (g.teller.wake &&& m ≠ 0 → again) ∧ (g.teller.wake &&& m = 0 → stays)) ∧
    (∀ off gen, waits (.gen off gen) →
      let now := wordOf (s.mems.scratchRead g.core (g.wbase + off.toNat + 8) 4)
      (now ≠ gen → again) ∧ (now = gen → stays)) ∧
    (∀ id, waits (.thawed id) → ((∀ f ∈ s.freezes, ¬(f.id = id ∧ f.count = 0)) → again) ∧ ((∃ f ∈ s.freezes, f.id = id ∧ f.count = 0) → stays)) ∧
    (∀ b, waits (.arrival b) → ((g.bar b).tarr = false → again) ∧ ((g.bar b).tarr = true → stays)) ∧
    (waits .acks → (s.unacked g.id = false → again) ∧ (s.unacked g.id = true → stays)) ∧
    (∀ d id, waits (.frozen d id) → ((∀ f ∈ s.freezes, f.id = id → f.st ≠ .freezing) → uncaptured s g.id.launch →
      completes [(d, BitVec.ofNat 32 id)]) ∧ ((∃ f ∈ s.freezes, f.id = id ∧ f.st = .freezing) → stays)) ∧
    (∀ id, waits (.published id) → ((∀ p ∈ s.shadows, ¬(p.ctx = g.ctx ∧ p.id = id)) → completes []) ∧
      ((∃ p ∈ s.shadows, p.ctx = g.ctx ∧ p.id = id) → stays)) ∧
    (∀ b, waits (.barrier b) → ((g.bar b).twait = false → completes []) ∧ ((g.bar b).twait = true → stays)) ∧
    (waits .threads →
      ((∀ th ∈ g.threads, th.retired = true) → s.stopOf g.id.column = none →
        ∃ t, exec (.tellerWake g.id) s = .next t ∧ groupBecomes s t g { g with teller := { g.teller with done := true, wait := none } }) ∧
      ((∃ th ∈ g.threads, th.retired = false) → stays))

/-! ## Device events -/

/-- R286, R288, R292, R297 to R303, R310, R312, R315: a command that may start starts: it runs, numbered after every command started before,
and spends its gate credit once; a SHADOW opens its pair; a COLLECT becomes the next collective of its communicator, or stays the one that it
was when it starts again. That a command which starts again spends no second credit is the model's reading (log 12, DEDUCED). -/
def Obligations.CommandsStart : Prop :=
  (∀ (i : Instr) (id kind : Nat) (s : State) (c : Cmd), startRow i = some (id, kind) → s.cmd? id = some c → c.kind = kind → s.canStart c = true →
    (kind = 3 → ∀ x ∈ s.cmds, x.core = c.core → x.decomp = true → x.tbl = cmdField c.words 96 2 → c.tgen ≤ x.tgen) →
      answers i s fun t => t.mems = s.mems ∧ t.nextId = s.nextId + 1 ∧
        t.cmd? id = some { c with st := .started, start := s.nextId + 1 } ∧
        (∀ x, x ≠ id → t.cmd? x = s.cmd? x) ∧
        ∀ g, s.group? c.gid = some g → ∃ y, t.group? c.gid = some y ∧
          y.credits = if c.gate = true ∧ c.start = 0 then g.credits.modify c.queue (· - 1) else g.credits) ∧
  (∀ (id : Nat) (s : State) (c : Cmd), s.cmd? id = some c → c.kind = 4 → s.canStart c = true →
    let dst := (s.cmdAddr c 32 0).num
    let shd := (s.cmdAddr c 96 0).num
    let pages := cmdField c.words 160 16
    (∀ k < pages, s.pairable c.ctx (dst + k * 4096) = true ∧ s.pairable c.ctx (shd + k * 4096) = true) →
    (shd + pages * 4096 ≤ dst ∨ dst + pages * 4096 ≤ shd) → s.shadows.length < 64 →
    (∀ p ∈ s.shadows, ¬(p.ctx = c.ctx ∧ p.id = cmdField c.words 176 8)) →
      answers (.shadow id) s fun t => t.shadows = s.shadows ++ [⟨cmdField c.words 176 8, c.ctx, dst, shd, pages, false, []⟩] ∧ ∃ y, t.cmd? id = some y ∧ y.st = .started ∧ y.finished = true) ∧
  ∀ (i : Instr) (id op : Nat) (s : State) (c : Cmd) (p : Shadow) (dst : Addr), collectRow i = some (id, op) → s.cmd? id = some c → c.kind = 5 →
    cmdField c.words 198 2 = op → s.canStart c = true → s.commSize c.comm ≠ 0 →
    s.cmdAddr c 96 0 = .glob dst → s.pairOfDst? c.ctx dst.toNat = some p →
    dst.toNat + c.collectLen (s.commSize c.comm) ≤ p.dst + p.pages * 4096 →
      answers i s fun t =>
        let next := match s.collSeq.find? (·.1 == c.comm) with | some q => q.2 | none => 0
        (c.collNo = none → t.collSeq.find? (·.1 == c.comm) = some (c.comm, next + 1)) ∧ (c.collNo ≠ none → t.collSeq = s.collSeq) ∧
        ∃ y, t.cmd? id = some y ∧ y.st = .started ∧ y.prog = c.collNo.getD next ∧ y.collNo = some y.prog

/-- R288, R292, R296, R298, R303, R307, R308, R339: in its queue's turn a copy or gather reads the next part of its run, from the window or
from the line that a slice holds, then writes it there, and out of its turn it does neither; under DECOMP it reads a word of the stream while
its decode wants more, and writes the decoded bytes; under TRANSPOSE it writes a row's part of one plane, bit j of which is bit w - 1 - p of
element j; then it begins its next run or has finished. A MATRIX command whose lends are all claimed,
and what preceded them performed, takes one step at a time, every other one where another has steps to do, and has finished after its last. -/
def Obligations.EnginesRun : Prop :=
  ∀ (s : State) (c : Cmd), runs s c →
    (s.hasTurn c = false → exec (.engineRead c.id) s = .next s ∧ exec (.engineWrite c.id) s = .next s) ∧
    (∀ off n, movesBytes c → s.hasTurn c = true → s.haltsAt c = false → c.readBytes.length < c.len →
      nextPart (s.runSrc c c.iter) c.len c.readBytes.length = (.window off, n) → off + n ≤ (s.windowOf c).2 →
        answers (.engineRead c.id) s fun t => t.mems = s.mems ∧
          t.cmd? c.id = some { c with readBytes := c.readBytes ++ s.mems.scratchRead c.core ((s.windowOf c).1 + off) n }) ∧
    (∀ va n h, movesBytes c → s.hasTurn c = true → s.haltsAt c = false → c.readBytes.length < c.len →
      nextPart (s.runSrc c c.iter) c.len c.readBytes.length = (.glob va, n) → lineServes s c.ctx va.toNat c.core .load h →
        answers (.engineRead c.id) s fun t =>
          t.cmd? c.id = some { c with readBytes := c.readBytes ++ (s.readSite (.l2 h.key) va.toNat n).1 }) ∧
    (∀ va n h, movesBytes c → s.hasTurn c = true → c.wrote < c.len →
      nextPart (s.runDst c c.iter) c.len c.wrote = (.glob va, n) → c.wrote + n ≤ c.readBytes.length →
      lineServes s c.ctx va.toNat c.core .store h → s.pairOfDst? c.ctx va.toNat = none → (∀ b ∈ s.overlapped c (.glob va) n, b = false) →
        answers (.engineWrite c.id) s fun t => t.cmd? c.id = some { c with wrote := c.wrote + n } ∧
          ∃ x, t.l2Key? h.key = some x ∧ x.dirty = true ∧ lineBytesAt x va.toNat n = (c.readBytes.drop c.wrote).take n) ∧
    (∀ off, c.kind ≤ 1 → c.decomp = true → (c.kind = 1 → c.idx.isSome = true) → s.hasTurn c = true → s.tableMissing c = false → c.wrote = 0 →
      c.ahead = [] → (s.decoded c).2 = .more → s.streamAt c = .window off → off + 4 ≤ (s.windowOf c).2 →
        answers (.engineRead c.id) s fun t => t.mems = s.mems ∧
          t.cmd? c.id = some { c with readBytes := c.readBytes ++ s.mems.scratchRead c.core ((s.windowOf c).1 + off) 4 }) ∧
    (∀ bs st off n, c.kind ≤ 1 → c.decomp = true → s.hasTurn c = true → s.tableMissing c = false → c.past = [] →
      s.decoded c = (bs, st) → st ≠ .more → c.wrote < bs.length →
      nextPart (s.runDst c c.iter) bs.length c.wrote = (.window off, n) → off + n ≤ (s.windowOf c).2 →
      (∀ b ∈ s.overlapped c (.window off) n, b = false) →
        answers (.engineWrite c.id) s fun t => t.cmd? c.id = some { c with wrote := c.wrote + n } ∧
          t.mems = s.mems.scratchWrite c.core ((s.windowOf c).1 + off) ((bs.drop c.wrote).take n)) ∧
    (c.kind = 0 → c.transpose = true → c.decomp = false → c.past = [] → s.hasTurn c = true → c.len ≤ c.readBytes.length → c.wrote < c.len →
      let w := (opFmt (cmdField c.words 180 4) c.fmtA).w
      let k := 8 * c.len / w
      let p := c.wrote / (k / 8)
      ∀ off, (s.runDst c c.iter).add (2 * k * p + k / 8 * (c.iter.getD 0 0 % 16)) = .window off → off + k / 8 ≤ (s.windowOf c).2 →
        (∀ b ∈ s.overlapped c (.window off) (k / 8), b = false) →
          answers (.engineWrite c.id) s fun t => t.cmd? c.id = some { c with wrote := c.wrote + k / 8 } ∧
            ∃ bs : List Byte, bs.length = k / 8 ∧ t.mems = s.mems.scratchWrite c.core ((s.windowOf c).1 + off) bs ∧
              ∀ j < k / 8 * 8, (leNat bs).testBit j = (leNat c.readBytes).testBit (w * j + (w - 1 - p))) ∧
    (∀ off n, movesBytes c → s.hasTurn c = true → c.wrote < c.len →
      nextPart (s.runDst c c.iter) c.len c.wrote = (.window off, n) → c.wrote + n ≤ c.readBytes.length → off + n ≤ (s.windowOf c).2 →
      (∀ b ∈ s.overlapped c (.window off) n, b = false) →
        answers (.engineWrite c.id) s fun t => t.cmd? c.id = some { c with wrote := c.wrote + n } ∧
          t.mems = s.mems.scratchWrite c.core ((s.windowOf c).1 + off) ((c.readBytes.drop c.wrote).take n)) ∧
    (c.kind ≤ 1 → c.len ≤ c.wrote → c.runs ≤ c.runOf c.iter + 1 →
      answers (.copyRunPerformed c.id) s fun t => t.mems = s.mems ∧ t.cmd? c.id = some { c with finished := true }) ∧
    (c.kind ≤ 1 → c.len ≤ c.wrote → c.runOf c.iter + 1 < c.runs → c.syncIdx = 0xFFFF →
      answers (.copyRunPerformed c.id) s fun t => t.mems = s.mems ∧
        t.cmd? c.id = some { c.newRun with iter := c.vector (c.runOf c.iter + 1), idxs := c.idx.toList ++ c.idxs }) ∧
    (c.kind ≤ 1 → c.len ≤ c.wrote → c.runOf c.iter + 1 < c.runs → c.syncIdx ≠ 0xFFFF → c.transpose = false →
      s.savedCol? c.gid.column = none →
        answers (.copyRunPerformed c.id) s fun t =>
          t.mems = s.mems.scratchWrite c.core (cmdSyncAt s c) (syncWordAfter (cmdSync s c) 0 (BitVec.ofNat 32 c.len)).bytes) ∧
    ∀ u, c.kind = 2 → s.allClaimed c = true → s.lendsOver c = true → (∀ st, s.stopOf c.gid.column = some st → st.begun = false) →
      let turned := s.modCore c.core fun k => { k with matTurn := c.queue }
      ((∀ x ∈ s.cmds, x.core = c.core → x.queue ≠ c.queue → s.stepWork x = false) ∨ (s.coreAt c.core).matTurn ≠ c.queue) →
      (if c.prog = 0 then turned.zeroTargets c else turned).matrixStep? c c.prog = some u →
        answers (.matrixStep c.id) s fun t => t.mems = s.mems ∧ t.groups = u.groups ∧
          t.cmd? c.id = some { c with prog := c.prog + 1, finished := decide (c.steps ≤ c.prog + 1) }

/-- R288, R293, R303, R309, R310, R313: a finished command hands its accumulators back, updates its sync word, pulses its event input, and
leaves; a parked one whose record is gone stands first in its queue again; an output whose counter has reached COUNT sets its wake bit or adds
credits; a publication nothing is waited for removes its pair. -/
def Obligations.CommandsEnd : Prop :=
  (∀ (s : State) (c : Cmd), s.cmd? c.id = some c → c.st = .started → c.finished = true → (s.column? c.gid.column).isSome = true →
    c.autoPub = false → cmdField c.words 9 1 = 0 →
      (c.syncIdx = 0xFFFF → answers (.commandComplete c.id) s fun t => t.mems = s.mems ∧ t.cmds = withoutCmd s c.id ∧
        (∀ g y, s.group? c.gid = some g → c.kind = 2 → t.group? c.gid = some y → ∀ th ∈ y.threads, ∀ st ∈ th.strands, st.own ≠ .claimed c.id) ∧
        t.routes = s.routes.map fun r =>
          if c.evin ≠ 15 ∧ r.core = c.core ∧ r.word.getLsbD c.evin then { r with count := r.count + 1 } else r) ∧
      (c.syncIdx ≠ 0xFFFF → (syncWordAfter (cmdSync s c) 0 (BitVec.ofNat 32 c.lastCount)).ctl = (cmdSync s c).ctl →
        answers (.commandComplete c.id) s fun t => t.cmds = withoutCmd s c.id ∧
          t.mems = s.mems.scratchWrite c.core (cmdSyncAt s c) (syncWordAfter (cmdSync s c) 0 (BitVec.ofNat 32 c.lastCount)).bytes)) ∧
  (∀ (s : State) (c : Cmd) (fid : Nat), s.cmd? c.id = some c → c.st = .parked fid → (∀ f ∈ s.faults, ¬(f.ctx = c.ctx ∧ f.fid = fid)) →
    answers (.commandResume c.id) s fun t => t.cmds = { c with st := .queued } :: withoutCmd s c.id) ∧
  (∀ (s : State) (r : Route) (g : Group), s.routes.find? (fun x => x.core == r.core && x.out == r.out) = some r → s.group? r.gid = some g →
    let n := r.word.toNat / 2 ^ 16 % 2 ^ 12
    let dest := r.word.toNat / 2 ^ 28
    n ≠ 0 → n ≤ r.count →
      answers (.eventFire r.core r.out) s fun t =>
        (∃ x, t.routes.find? (fun x => x.core == r.core && x.out == r.out) = some x ∧ x.count = r.count % n) ∧
        ∃ y, t.group? r.gid = some y ∧
          (dest = 0 → y.teller.wake = g.teller.wake ||| (1#16 <<< r.out) ∧ y.credits = g.credits) ∧
          (dest ≠ 0 → y.teller = g.teller ∧ y.credits = g.credits.modify (dest - 8) fun v => min 65535 (v + r.count / n))) ∧
  ∀ (s : State) (p : Shadow), s.shadows.find? (fun x => x.ctx == p.ctx && x.id == p.id) = some p → p.publishing = true →
    (∀ id ∈ p.waitFor, s.accepted id = false) →
      answers (.publish p.ctx p.id) s fun t => t.shadows = s.shadows.filter fun x => !(x.ctx == p.ctx && x.id == p.id)

/-- R20, R26, R43, R115, R122, R127, R135, R201, R243, R393: results due land in issue order; a `put` has arrived in every cluster; a hint
ends; 256 waits promote; a coin deadlock traps with class 7; a thread whose strands have all finished retires, its registers absent, and its
status joins the group's. A slot forms its bundles once, and none on a stopped core: each holds one thread a lane, in lane order, of
one launch and stage, each with its strand live at the bundle's program counter and its column not stopping; a cluster forms two at most; and
a candidate that is promoted, or does not yield, has its cluster form a bundle where its pipe is free, with a promoted thread if it is one. -/
def Obligations.ThreadsGoOn : Prop :=
  ∀ (s : State) (gid : GroupId) (g : Group), s.group? gid = some g →
    (∀ tid n st, s.strand? gid tid n = some st →
      (answers (.resultLands gid tid n) s fun t => t.strand? gid tid n =
        some ((st.pend.filter fun p => decide (p.due ≤ s.cycle g.core)).foldl (fun st p => st.land (s.cycle g.core) p.writes p.flags)
          { st with pend := st.pend.filter fun p => !decide (p.due ≤ s.cycle g.core) })) ∧
      (answers (.promote gid tid n) s fun t =>
        t.strand? gid tid n = some { st with promoted := st.promoted || decide (256 ≤ st.wait) }) ∧
      answers (.hintExpire gid tid n) s fun t =>
        t.strand? gid tid n = some { st with hint := st.hint.filter fun h => decide (s.cycle g.core < h.until_) }) ∧
    (∀ tid th r, s.thread? gid tid = some th → (th.greg r).visible ≤ s.cycle g.core →
      answers (.registerPresent gid tid r) s fun t => ∃ y, t.thread? gid tid = some y ∧ y.greg r = { th.greg r with visible := 0 } ∧
        ∀ m, m ≠ r → y.greg m = th.greg m) ∧
    (65536 ≤ g.deadlock → columnRuns s g → (s.lanesOn g.core).filter (·.gid == gid) ≠ [] →
      answers (.coinDeadlock gid) s fun t => (∃ y, t.group? gid = some y ∧ y.deadlock = 0) ∧
        ∃ st tr, t.stopOf gid.column = some st ∧ st.reason = .trap ∧ st.trap = some tr ∧ tr.cls = 7 ∧ tr.code = 0) ∧
    (∀ tid th, g.thread? tid = some th → s.retires g th = true →
      answers (.threadRetire gid tid) s fun t => ∃ y, t.group? gid = some y ∧ y.stany = true ∧
        y.status = reduceStatus (match s.launch? gid.launch with | some l => l.redop | none => 0) g.status th.status ∧
        ∃ z, y.thread? tid = some z ∧ z.retired = true ∧ ∀ r ∈ z.gregs, r.p = false) ∧
    (g.core < s.cores.length → s.slotDue g.core = true →
      let k := s.coreAt g.core
      answers (.formBundle g.core) s fun t => t.slotDue g.core = false ∧ ∃ new, t.issue = s.issue ++ new ∧
        (k.stopped = true ∨ k.stopAsked = true → new = []) ∧
        (∀ x ∈ new, ∃ n pc members, x = .bundle g.core n pc members ∧ members.Pairwise (fun a b => laneOf a.2 < laneOf b.2) ∧
          ∃ l ∈ members, ∀ m ∈ members, m.1.launch = l.1.launch ∧ m.1.stage = l.1.stage ∧ s.stopOf m.1.column = none ∧
            ∃ y ∈ s.groups, y.id = m.1 ∧ y.core = g.core ∧ ∃ th ∈ y.threads, th.tid = m.2 ∧ th.retired = false ∧ th.exited = false ∧
              ∃ st ∈ th.strands, st.n = n ∧ st.pc = pc ∧ st.ended = false) ∧
        (∀ cl, (new.filter (inCluster cl)).length ≤ 2) ∧
        (k.standsStill = false → k.stopAsked = false → (∀ l ∈ s.code, l.once = false) →
          (∀ l ∈ s.lanesOn g.core, l.st.n < 16) → ∀ c ∈ s.runners g.core, c.free = true →
          s.stopOf c.lane.gid.column = none → (c.lane.st.promoted = true ∨ c.hinted false = false) →
          (if c.use.elem then k.elemBusy else k.accBusy).getD (clusterOf c.lane.st.n) 0 ≤ s.cycle g.core →
            ∃ n pc members, .bundle g.core n pc members ∈ new ∧ clusterOf n = clusterOf c.lane.st.n ∧
              (c.lane.st.promoted = true → ∃ m ∈ members, ∃ l ∈ s.lanesOn g.core, (l.gid, l.tid) = m ∧ l.st.promoted = true)))

/-- R11, R14, R21, R393, R394: a group whose threads have all retired, whose teller is done and whose commands have completed is over: it
leaves with its routes and held slots, its status, its cycles and its number join its launch's, and the last group of a column frees the
column. -/
def Obligations.GroupsEnd : Prop :=
  ∀ (s : State) (g : Group), s.group? g.id = some g → (∀ th ∈ g.threads, th.retired = true) → (g.teller.done = true ∨ g.teller.isDefault = true) →
    (∀ c ∈ s.cmds, c.gid ≠ g.id) → s.stopOf g.id.column = none →
      answers (.groupComplete g.id) s fun t =>
        t.groups = s.groups.filter (·.id != g.id) ∧ t.routes = s.routes.filter (·.gid != g.id) ∧ t.held = s.held.filter (·.owner != g.id) ∧
        (∀ l, s.launch? g.id.launch = some l → ∃ m, t.launch? g.id.launch = some m ∧ m.ngroups = l.ngroups + 1 ∧
          m.vcycles = min (l.vcycles + g.cycle) (2 ^ 64 - 1) ∧
          m.status = if g.stany then reduceStatus l.redop l.status g.status else l.status) ∧
        t.columns = if ∃ x ∈ s.groups, x.id ≠ g.id ∧ x.id.column = g.id.column then s.columns else s.columns.filter (·.id != g.id.column)

/-- R205, R213, R214, R216, R217, R228, R232, R241, R339, R369: an access that needs nothing more performs: in the window, in its core's L1
line, or at the line that its home holds, a load or an atomic takes the bytes found there, a store's or an atomic's are what is found there
then, and a store outside the window is owed its acknowledgement, which ends it; a miss is served by its home, or faults there; a page the TLB does not hold is walked:
found, the walk cache and the TLB take it, else the access parks with its strand; a bundle's loads land together; a fault reaches its thread. -/
def Obligations.AccessesAreServed : Prop :=
  ∀ (s : State) (a : Acc),
    (∀ u, needs s a .ok a.va.toNat → a.atHome = false → s.mayPerform a = true → s.performAcc a = .ok u →
      exec (.accessPerformed a.id (firstScope a)) s = .next u) ∧
    (∀ l, readyInLine s a → a.atHome = false → s.l1? a.core a.asid (a.va.toNat / 128) = some l →
      let old := l1BytesAt l a.va.toNat a.size
      answers (.accessPerformed a.id (firstScope a)) s fun t => t.mems = s.mems ∧ t.acc? a.id = performedAs a old ∧
        ∀ bs, windowStore a.kind old = some bs → bs.length = a.size →
          ∃ x, t.l1? a.core a.asid (a.va.toNat / 128) = some x ∧ l1BytesAt x a.va.toNat a.size = bs) ∧
    (∀ h i, readyInLine s a → (a.atHome = true ∨ s.l1? a.core a.asid (a.va.toNat / 128) = none) →
      i = (if a.atHome then .homeAtomic a.id else .accessPerformed a.id (firstScope a)) → s.l2? a.asid (a.va.toNat / 128) = some h →
      (∀ hpa, h.place ≠ .host hpa) → h.perm.typ ≠ .host →
        let old := (s.readSite (.l2 h.key) a.va.toNat a.size).1
        answers i s fun t => t.acc? a.id = performedAs a old ∧
          ∀ bs, windowStore a.kind old = some bs → bs.length = a.size →
            ∃ x, t.l2Key? h.key = some x ∧ x.dirty = true ∧ lineBytesAt x a.va.toNat a.size = bs) ∧
    (∀ g, s.openAcc? a.id = some a → a.seg7 = true → s.group? a.gid = some g → a.atHome = false → a.units = [] → s.mayPerform a = true →
      (∀ o, a.kind ≠ .prefetch o) → (∀ o, a.kind ≠ .writeBack o) → (∀ v f, a.kind ≠ .rmw .ord v f) →
      let old := s.mems.scratchRead a.core (g.wbase + a.va.toNat) a.size
      answers (.accessPerformed a.id .grp) s fun t =>
        t.mems = (match windowStore a.kind old with
          | some bs => s.mems.scratchWrite a.core (g.wbase + a.va.toNat) bs
          | none => s.mems) ∧
        t.acc? a.id = if a.returns then some { a with st := .performed 3, got := old } else none) ∧
    (s.acc? a.id = some a → a.level = 2 → exec (.accessPerformed a.id .sys) s = .next (s.dropAcc a.id)) ∧
    (∀ u va, needs s a .ok va → a.atHome = true → s.mayPerform a = true → s.performAcc a = .ok u → exec (.homeAtomic a.id) s = .next u) ∧
    (∀ va h, needs s a .readMiss va → s.l2? a.asid (va / 128) = some h →
      exec (.l1ReadMiss a.id) s = .next (s.grantRead a.core h.key (a.hint == .keep))) ∧
    (∀ va h, needs s a .writeMiss va → a.atHome = false → a.writes = true → s.l2? a.asid (va / 128) = some h →
      answers (.l1WriteMiss a.id) s fun t => t = s.grantWrite a.core h.key (a.hint == .keep) ∧
        ∀ x ∈ t.l1, x.key = h.key → x.tracked = true → x.core = a.core) ∧
    (∀ va cls code i, needs s a (.fault cls code) va → a.isPrefetch = false → missEvent i a →
      answers i s fun t => ∃ b, t.acc? a.id = some b ∧ b.st = .faulted cls code) ∧
    (∀ va e, needs s a .translate va → s.entryFor a va = some e →
      (∀ hpa, e.placeAt (va / 128 * 128) ≠ .host hpa) → (e.placeAt (va / 128 * 128)).absent 128 = none →
        answers (.l2MissTranslate a.id) s fun t => ∃ h, t.l2Key? (e.key va) = some h ∧ h.place = e.placeAt (va / 128 * 128) ∧ h.dirty = false) ∧
    (∀ va l, needs s a .walk va → (s.dropDenying a.core a.asid va a.want).walk a.ctx va a.want (some a.core) = .leaf l →
      exec (.pageWalkDone a.id) s = .next ((s.dropDenying a.core a.asid va a.want).walked a.ctx va l)) ∧
    (∀ va cause, needs s a .walk va → a.isPrefetch = false →
      (s.dropDenying a.core a.asid va a.want).walk a.ctx va a.want (some a.core) = .fault cause →
        answers (.pageWalkDone a.id) s fun t => ∃ b fid, t.acc? a.id = some b ∧ b.st = .parked fid) ∧
    (∀ bundle, (∀ x ∈ s.accs, x.bundle = bundle → x.isOpen = false) →
      answers (.loadReturn bundle) s fun t => ∀ x, x ∈ t.accs ↔ x ∈ s.accs ∧ ¬(x.bundle = bundle ∧ x.returns = true ∧ x.level = 3)) ∧
    ∀ cls code, s.acc? a.id = some a → a.st = .faulted cls code → (∀ b ∈ s.accs, b.bundle = a.bundle → b.isOpen = false) →
      (∃ c, s.column? a.gid.column = some c ∧ c.stop = none) →
        answers (.lateFault a.id) s fun t => t.acc? a.id = none ∧ ∃ st tr, t.stopOf a.gid.column = some st ∧ st.trap = some tr ∧
          tr.cls = cls ∧ tr.code = code ∧ tr.pc = a.pc ∧ tr.tid = a.tid ∧ tr.strand = a.n ∧
          (tr.late = true ↔ ∃ th, s.thread? a.gid a.tid = some th ∧ ∃ x ∈ th.strands, a.at_ + 1 < x.issuedAt)

/-- R93, R94, R339, R349, R351 to R355, R358, R360: a line that a strand or teller misses is requested with the next one, eight at most at a
time, and a requested line arrives; evicted lines are gone; the host's answer brings its line into its slice, or nothing under a thaw; a snoop
takes a half; the host reads and writes device memory it can see through the HDM decoder, is held while a flip of the page holds it, and gets an
error beyond. That a half of a cloud copy leaves without its line (log 141), and that an access is held as a whole (log 136), are the model's
readings. -/
def Obligations.LinesAndHost : Prop :=
  ∀ (s : State),
    (∀ core ctx line u, s.codeAsked core ctx line = true → s.codeFill core ctx line = .ok u →
      exec (.codeLineFill core ctx line) s = .next u) ∧
    (∀ core ctx line, s.codeAsked core ctx line = false → (s.needsLine core ctx line ≠ [] ∨ s.tellersNeed core ctx line ≠ []) →
      s.codeLine? core (s.ctxAt ctx).asid line = none →
      let outstanding := (s.codeReqs.filter (·.core == core)).length
      (outstanding < 8 → answers (.codeLineFill core ctx line) s fun t => t = { s with codeReqs := t.codeReqs } ∧
        t.codeAsked core ctx line = true ∧
        (outstanding < 7 → s.codeLine? core (s.ctxAt ctx).asid (line + 1) = none → t.codeAsked core ctx (line + 1) = true)) ∧
      (8 ≤ outstanding → exec (.codeLineFill core ctx line) s = .next s)) ∧
    (∀ core key, answers (.l1Eviction core key) s fun t => ∀ x ∈ t.l1, ¬(x.core = core ∧ x.key = key)) ∧
    (∀ key, answers (.l2Eviction key) s fun t => t.l2Key? key = none ∧ ∀ x ∈ t.l1, x.key = key → x.tracked = false) ∧
    (∀ key own r hpa, s.hostReqs.find? (fun r => r.key == key && r.own == own) = some r → r.place = .host hpa →
      ∃ u : State, exec (.hostLineFill key own) s = .next u.releaseRecs ∧ (∀ x ∈ u.hostReqs, x.key ≠ key) ∧
        (r.own = true ∨ s.noAlloc r.asid r.key.line = false → (u.l2Key? key).isSome = true) ∧
        (r.own = false → s.noAlloc r.asid r.key.line = true → s.l2Key? key = none → u.l2Key? key = none)) ∧
    (∀ hpa i b, isSnoop i hpa → s.half? (hpa / 64 * 64) = some b → b.st ≠ .i → answers i s fun t => t.half? (hpa / 64 * 64) = none) ∧
    (∀ hpa i, isSnoop i hpa → s.half? (hpa / 64 * 64) = none →
      exec i s = .next { s with out := s.out ++ [.snpResp (hpa / 64 * 64) none] }) ∧
    let base := s.mgmt.hdmBase
    let error : State := { s with out := s.out ++ [.hostError] }
    (∀ pa n, s.holdsHost (.read pa n) = false → s.recovery = false → pa + n ≤ Config.hostVisibleBytes →
      exec (.hostMemRead (base + pa) n) s = .next { s with out := s.out ++ [.hostData (s.mems.read (.lpddr pa) n)] }) ∧
    (∀ pa n, s.holdsHost (.read pa n) = false → Config.hostVisibleBytes < pa + n → exec (.hostMemRead (base + pa) n) s = .next error) ∧
    (∀ pa data, s.holdsHost (.write pa data) = false → s.recovery = false → pa + data.length ≤ Config.hostVisibleBytes →
      (∀ k < data.length, s.frozenPa (pa + k) = false) →
        exec (.hostMemWrite (base + pa) data) s = .next { s with mems := s.mems.write (.lpddr pa) data }) ∧
    (∀ pa data, s.holdsHost (.write pa data) = false → Config.hostVisibleBytes < pa + data.length →
      exec (.hostMemWrite (base + pa) data) s = .next error) ∧
    (s.recovery = false → ∀ pa n data,
      (s.holdsHost (.read pa n) = true → exec (.hostMemRead (base + pa) n) s = .next { s with heldHost := s.heldHost ++ [.read pa n] }) ∧
      (s.holdsHost (.write pa data) = true →
        exec (.hostMemWrite (base + pa) data) s = .next { s with heldHost := s.heldHost ++ [.write pa data] })) ∧
    ∀ addr n data, addr < base → exec (.hostMemRead addr n) s = .next error ∧ exec (.hostMemWrite addr data) s = .next error

/-- R213, R315, R334, R346, R384, R413, R414: a request of another chip that is the first of its receive buffer is served by this chip's
tables and answered, over the route of its lane, with nothing where they have no such address space; it leaves its buffer, whose STOP clears
at 16; a flit in sequence, over a link that is up, into a buffer with room, puts its message there, sets STOP at 48, and its STOP bits hold
the lanes that the other end has stopped; one with a bad CRC or for a full buffer is asked for again, and what the other end asks for again
goes out of the retry buffer; links, routes and communicators are as the last write or event left them; a device's report joins the quiesce.
The model's choices here: what cuts a route and lets held messages go (log 99), flits that are not taken (log 101), that a message other than a
request acts when it is first of its buffer (log 102), what messages hold (log 32), when a resend is asked for (log 146). -/
def Obligations.PodAndLinks : Prop :=
  ∀ (s : State),
    (∀ r, s.isHead r = false → exec (.remoteRequest r) s = .next s) ∧
    (∀ r a u, s.isHead r = true → (s.serve r = .ok (a, u) ∨ s.ctxOfAsid? r.asid = none ∧ a = none ∧ u = s) →
      let first (x : LinkRx) : Bool := x.queue.head? == some (.request r)
      ∃ w : State, exec (.remoteRequest r) s = .next w.drainAll ∧ w.mems = u.mems ∧
        (∀ x, u.linkRx.find? first = some x → w.linkRx.length = u.linkRx.length ∧
          ∃ y ∈ w.linkRx, y.link = x.link ∧ y.lane = x.lane ∧ y.queue = x.queue.drop 1 ∧
            (y.stop = true ↔ x.stop = true ∧ 16 < y.queue.length)) ∧
        match u.route? r.chip (homeHash (r.va.toNat / 128) % 8) with
        | some q => ∃ f : Flit, w.out = u.out ++ [.toPeer r.chip f] ∧ f.msg = some (.answer a) ∧ f.link = q.link ∧ f.lane = q.lane ∧
            f.seq = u.txNext q.link ∧ w.txNext q.link = f.seq + 1 ∧ (r.chip, f) ∈ w.retry
        | none => w.out = u.out ∧ w.heldOut = u.heldOut ++ [(r.chip, homeHash (r.va.toNat / 128) % 8, .answer a)]) ∧
    (∀ f : Flit, f.crcOk = true → s.links.contains f.link = true → f.seq = s.nextSeq f.link → (s.rxOf f.link f.lane).queue.length < 64 →
      (∀ x ∈ s.linkRx, ∀ m, x.queue.head? = some m → m.acts = false) →
        ∃ u : State, exec (.nimbusFlit f) s = .next u.release ∧ u.nextSeq f.link = f.seq + 1 ∧
          (∀ lane < 8, (f.link, lane) ∈ u.linkStop ↔ f.stops.getLsbD lane = true) ∧
          (∀ m, f.msg = some m → m.acts = false ∨ (s.rxOf f.link f.lane).queue ≠ [] →
            (u.rxOf f.link f.lane).queue = (s.rxOf f.link f.lane).queue ++ [m] ∧
            ((u.rxOf f.link f.lane).stop = true ↔ (s.rxOf f.link f.lane).stop = true ∨ 48 ≤ (u.rxOf f.link f.lane).queue.length)) ∧
          ((s.rxOf f.link f.lane).queue = [] →
            (∀ x, f.msg = some (.collective x) → u.collect = s.collect ++ [x] ∧ (u.rxOf f.link f.lane).queue = []) ∧
            (∀ chip num asid vpn pages, f.msg = some (.freeze chip num asid vpn pages) →
              u.frzReqs = s.frzReqs ++ [⟨num, none, asid, vpn, pages, chip, true⟩]))) ∧
    (∀ f : Flit, s.links.contains f.link = true →
      (f.crcOk = false → exec (.nimbusFlit f) s = .next { s with out := s.out ++ [.askResend f.link (s.nextSeq f.link)] }) ∧
      (f.crcOk = true → f.seq ≠ s.nextSeq f.link → exec (.nimbusFlit f) s = .next s) ∧
      (f.crcOk = true → f.seq = s.nextSeq f.link → 64 ≤ (s.rxOf f.link f.lane).queue.length →
        exec (.nimbusFlit f) s = .next { s with out := s.out ++ [.askResend f.link f.seq] })) ∧
    (∀ f : Flit, s.links.contains f.link = false → exec (.nimbusFlit f) s = .next s) ∧
    (∀ link seq rest, s.issue = [] → s.firstOf s.dueEvents = none → s.agenda = .resend link seq :: rest → ∃ t, step s = .next t ∧
      t.agenda = rest ∧ t.retry = s.retry ∧
      t.out = s.out ++ (s.retry.filter fun x => x.2.link == link && decide (seq ≤ x.2.seq)).map fun x => .toPeer x.1 x.2) ∧
    (∀ link, answers (.linkDown link) s fun t => t.links = s.links.filter (· != link) ∧
      t.podRoutes = s.podRoutes.map fun r => if r.link = link then { r with cut := true } else r) ∧
    (∀ link, link < 24 → answers (.linkUp link) s fun t => link ∈ t.links ∧ t = { s with links := t.links }) ∧
    (∀ v : BitVec 64, s.recovery = false →
      let chip := v.toNat % 256
      let lane := v.toNat / 256 % 8
      let link := v.toNat / 2 ^ 11 % 32
      ∃ u : State, exec (.routeWrite v) s = .next u.release ∧ u = { s with podRoutes := u.podRoutes } ∧
        u.podRoutes = (s.podRoutes.filter fun r => !(r.chip == chip && r.lane == lane)) ++
          (if v.getLsbD 16 then [{ chip := chip, lane := lane, link := link, cut := !s.links.contains link }] else [])) ∧
    (∀ (v : BitVec 64) bs u, s.recovery = false →
      s.vaRead 0 s.mgmt.commlist.toNat (v.toNat / 64 % 256 + 1) { shd := true } = .ok (bs, u) →
        answers (.commcfgWrite v) s fun t => t.comms.find? (·.id == v.toNat % 64) =
          some { id := v.toNat % 64, members := bs.map (·.toNat), rank := v.toNat / 2 ^ 14 % 256 }) ∧
    ∀ chip, answers (.peerPhase1 chip) s fun t => chip ∈ t.quiesce.reported

/-- R209, R217, R218, R221, R223, R224: sweeps are queued, four at most, wait for the host's writes before them, drop every line of their range
from every cache, and are done once no request of the range is with the host; PTSEQ takes its value after the host's writes before it; a replay that PTSEQ has reached releases what waited when the page is there, and else raises REFAULT, 3 at
most, in a new record; the refresh slot is that of TIME; the migration engine takes a frame for a page it may move, sets MIG to 10, and once
nothing of the page is with the host has moved it, or is done with it when an entry of its leaf is found changed; then the records held go
on. That REFAULT stays at 3 and that the REPLAYs still waiting move to the new record is the model's choice (log 125). -/
def Obligations.TranslationUpkeep : Prop :=
  ∀ (s : State) (k : Nat), (s.ctxAt k).exist = true →
    (∀ v : BitVec 64, 1 ≤ v.toNat % 2 ^ 32 → v.toNat % 2 ^ 32 ≤ 2 ^ 20 → answers (.sweep k v) s fun t => t.ctxAt k =
      if (s.ctxAt k).sweeps.length < 4 then { s.ctxAt k with
        sweeps := (s.ctxAt k).sweeps ++ [⟨(s.ctxAt k).swbase.toNat / 4096 * 4096, v.toNat % 2 ^ 32, v.getLsbD 32, s.writesHeld⟩] }
      else { s.ctxAt k with swovf := true }) ∧
    (∀ w rest, (s.ctxAt k).sweeps = w :: rest → w.behind = true → exec (.sweepDone k) s = .next s) ∧
    (∀ w rest, (s.ctxAt k).sweeps = w :: rest → w.behind = false → answers (.sweepDone k) s fun t =>
      let u := s.finish fun a => a.within (s.ctxAt k).asid w.base (w.pages * 4096)
      (if u.hostBusy (s.ctxAt k).asid w.base (w.pages * 4096) = true then t.ctxAt k = u.ctxAt k
        else (t.ctxAt k).sweeps = rest ∧ (t.ctxAt k).swDone = (u.ctxAt k).swDone + 1) ∧
      let swept (key : LineKey) : Prop := w.base / 128 ≤ key.line ∧ key.line * 128 < w.base + w.pages * 4096 ∧
        key.asid = if w.glob then none else some (s.ctxAt k).asid
      (∀ x ∈ t.code, ¬swept x.key) ∧ (∀ x ∈ t.l1, ¬swept x.key) ∧ ∀ x ∈ t.l2, ¬swept x.key) ∧
    (∀ v, (s.writesHeld = false → answers (.ptseqWrite k v) s fun t => t.ctxAt k = { s.ctxAt k with ptseq := v }) ∧
      (s.writesHeld = true → exec (.ptseqWrite k v) s = .next { s with heldRecs := s.heldRecs ++ [.event (.ptseq k v)] })) ∧
    (∀ v : BitVec 64, answers (.replay k v) s fun t => t.faults = s.faults.map fun f =>
      if f.ctx = k ∧ f.fid = v.toNat % 2 ^ 32 then { f with replay := f.replay ++ [BitVec.ofNat 32 (v.toNat / 2 ^ 32)] } else f) ∧
    (∀ (f : FaultRec) (q : Word), s.faults.find? (fun x => x.ctx == k && x.fid == f.fid) = some f →
      f.replay.find? (fun q => decide (((s.ctxAt k).ptseq - q).toNat < 2 ^ 31)) = some q →
      let u := s.tlbDrop (f.page * 4096) 4096 fun _ => true
      let core := (s.column? f.col).map (·.core)
      (∀ l, u.walk k f.va.toNat { rd := f.rd, wr := f.wr, ex := f.ex } core = .leaf l → answers (.replayWalk k f.fid) s fun t =>
        t.faults = s.faults.filter (fun x => !(x.ctx == k && x.fid == f.fid)) ∧
        ((s.column? f.col).isSome = true → ∀ a ∈ t.accs, a.gid.column = f.col → a.st ≠ .parked f.fid)) ∧
      ∀ cause, u.walk k f.va.toNat { rd := f.rd, wr := f.wr, ex := f.ex } core = .fault cause → answers (.replayWalk k f.fid) s fun t =>
        ∃ g ∈ t.faults, g.fid = (s.ctxAt k).faultId.toNat ∧ g.cause = cause ∧ g.refault = min 3 (f.refault + 1) ∧ g.page = f.page ∧
          g.col = f.col ∧ g.replay = f.replay.erase q) ∧
    (answers .refreshSlot s fun t => t = { s with refreshSlot := s.time / 50 % 64 }) ∧
    (∀ (va : BitVec 64) l frame u, s.leafAt k va.toNat = some l → s.migration = none → s.movable k l = true → l.perm.typ = .host →
      Config.migrationThreshold ≤ s.samplesOf k (l.base / 4096) → s.popFrame s.mgmt.miglocal.toNat = .ok (some (frame, u)) →
      frame % (2 ^ l.bits / 4096) = 0 → answers (.migrationStart k va) s fun t => t.migration =
        some ⟨k, l.base, l.bits, l.place, frame, true, l.slots.map fun a => (a, withMig (u.entryAt a) 1), false⟩) ∧
    (∀ m, s.migration = some m →
      let u := s.finish fun a => a.within (s.ctxAt m.ctx).asid m.va (2 ^ m.bits)
      ((∃ x ∈ m.slots, s.entryAt x.1 ≠ x.2) →
        ∃ u : State, exec .migrationSwitch s = .next u.releaseRecs ∧ u.migration = none ∧ u.promoted = s.promoted) ∧
      ((∀ x ∈ m.slots, s.entryAt x.1 = x.2) →
        (m.switching = false → answers .migrationSwitch s fun t =>
          t.migration = some { m with slots := m.slots.map (fun x => (x.1, withMig x.2 2)), switching := true }) ∧
        (m.switching = true → u.hostBusy (s.ctxAt m.ctx).asid m.va (2 ^ m.bits) = true → answers .migrationSwitch s fun t =>
          t.migration = s.migration ∧ t.promoted = s.promoted) ∧
        (m.switching = true → u.hostBusy (s.ctxAt m.ctx).asid m.va (2 ^ m.bits) = false →
          ((if m.toLpddr then Place.lpddr (m.newFrame * 4096) else .host (m.newFrame * 4096)).absent (2 ^ m.bits)) = none →
            ∃ u : State, exec .migrationSwitch s = .next u.releaseRecs ∧ u.migration = none ∧
              u.promoted = if m.toLpddr then (m.ctx, m.va / 4096) :: s.promoted else s.promoted.filter (· != (m.ctx, m.va / 4096))))) ∧
    answers .migrationEpochEnd s fun t => t = { s with migCount := [] }

/-- R220, R324, R368 to R374, R378, R394, R400: a column stalled on pages is asked to leave where a save slot is to spare, a stop begins, and
a drained column without a trap, its accesses behind parked ones parked too, leaves its core with its record in a save slot, but no
pre-emption or switch-out leaves a core that stands still; the host's answer to a trap makes a record that passes the check placeable, and
discards the column otherwise. That accesses behind parked ones park too is the model's reading (log 44). -/
def Obligations.ColumnsLeaveAndReturn : Prop :=
  ∀ (s : State) (c : Column), s.column? c.id = some c →
    (c.stop = none → s.coreHeld c.core = false → s.spareSlots c.ctx ≠ 0 →
      let gs := (s.columnGroups c.id).filter fun g => !(g.threads.all (·.retired) && (g.teller.done || g.teller.isDefault))
      gs ≠ [] → (∀ g ∈ gs, s.stalledOnPages g = true) →
        answers (.switchOut c.id) s fun t => ∃ st, t.stopOf c.id = some st ∧ st.reason = .switchOut ∧ st.begun = false ∧ st.trap = none) ∧
    (∀ st, c.stop = some st → st.begun = false →
      ((s.coreAt c.core).standsStill = true → st.reason ≠ .preempt ∧ st.reason ≠ .switchOut) →
        answers (.stopColumn c.id st.reason) s fun t => t.stopOf c.id = some { st with begun := true } ∧ t.groups = s.groups) ∧
    (∀ st slot u, c.stop = some st → st.begun = true → s.quiesce.running = false → st.trap = none → st.later = [] →
      ((s.coreAt c.core).standsStill = true → st.reason ≠ .preempt ∧ st.reason ≠ .switchOut) →
      let p := s.parkBehind fun a => a.gid.column == c.id
      p.drained c.id = true → st.slot = none → (s.ctxAt c.ctx).freeSlot = some slot →
      p.vaWrite c.ctx (p.slotAddr c.ctx slot) (p.recordPart c st.reason.code none st.trapSeq st.cmd).bytes { shd := true } = .ok u →
        answers (.saveRecordWrite c.id) s fun t => t.column? c.id = none ∧ (∀ g ∈ t.groups, g.id.column ≠ c.id) ∧ t.mems = u.mems ∧
          slot ∈ (t.ctxAt c.ctx).slots ∧ ∃ sv ∈ t.saved, sv.id = c.id ∧ sv.slot = some slot ∧ sv.reason = st.reason ∧
            (sv.placeable = true ↔ st.reason ≠ .trap)) ∧
    ((s.ctxAt c.ctx).freeSlot.isSome = true →
      s.columns.find? (fun x => x.ctx == c.ctx && (match x.stop with | some st => st.begun && s.drained x.id && s.mayLeave x st | none => false)) = some c →
        exec (.saveSlotFreed c.ctx) s = exec (.saveRecordWrite c.id) s) ∧
    ∀ ctx slot sv, s.trapped? ctx slot = some sv →
      (∀ r, s.recordOf? sv = .ok r → recordOk sv.sealed r = true →
        answers (.grpResume ctx slot) s fun t => t.saved = s.saved.map fun x => if x.id = sv.id then { x with placeable := true } else x) ∧
      (∀ r, s.recordOf? sv = .ok r → recordOk sv.sealed r = false →
        answers (.grpResume ctx slot) s fun t => ∀ x ∈ t.saved, x.id ≠ sv.id) ∧
      answers (.grpDiscard ctx slot) s fun t => t.saved = s.saved.filter (·.id != sv.id) ∧ (∀ f ∈ t.faults, f.col ≠ sv.id) ∧
        ∀ l, s.launch? sv.id.launch = some l → ∃ m, t.launch? sv.id.launch = some m ∧ m.ndisc = min (l.ndisc + 1) (2 ^ 32 - 1)

/-- R274, R346 to R349, R421: the coordinator enters a fresh freeze, raises the count of the same one, or refuses it to its teller; another
device sends it the request; homes take the mark; a freeze is active once every device has acknowledged to the coordinator; a thaw drops every
line that carries the id, then homes unmark, then the entry goes. What the messages hold and the lane they take are the model's choices (logs
32, 100). -/
def Obligations.FreezesAndThaws : Prop :=
  ∀ (s : State),
    (s.isCoord = false → ∀ q, s.frzReqs.find? (fun q => !q.sent) = some q → answers .freezeRequest s fun t => t.freezes = s.freezes ∧
      (t.frzReqs = s.frzReqs.map fun x => if x.id = q.id then { x with sent := true } else x) ∧
      (∀ r, s.route? s.mgmt.coord (homeHash 0 % 8) = some r →
        t.out = s.out ++ [.toPeer s.mgmt.coord (s.flitOf r (.freeze q.chip q.id q.asid q.vpn q.pages))])) ∧
    (s.isCoord = true → ∀ q, s.frzReqs.find? (fun q => s.decideFreeze q != .later) = some q →
      (∀ id, s.decideFreeze q = .fresh id → answers .freezeRequest s fun t =>
        (t.frzReqs = s.frzReqs.filter fun x => !(x.id == q.id && x.chip == q.chip)) ∧
        t.freezes = s.freezes ++
          [⟨id, q.asid, q.vpn, q.pages, 1, .freezing, q.chip, [], [], false, if q.gid.isSome then [] else [(q.chip, q.id)]⟩] ∧
        ∀ g d, q.gid = some g.id → s.group? g.id = some g → g.teller.wait = some (.freeze d q.id) →
          ∃ y, t.group? g.id = some y ∧ y.teller = { g.teller with wait := some (.frozen d id) }) ∧
      (∀ id f, s.decideFreeze q = .again id → s.freeze? id = some f → answers .freezeRequest s fun t =>
        t.freezes = s.freezes.map fun x => if x.id = id then { x with
          count := x.count + 1, waiters := if q.gid.isSome ∨ f.st = .active then x.waiters else x.waiters ++ [(q.chip, q.id)] } else x) ∧
      ∀ code g d, s.decideFreeze q = .refused code → q.gid = some g.id → s.group? g.id = some g → g.teller.wait = some (.freeze d q.id) →
        columnRuns s g → answers .freezeRequest s fun t => t.freezes = s.freezes ∧
          ∃ st, t.stopOf g.id.column = some st ∧ st.trap = some (Trap.ofTeller 4 code g.id g.teller.pc)) ∧
    (∀ q f, s.thawReqs.find? (fun q => s.freezes.any fun f => f.id == q.2 && f.asid == q.1 && f.st == .active && f.count == 0) = some q →
      s.freeze? q.2 = some f → answers .thawRequest s fun t => t.freeze? q.2 = some { f with st := .dropping, acks := [], dropped := false } ∧
        t.thawReqs = s.thawReqs.erase q) ∧
    ∀ f, s.freeze? f.id = some f →
      let lastIs (chip : Nat) : Prop := ∀ d ∈ s.devices, d = chip ∨ d ∈ f.acks
      (∀ slice, f.st = .freezing → slice < 288 → slice ∉ f.marked → s.hostBiased f = [] → answers (.freezeRange f.id slice) s fun t =>
        t.freeze? f.id = some { f with marked := slice :: f.marked }) ∧
      (s.isCoord = false → f.st = .freezing → s.chip ∉ f.acks → 288 ≤ f.marked.length → answers (.freezeAck f.id s.chip) s fun t =>
        t.freeze? f.id = some { f with acks := s.chip :: f.acks } ∧
        (∀ r, s.route? s.mgmt.coord (homeHash 0 % 8) = some r →
          t.out = s.out ++ [.toPeer s.mgmt.coord (s.flitOf r (.frzAck f.id s.chip 1))])) ∧
      (∀ chip, s.isCoord = true → f.st = .freezing → chip ∈ s.devices → chip ∉ f.acks → (chip = s.chip → 288 ≤ f.marked.length) →
        (lastIs chip → answers (.freezeAck f.id chip) s fun t =>
          t.freeze? f.id = some { f with acks := [], st := .active, waiters := [] }) ∧
        (¬lastIs chip → answers (.freezeAck f.id chip) s fun t => t.freeze? f.id = some { f with acks := chip :: f.acks })) ∧
      (f.st = .dropping → f.dropped = false → answers (.flashDrop f.id) s fun t => t.freeze? f.id = some { f with dropped := true } ∧
        (∀ x ∈ t.code, x.vtag ≠ some { shadow := false, id := f.id }) ∧ (∀ x ∈ t.l1, x.vtag ≠ some { shadow := false, id := f.id }) ∧
        ∀ x ∈ t.l2, x.vtag ≠ some { shadow := false, id := f.id }) ∧
      (∀ chip, s.isCoord = true → f.st = .dropping → chip ∈ s.devices → chip ∉ f.acks →
        (chip = s.chip → f.dropped = true ∧ s.hostBusy f.asid (f.vpn * 4096) (f.pages * 4096) = false) →
        (lastIs chip → answers (.dropAck f.id chip) s fun t => t.freeze? f.id = some { f with acks := [], st := .unmarking }) ∧
        (¬lastIs chip → answers (.dropAck f.id chip) s fun t => t.freeze? f.id = some { f with acks := chip :: f.acks })) ∧
      (∀ slice, f.st = .unmarking → answers (.unmark f.id slice) s fun t =>
        t.freeze? f.id = some { f with marked := f.marked.filter (· != slice) }) ∧
      ∀ chip, s.isCoord = true → f.st = .unmarking → chip ∈ s.devices → chip ∉ f.acks → (chip = s.chip → f.marked = []) →
        (lastIs chip → answers (.unmarkAck f.id chip) s fun t => t.freezes = s.freezes.filter (·.id != f.id)) ∧
        (¬lastIs chip → answers (.unmarkAck f.id chip) s fun t => t.freeze? f.id = some { f with acks := chip :: f.acks })

/-- R74 to R85, R394 to R396: a launch window stages what is written and submits its block, which stands in the order of arrival; when the
cycle of its arrival is over it takes a launch slot, or is dropped where every one is taken, the lower context first; the distributor refuses
or takes it; captures its inputs; places its next column on the first core that fits, pre-empting where only that helps; and completes it.
When a cycle is over (log 134), the layout of a capture's header and its ranges (log 70), the end of a capture whose list cannot be read (log
142) and what waits for pages that hold requests are the model's choices. -/
def Obligations.LaunchesGoThrough : Prop :=
  ∀ (s : State),
    (∀ ctx off data, (s.ctxAt ctx).exist = true → s.recovery = false → data ≠ [] →
      (off % 4 = 0 → data.length % 4 = 0 → off + data.length ≤ 0x100 → (s.ctxAt ctx).staging.length = 256 →
        let staged : Ctx := { s.ctxAt ctx with staging := patch (s.ctxAt ctx).staging off data }
        let block : Submitted := ⟨ctx, staged.staging, s.now, staged.replog.toNat, false⟩
        (off + data.length ≤ 0xF8 → answers (.stagingWrite ctx off data) s fun t => t.ctxAt ctx = staged ∧ t.submitted = s.submitted) ∧
        (0xF8 < off + data.length → answers (.stagingWrite ctx off data) s fun t => t.ctxAt ctx = staged ∧
          ∃ pre post, s.submitted = pre ++ post ∧ t.submitted = pre ++ block :: post ∧ (∀ b ∈ pre, b.before block = true) ∧
            ∀ b, post.head? = some b → b.before block = false)) ∧
      (off % 4 ≠ 0 ∨ data.length % 4 ≠ 0 →
        exec (.stagingWrite ctx off data) s = .next (s.modCtx ctx fun c => { c with badacc := true })) ∧
      (off < 0x100 → 0xF8 < off + data.length → exec (.launchSubmit ctx off data) s = exec (.stagingWrite ctx off data) s)) ∧
    (let taken := s.launches.length + (s.submitted.filter fun b => b.slotted && !noRecord b.block).length
     let dropped (t : State) (b : Submitted) : Prop := (s.ctxAt b.ctx).exist = true → t.ctxAt b.ctx = { s.ctxAt b.ctx with
       ovf := true, drops := min 65535 ((s.ctxAt b.ctx).drops + 1), lastDrop := BitVec.ofNat 32 (numAt b.block 248 4) }
     (∀ pre b, s.submitted = pre ++ [b] → (∀ x ∈ pre, x.slotted = true) → b.slotted = false →
       (taken < 256 → s.takeSlots = { s with submitted := pre ++ [{ b with slotted := true }] }) ∧
       (256 ≤ taken → s.takeSlots.submitted = pre ∧ dropped s.takeSlots b)) ∧
     ∀ pre b c, s.submitted = pre ++ [b, c] → (∀ x ∈ pre, x.slotted = true) → b.slotted = false → c.slotted = false →
       taken = 255 → noRecord b.block = false →
       s.takeSlots.submitted = pre ++ [{ b with slotted := true }] ∧ dropped s.takeSlots c) ∧
    (∀ b rest, s.submitted = b :: rest → (s.ctxAt b.ctx).exist = true →
      let l := s.newLaunch b
      let taken : State := { s with submitted := rest }
      let dropped (c : Ctx) : Prop := c.drops = min 65535 ((s.ctxAt b.ctx).drops + 1) ∧ c.lastDrop = BitVec.ofNat 32 (numAt b.block 248 4)
      (b.slotted = false → exec .launchAccept s = .next s) ∧
      (b.slotted = true → (l.crecVa = 0 ∨ l.crecVa % 64 ≠ 0 ∨ l.id = 0) → answers .launchAccept s fun t => t.submitted = rest ∧
        t.launches = s.launches ∧ (t.ctxAt b.ctx).bad = true ∧ dropped (t.ctxAt b.ctx)) ∧
      (b.slotted = true → l.crecVa ≠ 0 → l.crecVa % 64 = 0 → l.id ≠ 0 →
        (l.badBlock = true → answers .launchAccept s fun t => t.launches = s.launches ++ [{ l with refused := 1 }]) ∧
        (l.badBlock = false → (∃ x ∈ s.launches, x.ctx = l.ctx ∧ x.id = l.id) → answers .launchAccept s fun t =>
          t.launches = s.launches ++ [{ l with refused := 2 }] ∧ t.nextLaunch = s.nextLaunch + 1) ∧
        (l.badBlock = false → (∀ x ∈ s.launches, ¬(x.ctx = l.ctx ∧ x.id = l.id)) →
          ∀ h u v object kernels, taken.vaRead l.ctx l.codeVa 64 { shd := true } = .ok (h, u) →
            u.loadKernels l.ctx l.codeVa h ((List.range l.stages).map l.kidx) [] = .ok v object kernels →
            let full := { l with kernels := kernels }
            let cause := if badObject object = true ∨ (∃ k ∈ kernels, badKernel k.2 = true) then 3
              else if l.wload = true ∧ Config.available 5 = false then 4 else if full.tooLarge = true then 5 else 0
            ((l.captures = false ∨ b.replog = 0) → v.replayOf l b = some (none, v)) ∧
            (v.replayOf l b = none → exec .launchAccept s = .next s) ∧
            ∀ replay w, v.replayOf l b = some (replay, w) → answers .launchAccept s fun t => t.nextLaunch = w.nextLaunch + 1 ∧
              t.launches = w.launches ++ [{ full with refused := cause, replay := replay }]))) ∧
    (∀ l, s.launch? l.seq = some l → l.captures = true → l.capDone = false → l.eligible = true → s.heldBack l = false →
      let fails (u : State) : Prop := answers (.captureInputs l.seq) s fun t => t.mems = u.mems ∧
        t.launch? l.seq = (u.launch? l.seq).map fun x => { x with capDone := true, capFail := true }
      (s.capList l.ctx 64 0 = .error .held → exec (.captureInputs l.seq) s = .next s) ∧
      (∀ d, s.capList l.ctx 64 0 = .error d → d ≠ .held → (∀ pa, d ≠ .absent pa) → fails s) ∧
      ∀ listed u, s.capList l.ctx 64 0 = .ok (listed, u) →
        let ranges := (if l.argVa ≠ 0 then (listed.find? fun r => r.1 == l.argVa).toList else []) ++ listed
        let size := 320 + (ranges.map (·.2)).sum
        ((s.ctxAt l.ctx).capsize.toNat < size → fails u) ∧
        ∀ bs v w, size ≤ (s.ctxAt l.ctx).capsize.toNat → u.readRanges l.ctx ranges = .ok (bs, v) →
          v.vaWrite l.ctx (s.ctxAt l.ctx).capbase.toNat (leBytes 64 (packFields [(l.id, 32), (0, 32), (u.time, 64)]) ++ l.block ++ bs)
            { shd := true } = .ok w →
          answers (.captureInputs l.seq) s fun t => t.mems = w.mems ∧
            t.launch? l.seq = (w.launch? l.seq).map fun x => { x with capDone := true, capPos := 320 + bs.length }) ∧
    (∀ w, s.launches.find? (·.sole) = some w → ∀ x ∈ s.serving, x.1.seq = w.seq) ∧
    (∀ l c rest, s.claimDevice.serving = (l, c) :: rest → s.claimDevice.launch? l.seq = some l → s.claimDevice.mayPlace = true →
      (∀ k ks u, c = .fresh → s.claimDevice.coreFor l c = some k → s.claimDevice.placeWaits c k = false →
        s.claimDevice.entryTables l = some (ks, u) → answers .placeColumn s fun t =>
        (∃ x, t.columns = s.columns ++ [x] ∧ x.id = ⟨l.seq, l.nextCol⟩ ∧ x.core = k ∧ x.ctx = l.ctx ∧ x.wsize = l.window ∧ x.stop = none) ∧
        (∃ new, t.groups = s.groups ++ new ∧ new.map (·.id) = (List.range l.kernels.length).map (⟨l.seq, l.nextCol, ·⟩) ∧
          new.length = ks.length ∧ ∀ g ∈ new, g.core = k ∧ g.t = l.threads ∧ g.threads.length = l.threads ∧ g.dq = [] ∧
            ∀ th ∈ g.threads, (∀ r ∈ th.gregs, r.p = false) ∧ ∀ st ∈ th.strands, st.e = List.replicate 32 0 ∧ st.flags = {} ∧ st.rstack = []) ∧
        (∃ m, t.launch? l.seq = some m ∧ m.nextCol = l.nextCol + 1 ∧ m.blockedAt = none ∧ m.blocked50 = false ∧
          m.tstart = some (l.tstart.getD s.time)) ∧
        t.lastPlace = some s.time ∧ t.exch.trigger = true) ∧
      (s.claimDevice.coreFor l c = none →
        let u := s.claimDevice.noteBlocked l (c.col l)
        ((u.preemption? l c).isSome = true ∨ l.blockedLong (c.col l) s.time = true → exec .placeColumn s = .next u) ∧
        ∀ x k, u.preemption? l c = none → l.blockedLong (c.col l) s.time = false →
          ((rest.filter fun x => !x.1.wload).findSome? fun x => (u.coreFor x.1 x.2).map fun k => (x, k)) = some (x, k) →
          exec .placeColumn s = .next (if u.placeWaits x.2 k then u else u.place x.1 x.2 k))) ∧
    (∀ l c rest, s.serving = (l, c) :: rest → s.launch? l.seq = some l →
      (∀ k vs, s.quiesce.running = false → s.coreFor l c = none → s.preemption? l c = some (k, vs) → (s.coreAt k).standsStill = false →
        answers .preempt s fun t => t.groups = s.groups ∧
          ∀ v ∈ vs, s.column? v.id = some v → ∃ st, t.stopOf v.id = some st ∧ st.reason = .preempt ∧ st.begun = false) ∧
      ∀ at_, l.blockedAt = some (c.col l, at_) → at_ + 50000 ≤ s.time → answers .placementBlockTimeout s fun t =>
        t.launch? l.seq = some { l with blocked50 := true }) ∧
    ∀ l u v, s.launch? l.seq = some l → s.launchOver l = true →
      s.applyLog l.ctx (sortEntries (s.ordLog.filter (·.launch == l.seq))) = .ok u →
      (if l.wload ∧ l.refused = 0 then u.dropLines fun _ typ _ => typ == .wstore else u).writeCompletion l = .ok v →
        answers (.launchComplete l.seq) s fun t => t.mems = v.mems ∧ ∀ x, x ∈ t.launches ↔ ∃ y ∈ v.launches, y.seq ≠ l.seq ∧
          x = { y with waits := y.waits.filter (· ≠ l.seq) }

/-- R91, R92, R415 to R417: one re-arbitration at a time, from the state at its start; a new grant lowers the clocks that fall, then raises
those that rise, and only then do grant and GRANTSEQ change together, with input 15 posted to every teller; for the grant that stands
neither changes; the caps; one sample in every telemetry register; TIME slews toward the coordinator's by 1 ns at most, once a microsecond,
and never decreases. The order of the clocks' changes (log 133), and that a TIME ahead of the coordinator's falls back by a nanosecond that
lasts twice as long (log 139), are the model's. -/
def Obligations.ExchangeAndTelemetry : Prop :=
  ∀ (s : State),
    (s.exch.trigger = true → s.exch.pending = none →
      exec .rearbitrate s = .next { s with exch := { s.exch with trigger := false, pending := some s.arbitrate } }) ∧
    (s.exch.pending.isSome = true → exec .rearbitrate s = .next s) ∧
    (∀ g overcap, s.exch.pending = some (g, overcap) →
      let low := s.exch.clocks.zip min g
      (s.exch.clocks ≠ low → exec .grantChange s = .next { s with exch := { s.exch with clocks := low } }) ∧
      (s.exch.clocks = low → low ≠ g → exec .grantChange s = .next { s with exch := { s.exch with clocks := g } }) ∧
      (s.exch.clocks = low → low = g →
        (g = s.exch.grant → exec .grantChange s = .next { s with exch := { s.exch with pending := none, overcap := overcap } }) ∧
        (g ≠ s.exch.grant → answers .grantChange s fun t =>
          t.exch = { s.exch with pending := none, overcap := overcap, grant := g, seq := s.exch.seq + 1 } ∧
          t.groups = s.groups.map fun x => { x with teller := { x.teller with wake := x.teller.wake ||| 0x8000#16 } }))) ∧
    (∀ v : BitVec 64, s.recovery = false →
      let w := v.toNat % 2048
      (500 ≤ w → w ≤ 1300 → answers (.pwrcapWrite v) s fun t => t.exch.pwrcap = w ∧ (w ≠ s.exch.pwrcap → t.exch.trigger = true)) ∧
      (w < 500 ∨ 1300 < w → exec (.pwrcapWrite v) s = .next { s with exch := { s.exch with caperr := true } })) ∧
    (∀ temps : List Int, answers (.thermalStep temps) s fun t =>
      ((∃ x ∈ temps, 800 ≤ x) → t.exch.thermal = max 500 (s.exch.thermal - 25)) ∧
      ((∀ x ∈ temps, x ≤ 760) → s.exch.thermal < s.exch.pwrcap → t.exch.thermal = min s.exch.pwrcap (s.exch.thermal + 25)) ∧
      (t.exch.thermal ≠ s.exch.thermal → t.exch.trigger = true) ∧ (t.exch.thermal = s.exch.thermal → t = s)) ∧
    (∀ coord rest, s.issue = [] → s.firstOf s.dueEvents = none → s.agenda = .slew coord :: rest → s.isCoord = false → s.fw.step ≠ 0 →
      (s.time < s.slewed + 1000 ∨ coord = s.time → step s = .next { s with agenda := rest }) ∧
      (s.slewed + 1000 ≤ s.time → s.time < coord →
        step s = .next { s with agenda := rest, time := s.time + 1, slewed := s.time + 1 }) ∧
      (s.slewed + 1000 ≤ s.time → coord < s.time → step s = .next { s with agenda := rest, slewed := s.time, slewBack := true })) ∧
    ∀ power (temps : List Int), s.recovery = false → answers (.telemetrySample power temps) s fun t =>
      t.bar0Reg 0x400 = power % 2 ^ 32 ∧
      (∀ i < 7, t.bar0Reg (0x408 + 8 * i) = (BitVec.ofInt 16 (temps.getD i 0)).toNat) ∧
      ∀ d < 6, t.bar0Reg (0x440 + 8 * d) = (s.ratioWord d).toNat

/-- R344, R345, R352, R353, R360: a switch of a region begins unless a cause of R345 holds, and then holds its region until it is in the table or
out of it, when the records held for it go on; a bias flip is queued or refused, starts, and ends with the bias bit as asked, once the host has
answered for every line; the host accesses it held are performed then, before the device's. That a switch counts the regions about to enter
(log 50) and that a mask which cannot be read is free (log 5) are the model's readings. -/
def Obligations.RegionsAndFlips : Prop :=
  ∀ (s : State),
    (∀ k, (s.ctxAt k).exist = true → (s.ctxAt k).swmBusy = none →
      let base := (s.ctxAt k).swmbase.toNat / 2 ^ 21 * 2 ^ 21
      (∀ bs u, s.swmCause k base true = 0 → s.vaRead k (s.ctxAt k).swmmask.toNat 32 = .ok (bs, u) → (u.ctxAt k).exist = true →
        answers (.swmEnter k) s fun t =>
          (t.ctxAt k).swmBusy = some (true, base, (List.range 240).filter (leNat bs).testBit) ∧ t.swm = u.swm) ∧
      (s.swmCause k base false = 0 → answers (.swmReturn k) s fun t => t.ctxAt k = { s.ctxAt k with swmBusy := some (false, base, []) }) ∧
      (s.swmCause k base true ≠ 0 → answers (.swmEnter k) s fun t => t.ctxAt k = { s.ctxAt k with swmErr := s.swmCause k base true }) ∧
      (s.swmCause k base false ≠ 0 → answers (.swmReturn k) s fun t => t.ctxAt k = { s.ctxAt k with swmErr := s.swmCause k base false })) ∧
    (∀ k enter base owners, (s.ctxAt k).swmBusy = some (enter, base, owners) → ∃ u : State, exec (.swmSwitchDone k) s = .next u.releaseRecs ∧
      (u.ctxAt k).swmBusy = none ∧ (u.ctxAt k).swmDone = (s.ctxAt k).swmDone + 1 ∧ s.heldRecs <+: u.heldRecs ∧
      ∀ r, r ∈ u.swm ↔ (r ∈ s.swm ∧ ¬(r.ctx = k ∧ r.base = base)) ∨ (enter = true ∧ r = ⟨k, base, owners⟩)) ∧
    (∀ (v : BitVec 64) (i : Instr) (b : Bool), s.recovery = false → i = (if b then .biasToHost v else .biasToDevice v) →
      (s.flipsQueued < 16 → answers i s fun t => ∃ f, t.flips = s.flips ++ [f] ∧ f.va = s.mgmt.biasva ∧ f.internal = false ∧
        ∀ j < 64, f.cmd.getLsbD j = if j = 40 then b else v.getLsbD j) ∧
      (16 ≤ s.flipsQueued → answers i s fun t => t.flips = s.flips ∧ t.mgmt.biasErr = 4 ∧ t.mgmt.biasDone = s.mgmt.biasDone + 1)) ∧
    (∀ f rest, s.flip = none → s.flips = f :: rest →
      let u : State := { s with flips := rest }
      let host := f.cmd.getLsbD 40
      (u.flipCause f ≠ 0 → f.internal = false → answers .flipStart s fun t => t.flips = rest ∧ t.flip = none ∧ t.bias = s.bias ∧
        t.mgmt.biasErr = u.flipCause f ∧ t.mgmt.biasDone = s.mgmt.biasDone + 1) ∧
      (u.flipCause f = 0 → s.bias.contains f.frame = host → answers .flipStart s fun t => t.flips = rest ∧ t.flip = none ∧ t.bias = s.bias) ∧
      (u.flipCause f = 0 → s.bias.contains f.frame ≠ host → answers .flipStart s fun t => t.flips = rest ∧
        t.flip = some ⟨f, f.frame, host, if host then [] else List.range 64, !host⟩ ∧
        t.out = s.out ++ if host then [] else (List.range 64).map fun i => .biSnpInv (f.frame * 4096 + 64 * i))) ∧
    ∀ r, s.flip = some r →
      (∀ half data, half ∈ r.owed → answers (.birsp half data) s fun t =>
        t.flip = some { r with owed := r.owed.filter (· != half) } ∧
        t.mems = match data with | some bs => s.mems.write (.lpddr (r.frame * 4096 + 64 * half)) (slice bs 0 64) | none => s.mems) ∧
      (r.step2 = false → exec .flipDone s = .next { s with flip := some { r with step2 := true } }) ∧
      (r.step2 = true → r.owed ≠ [] → exec .flipDone s = .next s) ∧
      (r.step2 = true → r.owed = [] → ∃ u : State, exec .flipDone s = .next u.releaseRecs ∧ u.flip = none ∧ u.heldHost = [] ∧
        (∀ x, x ∈ u.bias ↔ if x = r.frame then r.toHost = true else x ∈ s.bias) ∧
        (r.flip.internal = false → u.mgmt.biasErr = 0 ∧ u.mgmt.biasDone = s.mgmt.biasDone + 1) ∧
        ∀ pa data, r.toHost = false → (∀ a ∈ s.accs, a.torn = false) → s.heldHost = [.write pa data] → s.recovery = false → pa + data.length ≤ Config.hostVisibleBytes →
          (∀ k < data.length, s.frozenPa (pa + k) = false) → u.mems = s.mems.write (.lpddr pa) data)

/-- R324, R384, R385, R387, R410: a quiesce starts, reports phase 1 once no access is in flight but parked ones and those behind them, stops
every column once every peer has reported and the collectives that every member has started are complete, and ends phase 3 with every line clean; an image is written then, or loaded into a bare device;
QCTL holds what was written. That the reports of peers are kept until the end (log 79), that a RESTORE needs a bare device (log 78), that accesses
behind parked ones park (log 44) and that a write with nothing to end only leaves QCTL (log 147) are the model's readings. -/
def Obligations.QuiesceAndImages : Prop :=
  ∀ (s : State),
    (s.quiesce.running = false → s.recovery = false →
      exec .quiesceStart s = .next { s with quiesce := { s.quiesce with running := true, phase := 0 }, mgmt := { s.mgmt with qctl := 1 } }) ∧
    (s.quiesce.running = true → s.quiesce.phase = 0 → (s.parkBehind fun _ => true).accessesOver = true → answers .quiescePhase1Done s fun t =>
      ((∃ p ∈ s.peers, p ∉ s.quiesce.reported) → t.quiesce.phase = 1 ∧ t.columns = s.columns) ∧
      ((∀ p ∈ s.peers, p ∈ s.quiesce.reported) → s.collectivesOver = true →
        t.quiesce.phase = 2 ∧ ∀ c ∈ t.columns, c.stop.isSome = true)) ∧
    (s.quiesce.running = true → s.quiesce.phase = 1 → (∀ p ∈ s.peers, p ∈ s.quiesce.reported) → answers .quiescePhase1Done s fun t =>
      (s.collectivesOver = true → t.quiesce.phase = 2 ∧ ∀ c ∈ t.columns, c.stop.isSome = true) ∧
      (s.collectivesOver = false → t = s)) ∧
    (s.quiesce.running = true → s.quiesce.phase = 2 → s.phase3Over = true → answers .quiescePhase1Done s fun t =>
      t.quiesce = { s.quiesce with phase := 3, ended := s.time } ∧ (∀ x ∈ t.l1, x.dirty = 0) ∧ ∀ x ∈ t.l2, x.dirty = false) ∧
    (s.quiesce.running = true → s.quiesce.phase = 3 → s.recovery = false → answers .quiesceEnd s fun t =>
      t = { s with quiesce := t.quiesce, mgmt := { s.mgmt with qctl := 2 } } ∧
      t.quiesce.running = false ∧ t.quiesce.phase = 0) ∧
    (s.quiesce.running = true → s.quiesce.phase = 3 → s.recovery = false → ∀ v : BitVec 64,
      (∀ u, v.toNat % 4096 = 0 → s.vaWrite 0 v.toNat s.image { shd := true } = .ok u → exec (.imgcmd v) s = .next u) ∧
      (∀ h u img w, (∀ k, 0 < k → (s.ctxAt k).exist = false) → s.vaRead 0 v.toNat 128 { shd := true } = .ok (h, u) →
        s.vaRead 0 v.toNat (numAt h 32 8) { shd := true } = .ok (img, w) →
          (∀ t, s.restored img = some t → exec (.restore v) s = .next t.wakeSlots) ∧
          (s.restored img = none → exec (.restore v) s = .next s))) ∧
    (s.quiesce.phase ≠ 3 → ∀ v, exec (.imgcmd v) s = .next s ∧ exec (.restore v) s = .next s ∧
      exec .quiesceEnd s = .next (if s.recovery then s else { s with mgmt := { s.mgmt with qctl := 2 } }))

/-- R399 to R401, R405 to R407: who may stop, run and step a core, and what that does to it; a dump of a stopped core alone, which waits
where its page holds requests; the stall counters, which read as they stand, are not written and are cleared together; the counting houses
set, cleared and dumped. A page is BAR0 (none) or a context's; that BRKSTOP is kept for each page, that every OP writes it, what a held dump
does, what a dump lists, and that any page may release a core are the model's choices (logs 145, 85, 84, 81). -/
def Obligations.DebugAndCounters : Prop :=
  ∀ (s : State),
    (∀ (page : Option Nat) (d : BitVec 64) core brk, dbgCore d = core → dbgBrk d = brk →
      core < Config.cores → core < s.cores.length → s.recovery = false →
      let brks := if brk then page :: (s.coreAt core).brkstop.filter (· != page) else (s.coreAt core).brkstop.filter (· != page)
      let may (ctx : Nat) : Prop := (s.ctxAt ctx).exist = true ∧ (s.ctxAt ctx).debug = true
      ((∀ ctx, page = some ctx → may ctx) →
        (answers (.dbgStop page core brk) s fun t =>
          t.coreAt core = { s.coreAt core with brkstop := brks, stopAsked := true, stepsLeft := none } ∧
          ∀ k, k ≠ core → t.coreAt k = s.coreAt k) ∧
        (answers (.dbgRun page core brk) s fun t =>
          t.coreAt core = { s.coreAt core with brkstop := brks, stopped := false, stopAsked := false, stepsLeft := none }) ∧
        (∀ n, 1 ≤ n → n ≤ 65535 → answers (.dbgStep page core n brk) s fun t =>
          t.coreAt core = { s.coreAt core with brkstop := brks, stopped := false, stopAsked := false, stepsLeft := some n }) ∧
        ((s.coreAt core).stopped = false → answers (.dbgDump page d) s fun t => t = { s with cores := t.cores } ∧
          t.coreAt core = { s.coreAt core with brkstop := brks } ∧ ∀ k, k ≠ core → t.coreAt k = s.coreAt k) ∧
        ((s.coreAt core).stopped = true →
          let w := s.modCore core fun k => { k with brkstop := brks }
          let gs := w.dumpGroups page core
          let cols := gs.foldl (fun (cs : List ColId) g => if cs.contains g.id.column then cs else cs ++ [g.id.column]) []
          let entries := gs.zipIdx.flatMap fun g => (g.1.threads.filter fun t => !t.retired).flatMap fun t => w.threadEntries core g.2 g.1 t
          ∀ records u, w.dumpRecords cols = (records, u) →
            let ctx := page.getD 0
            let va := match page with | none => u.mgmt.dbgva.toNat | some k => (u.ctxAt k).dbgva.toNat
            let dump := leBytes 64 (packFields [(core, 8), (gs.length, 8), (0, 16), (entries.length, 32), (u.time, 64)]) ++ records ++ entries.flatten
            (∀ v, u.vaWrite ctx va dump { shd := true } = .ok v → exec (.dbgDump page d) s = .next v) ∧
            (u.vaWrite ctx va dump { shd := true } = .error .held → exec (.dbgDump page d) s =
              .next { u with heldRecs := u.heldRecs ++ [.write ctx va dump true], mgmt := { u.mgmt with dumpBusy := true } }))) ∧
      (∀ ctx, page = some ctx → ¬may ctx → ∀ n, exec (.dbgStop page core brk) s = .next s ∧
        exec (.dbgRun page core brk) s = .next s ∧ exec (.dbgStep page core n brk) s = .next s ∧ exec (.dbgDump page d) s = .next s)) ∧
    (∀ core, core < s.cores.length → (s.coreAt core).stepsLeft = some 0 → answers (.dbgStepExpire core) s fun t =>
      t.coreAt core = { s.coreAt core with stopAsked := true, stepsLeft := none }) ∧
    (s.recovery = false → let k := s.coreAt (s.mgmt.profsel.toNat % 256)
      (∀ i < 9, s.bar0Reg (0x0C0 + 8 * i) = k.hist.getD i 0 ∧
        ∀ v, exec (.registerWrite .bar0 (0x0C0 + 8 * i) 8 v) s = .next s) ∧
      ∀ i < 13, s.bar0Reg (0x108 + 8 * i) = k.stall.getD i 0 ∧
        ∀ v, exec (.registerWrite .bar0 (0x108 + 8 * i) 8 v) s = .next s) ∧
    (∀ k, (State.reset.coreAt k).hist = List.replicate 9 0 ∧ (State.reset.coreAt k).stall = List.replicate 13 0) ∧
    (∀ v : BitVec 64, s.recovery = false → v.getLsbD 0 = true → answers (.profclr v) s fun t => t.cores.length = s.cores.length ∧
      ∀ k ∈ t.cores, k.hist = List.replicate 9 0 ∧ k.stall = List.replicate 13 0) ∧
    (∀ v : BitVec 64, s.recovery = false → ∀ reg, reg < 3 → answers (.chConfigWrite reg v) s fun t =>
      t.mgmt.chCount = [] ∧ t.mgmt.chOutside = 0 ∧ t.mgmt.chlaunch = (if reg = 0 then v else s.mgmt.chlaunch) ∧
      t.mgmt.chbase = (if reg = 1 then v else s.mgmt.chbase) ∧ t.mgmt.chshift = if reg = 2 then v else s.mgmt.chshift) ∧
    ∀ (v : BitVec 64) u, s.recovery = false →
      s.vaWrite 0 v.toNat s.mgmt.houses { shd := true } = .ok u → exec (.chdump v) s = .next u

/-- R408 to R412, R210: an offset of a BAR reaches its page; contexts are created and destroyed, or refused with the first cause, and a
destroyed one is gone with its last launch (log 143); registers read back what was written, but for their reserved bits; a write of another
width or alignment changes nothing; a ring starts over when it is configured; the weight-store window takes bytes unless a launch runs or no
die is named. The first of several errors (log 87), a new context's other registers (log 88), when a destruction is done (logs 89, 143), when
a launch runs (log 95) and both bits of WSSTAT (log 94) are the model's readings. -/
def Obligations.HostConfiguration : Prop :=
  ∀ (s : State),
    (s.recovery = false → s.mgmt.ctxBusy = none → ∀ v : BitVec 64,
      let k := (v.extractLsb' 2 8).toNat
      (v.getLsbD 0 = false → s.createErr v = 0 → k < s.ctxs.length → answers (.ctxCreate v) s fun t => (t.ctxAt k).exist = true ∧
        (t.ctxAt k).asid = (v.extractLsb' 10 16).toNat ∧ (t.ctxAt k).root = (s.mgmt.ctxroot.extractLsb' 12 40).toNat * 4096 ∧
        (t.ctxAt k).mig = v.getLsbD 26 ∧ (t.ctxAt k).debug = v.getLsbD 27 ∧ t.mgmt.ctxErr = 0 ∧ t.mgmt.ctxDone = s.mgmt.ctxDone + 1) ∧
      (v.getLsbD 0 = false → s.createErr v ≠ 0 →
        exec (.ctxCreate v) s = .next { s with mgmt := { s.mgmt with ctxErr := s.createErr v, ctxDone := s.mgmt.ctxDone + 1 } }) ∧
      (v.getLsbD 0 = true → s.destroyErr v = 0 → answers (.ctxDestroy v) s fun t => (t.ctxAt k).exist = false ∧
        (∀ g ∈ t.groups, g.ctx ≠ k) ∧ (∀ c ∈ t.saved, c.ctx ≠ k) ∧ (∀ p ∈ t.shadows, p.ctx ≠ k) ∧ (∀ r ∈ t.swm, r.ctx ≠ k) ∧
        (∀ l ∈ t.launches, l.ctx = k → l.ended = true) ∧
        ((∃ l ∈ s.launches, l.ctx = k) → t.mgmt.ctxBusy = some k ∧ t.mgmt.ctxDone = s.mgmt.ctxDone) ∧
        ((∀ l ∈ s.launches, l.ctx ≠ k) → t.mgmt.ctxBusy = none ∧ t.mgmt.ctxErr = 0 ∧ t.mgmt.ctxDone = s.mgmt.ctxDone + 1)) ∧
      (v.getLsbD 0 = true → s.destroyErr v ≠ 0 →
        exec (.ctxDestroy v) s = .next { s with mgmt := { s.mgmt with ctxErr := s.destroyErr v, ctxDone := s.mgmt.ctxDone + 1 } })) ∧
    (∀ k off (data : List Byte), k < 256 → off < 4096 → s.busRead 2 (8192 * k + off) data.length = s.readReg (.window k) off data.length ∧
      s.busRead 2 (8192 * k + 4096 + off) data.length = s.readReg (.control k) off data.length ∧
      busInstr 2 (8192 * k + off) data = some (pageWrite (.window k) off data) ∧
      busInstr 2 (8192 * k + 4096 + off) data = some (pageWrite (.control k) off data)) ∧
    (∀ off (data : List Byte), off < 2 ^ 20 → s.busRead 0 off data.length = s.readReg .bar0 off data.length ∧
      busInstr 0 off data = some (pageWrite .bar0 off data)) ∧
    (s.recovery = false → ∀ v : BitVec 64,
      (∀ r ∈ bar0Plain, s.ctxs ≠ [] → answers (.registerWrite .bar0 r.1 8 v) s fun t => t.bar0Reg r.1 = (v &&& r.2).toNat) ∧
      (∀ r ∈ controlPlain, ∀ k, (s.ctxAt k).exist = true →
        answers (.registerWrite (.control k) r.1 8 v) s fun t => t.controlReg k r.1 = (v &&& r.2).toNat) ∧
      ∀ (page : RegPage) off size, (∀ k, page ≠ .window k) → (off % 4 ≠ 0 ∨ size ≠ 4 ∧ size ≠ 8) →
        exec (.registerWrite page off size v) s = .next s) ∧
    (∀ k ring (v : BitVec 64), s.recovery = false → (s.ctxAt k).exist = true → (s.ctxAt k).rings.length = 4 → ring < 4 →
      s.faults = [] → s.columns = [] → s.saved = [] → s.heldRecs = [] → (∀ core, (s.coreAt core).traceQ = []) →
      let r := (s.ctxAt k).rings.getD ring .reset
      (answers (.ringConfigWrite k ring 0 8 v) s fun t => (t.ctxAt k).rings[ring]? = some ⟨v, r.log2n, 0, 0, 0⟩) ∧
      (answers (.ringConfigWrite k ring 8 8 v) s fun t => (t.ctxAt k).rings[ring]? = some ⟨r.base, v.toNat % 32, 0, 0, 0⟩) ∧
      ∀ w : Word, answers (.ringConsWrite k ring w) s fun t => (t.ctxAt k).rings[ring]? = some { r with cons := w }) ∧
    ∀ off (data : List Byte), s.fw.step ≠ 0 → s.fw.image = none → off + data.length ≤ 65536 →
      let bad := 6 * Config.weightBytes ≤ s.mgmt.wsaddr.toNat
      (s.groups = [] → ¬bad → s.mems.wf = true → answers (.wsWindowWrite off data) s fun t => t.groups = [] ∧
        ∀ i < data.length, Cells.get t.mems.wstore (s.mgmt.wsaddr.toNat + off + i) = data.getD i 0) ∧
      (s.groups ≠ [] ∨ bad → answers (.wsWindowWrite off data) s fun t => t.mems = s.mems ∧ (s.groups ≠ [] → t.mgmt.wsRefused = true) ∧
        (bad → t.mgmt.wsBadDie = true))

/-- R409, R418, R419: a firmware image is received in parts, and only a good one reaches flash; an attestation report is written; a
function-level reset ends every context and empties every cache; a cold reset comes up with the flash image, step by step, or enters
recovery; power lost during a flash write leaves no image. How long a step of bring-up takes (log 148), what a function-level reset keeps (log 90), what
a cold reset and a loss of power keep (log 96), and when FWSTAT[3] clears (log 98) are the model's choices. -/
def Obligations.FirmwareAndResets : Prop :=
  ∀ (s : State),
    (s.fw.step ≠ 0 → exec .fwBegin s = .next { s with fw := { s.fw with image := some [] } }) ∧
    (∀ img, s.fw.image = some img →
      (exec .fwAppend s = .next { s with fw := { s.fw with image := some (img ++ slice s.fw.staging 0 65536) } }) ∧
      (∀ off (data : List Byte), s.fw.step ≠ 0 → answers (.wsWindowWrite off data) s fun t => t.mems = s.mems ∧
        t.fw = { s.fw with staging := patch (slice s.fw.staging 0 65536) off (data.take (65536 - off)) }) ∧
      let good : Prop := img.length ≤ 2 ^ 25 ∧ Config.verify Config.vendorKey (Config.sha512 img) (Config.imageSignature img) = true ∧
        Config.rollbackCounter ≤ Config.imageVersion img
      (good → answers .fwEnd s fun t => t.fw.flash = some img ∧ t.fw.image = none ∧ t.fw.writing = true ∧ t.fw.failed = s.fw.failed) ∧
      (¬good → answers .fwEnd s fun t => t.fw.flash = s.fw.flash ∧ t.fw.image = none ∧ t.fw.failed = true)) ∧
    (∀ (v : BitVec 64) u, s.recovery = false →
      let w : State := { s with mgmt := { s.mgmt with attva := v } }
      w.vaWrite 0 v.toNat w.report { shd := true } = .ok u → exec (.attest v) s = .next u) ∧
    (s.recovery = false → answers .functionLevelReset s fun t => t.l1 = [] ∧ t.l2 = [] ∧ t.code = [] ∧ t.tlb = [] ∧ t.freezes = [] ∧
      t.bias = [] ∧ (∀ g ∈ t.groups, (s.ctxAt g.ctx).exist = false ∨ 256 ≤ g.ctx) ∧ ∀ k, 0 < k → k < 256 → (t.ctxAt k).exist = false) ∧
    (∀ img, s.fw.flash = some img → imageGood img = true → answers .coldReset s fun t => t.fw.step = 1 ∧ t.fw.running = some img ∧
      (∀ k, (t.ctxAt k).exist = false) ∧ t.groups = [] ∧ t.l1 = [] ∧ t.l2 = [] ∧ t.exch = .reset ∧ t.mems.host = s.mems.host) ∧
    ((∀ img, s.fw.flash = some img → imageGood img = false) → answers .coldReset s fun t => t.fw.step = 7 ∧ t.fw.running = none ∧
      ∀ k, (t.ctxAt k).exist = false) ∧
    (∀ n, s.fw.step = n →
      let next : State := { s with fw := { s.fw with step := n + 1 } }
      (n = 1 ∨ n = 2 → s.bringUp = next) ∧ (n = 3 → s.bringUp = { next with links := s.cabled.filter (· < 24) }) ∧
      (n = 4 → s.bringUp = { next with ctxs := State.reset.ctxs }) ∧ (n = 0 ∨ 5 ≤ n → s.bringUp = s)) ∧
    answers .powerLoss s fun t => t.fw.step = 0 ∧ t.fw.flash = (if s.fw.writing then none else s.fw.flash) ∧ t.groups = [] ∧ t.mems.scratch = []

/-! ## The whole machine -/

/-- R77, R88, R343, R352, R399, R405, R411, R412, R415, R418: what reset leaves, where the spec gives it: the system context with ASID 0 and
no other; every launch window, sweep, switch and flip status clear; rings empty; every ratio 4; the cap 1,250 W; nothing runs. That caches
and the device are empty at step 5 of bring-up, and OVERCAP 0, is the model's choice (logs 8, 96). -/
def Obligations.ResetValues : Prop :=
  let r := State.reset
  (r.ctxAt 0).exist = true ∧ (r.ctxAt 0).asid = 0 ∧ (∀ k, 0 < k → (r.ctxAt k).exist = false) ∧
  (∀ k, (r.ctxAt k).csw = 0 ∧ (r.ctxAt k).swmbase = 0 ∧ (r.ctxAt k).swmmask = 0 ∧ (r.ctxAt k).swmDone = 0 ∧ (r.ctxAt k).swmErr = 0 ∧
    (r.ctxAt k).swmBusy = none ∧ (r.ctxAt k).dbgva = 0 ∧ ∀ x ∈ (r.ctxAt k).rings, x.words = [0, 0, 0, 0]) ∧
  r.exch.grant = ⟨List.replicate 6 4, List.replicate 6 4, 4, 4⟩ ∧ r.exch.pwrcap = 1250 ∧ r.exch.overcap = false ∧
  r.bias = [] ∧ r.mgmt.biasva = 0 ∧ r.mgmt.biasDone = 0 ∧ r.mgmt.biasErr = 0 ∧ r.flipsQueued = 0 ∧ r.dbgStat = 0 ∧
  (∀ k, (r.coreAt k).hist = List.replicate 9 0 ∧ (r.coreAt k).stall = List.replicate 13 0) ∧
  r.groups = [] ∧ r.launches = [] ∧ r.columns = [] ∧ r.cmds = [] ∧ r.l1 = [] ∧ r.l2 = [] ∧ r.code = [] ∧ r.tlb = [] ∧ r.fw.step = 5

/-- Memory at reset is canonical: it lists nothing. -/
def Obligations.MemoryCanonicalAtReset : Prop :=
  let m := State.reset.mems
  m.wf = true ∧ m.lpddr = [] ∧ m.wstore = [] ∧ m.host = [] ∧ m.remote = [] ∧ m.scratch = []

/-- R203: every step keeps the memories in their one canonical form, so that equal memories are equal data. -/
def Obligations.MemoryStaysCanonical : Prop := ∀ (s t : State), s.mems.wf = true → step s = .next t → t.mems.wf = true

/-- R97 to R107: every accepted strand instruction is what decoding its parcels gives back, whatever follows them. -/
def Obligations.StrandWordsRoundTrip : Prop :=
  ∀ (i : Instr) (fm : Form) (rest : List (BitVec 16)), i.wf = true → i.form = some fm → decodeStrand (fm.parcels ++ rest) = .ok (i, rest)

/-- R110 to R112: every accepted teller instruction is what decoding its word gives back. -/
def Obligations.TellerWordsRoundTrip : Prop := ∀ (i : Instr) (w : Word), i.wf = true → i.tellerWord = some w → decodeTeller w = .ok i

/-- R93, R97, R108 to R110, R112: the next step runs what stands at the program counter of the first issue: the strand instruction that its
line, or its line and the next, decode to, or, where they are no instruction, the illegal-instruction trap of each thread that nothing holds;
the teller instruction of its word, or the illegal one; and an agent's event where nothing is issued or due. That what agents do stands in a
list which the step reads is the model's choice (log 3). -/
def Obligations.StepRunsInstruction : Prop :=
  ∀ (s : State),
    (∀ core n pc members rest, s.issue = .bundle core n pc members :: rest →
      let u : State := { s with issue := rest, cur := some (.bundle core n pc members) }
      let asid := s.bundleAsid members
      ∀ ps, fetched s core asid pc ps →
        (∀ i, reads ps i → step s = settle (exec i u)) ∧
        (isIllegal ps → ∃ use t, step s = .next t ∧
          ((∀ x ∈ u.readyFor use, ∃ c, s.column? x.gid.column = some c ∧ c.stop = none) →
            lanesTrap s t (u.readyFor use) fun _ => { cls := 1, code := 0 }))) ∧
    (∀ g rest l, s.issue = .teller g.id :: rest → s.group? g.id = some g →
      s.codeLine? g.core (s.ctxAt g.ctx).asid (g.teller.pc.toNat / 128) = some l →
      let u : State := { s with issue := rest, cur := some (.teller g.id) }
      let w := wordFrom l g.teller.pc
      (∀ i, decodeTeller w = .ok i → i.wf = true → step s = settle (exec i u)) ∧
      ((∀ i, decodeTeller w = .ok i → i.wf = false) → step s = settle (exec (.illegalTellerWord w) u))) ∧
    ∀ i rest, s.issue = [] → s.firstOf s.dueEvents = none → s.agenda = .event i :: rest → step s = exec i { s with agenda := rest }

/-- The words that the spec writes out (R99 to R104, R110, R120, R284, the encodings of `scale2` and of the attention program) decode to the
instructions that it writes beside them. -/
def Obligations.SpecWordsDecode : Prop :=
  reads [0x4A00] (.sLdB32 0 0) ∧
  reads [0x8880, 0x6800, 0x0000, 0x4000] (.fmul ⟨none, 0, 3, .lit 0x40000000, .one 0 0⟩) ∧
  reads [0x9F80, 0x0400] (.stB32 ⟨none, 0, 0, 1, 0, 0⟩) ∧
  reads [0x5E00] (.sEnd 0) ∧
  reads [0xDD7F, 0x1810, 0x0240, 0x5000] (.ldB64 ⟨some ⟨.dev, .acquire, .normal, 0x240⟩, 63, 0, 6, 0, 2⟩) ∧
  reads [0xA580, 0x4002] (.callx 2 2) ∧
  reads [0xDFC1, 0x1010, 0x0008, 0x0000] (.stB64 ⟨some ⟨.grp, .relaxed, .normal, 8⟩, 1, 0, 4, 0, 2⟩) ∧
  reads [0x9800, 0xF520] (.mov ⟨none, 0, 7, .elem, .win .hi true⟩) ∧
  reads [0x9740, 0xF500] (.csum ⟨none, 0, 7, .elem, .win .hi false⟩) ∧
  reads [0x9887, 0x0102] (.put 7 0 8 2) ∧
  reads [0xA487, 0x5FD4] (.bnz 7 2 (-44)) ∧
  reads [0x6000] (.sNop 0) ∧
  decodeTeller 0xC1145FFF = .ok (.taddi 5 5 (-1)) ∧
  decodeTeller 0xE8000000 = .ok .tnop

/-- R88 to R90: with nothing running every ratio is 4; else the choice is an admissible candidate of least cost, the larger at the first
difference among equals, and 4 everywhere with OVERCAP where there is none. Ratio 4 everywhere is 492 W, and ratio 8 1,170 W; caps of 500 W
and more always leave a candidate. -/
def Obligations.ArbitrationIsBest : Prop :=
  (∀ s : State,
    (s.deviceGovernor = none → s.arbitrate = (.idle, false)) ∧
    (s.deviceGovernor ≠ none → (∃ g, admissible s g) → s.arbitrate.2 = false ∧ admissible s s.arbitrate.1 ∧
      ∀ g, admissible s g → costOf s s.arbitrate.1 < costOf s g ∨
        costOf s s.arbitrate.1 = costOf s g ∧ (g = s.arbitrate.1 ∨ firstLarger s.arbitrate.1 g)) ∧
    (s.deviceGovernor ≠ none → (∀ g, ¬admissible s g) → s.arbitrate = (.idle, true)) ∧
    (500 ≤ s.exch.pwrcap → 500 ≤ s.exch.thermal → ∃ g, admissible s g)) ∧
  powerOf .idle = 492 ∧ powerOf ⟨List.replicate 6 8, List.replicate 6 8, 8, 8⟩ = 1170
end

