-- ==== Sys2Proof/Laws/Issue.lean ====
section
/-! SUPPORT. What an issue does to the threads of its bundle, said once: `State.issueWith` for a bundle that issues without a trap, and
what becomes of one thread under a fold over the bundle. -/

namespace Sys2Proof.Machine

/-! ## One group, one thread, one strand -/

theorem find?_updWhere {α : Type} (p : α → Bool) (q : α → Bool) (f : α → α) (hq : ∀ a, q (f a) = q a) (l : List α) :
    (updWhere p f l).find? q = (l.find? q).map fun a => if p a then f a else a := by
  induction l with
  | nil => rfl
  | cons a l ih =>
    simp only [updWhere, List.map_cons] at ih ⊢
    have h : q (if p a then f a else a) = q a := by split <;> simp [hq]
    by_cases hqa : q a = true
    · simp [h, hqa]
    · simp [h, hqa, ih]

theorem State.group?_modGroup (s : State) (g h : GroupId) (f : Group → Group) (hf : ∀ x, (f x).id = x.id) :
    (s.modGroup h f).group? g = (s.group? g).map fun x => if x.id == h then f x else x := by
  simp only [State.group?, State.modGroup]
  exact find?_updWhere _ _ _ (fun a => by simp [hf]) _

theorem State.group?_id {s : State} {g : GroupId} {x : Group} (h : s.group? g = some x) : x.id = g := by
  have := List.find?_some h
  simpa using this

/-- A change of a thread of a group, seen from any thread. -/
theorem State.thread?_modThread (s : State) (g g' : GroupId) (tid tid' : Nat) (f : Thread → Thread) :
    (s.modThread g' tid' f).thread? g tid = if g = g' ∧ tid = tid' then (s.thread? g tid).map f else s.thread? g tid := by
  have hm := State.group?_modGroup s g g' (·.modThread tid' f) (fun _ => rfl)
  unfold State.thread? State.modThread
  rw [hm]
  cases hg : s.group? g with
  | none => simp
  | some x =>
    have hid := State.group?_id hg
    by_cases h1 : g = g'
    · subst h1
      simp only [Option.map_some, hid, beq_self_eq_true, if_true, Option.bind_some, Group.thread?, Group.modThread, true_and]
      rw [List.getElem?_modify]
      by_cases h2 : tid' = tid
      · simp [h2]
      · simp [h2, Ne.symm h2]
    · simp [hid, h1]

theorem Thread.strand?_modStrand (t : Thread) (n m : Nat) (f : Strand → Strand) (hf : ∀ x, (f x).n = x.n) :
    (t.modStrand n f).strand? m = if m = n then (t.strand? m).map f else t.strand? m := by
  unfold Thread.strand? Thread.modStrand
  rw [find?_updWhere _ _ _ (fun a => by simp [hf])]
  cases h : t.strands.find? (·.n == m) with
  | none => simp
  | some x =>
    have hx : x.n = m := by simpa using List.find?_some h
    by_cases h1 : m = n <;> simp [hx, h1]

theorem State.thread?_modGroup (s : State) (g h : GroupId) (tid : Nat) (f : Group → Group) (hid : ∀ x, (f x).id = x.id)
    (ht : ∀ x, (f x).threads = x.threads) : (s.modGroup h f).thread? g tid = s.thread? g tid := by
  unfold State.thread?
  rw [State.group?_modGroup _ _ _ _ hid]
  cases s.group? g with
  | none => rfl
  | some x => by_cases h1 : x.id = h <;> simp [h1, Group.thread?, ht]

/-- A change of a strand, seen from any strand. -/
theorem State.strand?_modStrand (s : State) (g g' : GroupId) (tid tid' n n' : Nat) (f : Strand → Strand) (hf : ∀ x, (f x).n = x.n) :
    (s.modStrand g' tid' n' f).strand? g tid n =
      if g = g' ∧ tid = tid' ∧ n = n' then (s.strand? g tid n).map f else s.strand? g tid n := by
  unfold State.strand? State.modStrand
  rw [State.thread?_modThread]
  by_cases h : g = g' ∧ tid = tid'
  · obtain ⟨rfl, rfl⟩ := h
    cases s.thread? g tid with
    | none => simp
    | some t => simp [Thread.strand?_modStrand _ _ _ _ hf]
  · rw [if_neg h, if_neg (fun x => h ⟨x.1, x.2.1⟩)]

/-! ## A fold over the threads of a bundle -/

/-- Where each step of a fold changes the thread of its own lane by `F` and no other thread, so does the fold, each lane once. -/
theorem foldl_threads {lanes : List Lane} {upd : State → Lane → State} {F : Lane → Thread → Thread}
    (same : ∀ s l, l ∈ lanes → (upd s l).thread? l.gid l.tid = (s.thread? l.gid l.tid).map (F l))
    (other : ∀ s l g tid, l ∈ lanes → (l.gid, l.tid) ≠ (g, tid) → (upd s l).thread? g tid = s.thread? g tid)
    (nodup : (lanes.map fun l => (l.gid, l.tid)).Nodup) (s : State) :
    (∀ l ∈ lanes, (lanes.foldl upd s).thread? l.gid l.tid = (s.thread? l.gid l.tid).map (F l)) ∧
    (∀ g tid, (∀ l ∈ lanes, (l.gid, l.tid) ≠ (g, tid)) → (lanes.foldl upd s).thread? g tid = s.thread? g tid) := by
  induction lanes generalizing s with
  | nil => simp
  | cons a rest ih =>
    simp only [List.map_cons, List.nodup_cons] at nodup
    obtain ⟨ha, hn⟩ := nodup
    obtain ⟨h1, h2⟩ := ih (fun s l hl => same s l (.tail _ hl)) (fun s l g tid hl => other s l g tid (.tail _ hl)) hn (upd s a)
    have hne : ∀ l ∈ rest, (a.gid, a.tid) ≠ (l.gid, l.tid) := fun l hl he => ha (he ▸ List.mem_map_of_mem hl)
    refine ⟨fun l hl => ?_, fun g tid hl => ?_⟩
    · simp only [List.foldl_cons]
      rcases List.mem_cons.1 hl with rfl | hl
      · rw [h2 _ _ (fun m hm => (hne m hm).symm), same s _ (.head _)]
      · rw [h1 l hl, other s a _ _ (.head _) (hne l hl)]
    · simp only [List.foldl_cons]
      rw [h2 _ _ (fun m hm => hl m (.tail _ hm)), other s a _ _ (.head _) (hl a (.head _))]

/-! ## The lanes of a bundle -/

theorem State.lane?_spec {s : State} {n : Nat} {m : GroupId × Nat} {l : Lane} (h : s.lane? n m = some l) :
    l.gid = m.1 ∧ l.tid = m.2 ∧ s.group? l.gid = some l.g ∧ s.thread? l.gid l.tid = some l.t ∧ l.t.strand? n = some l.st ∧ l.st.n = n := by
  unfold State.lane? at h
  split at h
  · cases h
  · rename_i g hg
    split at h
    · cases h
    · rename_i t ht
      split at h
      · cases h
      · rename_i st hst
        cases h
        refine ⟨rfl, rfl, hg, ?_, hst, by simpa using List.find?_some hst⟩
        simp [State.thread?, hg, ht]

/-- Every thread that can issue stands in the state as the lane says. -/
theorem State.ready_spec {s : State} {fm : Form} {l : Lane} (h : l ∈ s.ready fm) :
    s.group? l.gid = some l.g ∧ s.thread? l.gid l.tid = some l.t ∧ l.t.strand? l.st.n = some l.st ∧ l.st.n = s.curStrand ∧
      (l.gid, l.tid) ∈ s.members := by
  unfold State.ready at h
  split at h
  · rename_i core n pc ms hc
    have hl := (List.mem_filter.1 h).1
    obtain ⟨m, hm, hlm⟩ := List.mem_filterMap.1 hl
    obtain ⟨h1, h2, h3, h4, h5, h6⟩ := State.lane?_spec hlm
    refine ⟨h3, h4, by rw [h6]; exact h5, ?_, ?_⟩
    · simp [State.curStrand, hc, h6]
    · simp only [State.members, hc, h1, h2]; exact hm
  · cases h

theorem State.ready_nodup {s : State} {fm : Form} (h : s.members.Nodup) : ((s.ready fm).map fun l => (l.gid, l.tid)).Nodup := by
  unfold State.ready
  unfold State.members at h
  split
  · rename_i core n pc ms hc
    simp only [hc] at h
    have key : ((ms.filterMap (s.lane? n)).map fun l => (l.gid, l.tid)).Nodup := by
      clear hc
      induction ms with
      | nil => simp
      | cons m ms ih =>
        have hn := List.nodup_cons.1 h
        have ih := ih hn.2
        cases hl : s.lane? n m with
        | none => simpa [List.filterMap_cons, hl] using ih
        | some l =>
          simp only [List.filterMap_cons, hl, List.map_cons, List.nodup_cons]
          refine ⟨fun hmem => hn.1 ?_, ih⟩
          obtain ⟨l', hl', he⟩ := List.mem_map.1 hmem
          obtain ⟨m', hm', hl''⟩ := List.mem_filterMap.1 hl'
          have e1 := State.lane?_spec hl
          have e2 := State.lane?_spec hl''
          have : m = m' := by
            have := Prod.mk.inj he
            exact Prod.ext (by rw [← e1.1, ← e2.1, this.1]) (by rw [← e1.2.1, ← e2.2.1, this.2])
          exact this ▸ hm'
    exact key.sublist ((List.filter_sublist).map _)
  · simp

/-! ## What an issue changes -/

/-- One state is another with its groups' threads, lane masks and, for a form that reads it (`d`), decision queues changed, of its cores
the pipes and what waits to be traced, and nothing else. -/
def State.Issued (s t : State) (d : Bool) : Prop :=
  (∃ G C, t = { s with groups := G, cores := C }) ∧
  (∀ g x, s.group? g = some x → ∃ T D M, t.group? g = some { x with threads := T, dq := D, masks := M } ∧ (d = false → D = x.dq)) ∧
  ∀ k, ∃ e a q, t.coreAt k = { s.coreAt k with elemBusy := e, accBusy := a, traceQ := q }

theorem State.Issued.rfl' (s : State) (d : Bool) : s.Issued s d :=
  ⟨⟨s.groups, s.cores, rfl⟩, fun _ x h => ⟨x.threads, x.dq, x.masks, h, fun _ => rfl⟩,
    fun k => ⟨(s.coreAt k).elemBusy, (s.coreAt k).accBusy, (s.coreAt k).traceQ, rfl⟩⟩

theorem State.Issued.trans {s t u : State} {d : Bool} (h : s.Issued t d) (k : t.Issued u d) : s.Issued u d := by
  obtain ⟨⟨G, C, rfl⟩, hg, hc⟩ := h
  obtain ⟨⟨G', C', rfl⟩, kg, kc⟩ := k
  refine ⟨⟨G', C', rfl⟩, fun g x hx => ?_, fun n => ?_⟩
  · obtain ⟨T, D, M, h1, h3⟩ := hg g x hx
    obtain ⟨T', D', M', h2, h4⟩ := kg g _ h1
    exact ⟨T', D', M', h2, fun hd => (h4 hd).trans (h3 hd)⟩
  · obtain ⟨e, a, q, h1⟩ := hc n
    obtain ⟨e', a', q', h2⟩ := kc n
    exact ⟨e', a', q', by rw [h2, h1]⟩

theorem State.Issued.foldl {α : Type} {f : State → α → State} {d : Bool} (h : ∀ (s : State) (a : α), s.Issued (f s a) d) (s : State)
    (l : List α) : s.Issued (l.foldl f s) d := by
  induction l generalizing s with
  | nil => exact .rfl' s d
  | cons a l ih => exact (h s a).trans (ih _)

theorem State.Issued.modGroup (s : State) (h : GroupId) (d : Bool) (f : Group → Group)
    (hf : ∀ x, ∃ T D M, f x = { x with threads := T, dq := D, masks := M } ∧ (d = false → D = x.dq)) : s.Issued (s.modGroup h f) d := by
  refine ⟨⟨_, s.cores, rfl⟩, fun g x hx => ?_, fun k => ⟨(s.coreAt k).elemBusy, (s.coreAt k).accBusy, (s.coreAt k).traceQ, rfl⟩⟩
  rw [State.group?_modGroup _ _ _ _ (fun x => by obtain ⟨T, D, M, h, -⟩ := hf x; rw [h]), hx]
  by_cases h1 : x.id = h
  · obtain ⟨T, D, M, h2, h3⟩ := hf x
    exact ⟨T, D, M, by simp [h1, h2], h3⟩
  · exact ⟨x.threads, x.dq, x.masks, by simp [h1], fun _ => rfl⟩

theorem State.Issued.modThread (s : State) (g : GroupId) (tid : Nat) (d : Bool) (f : Thread → Thread) : s.Issued (s.modThread g tid f) d :=
  .modGroup s g d _ fun x => ⟨_, x.dq, x.masks, rfl, fun _ => rfl⟩

theorem State.coreAt_modCore (s : State) (c k : Nat) (f : Core → Core) :
    (s.modCore c f).coreAt k = if c = k ∧ k < s.cores.length then f (s.coreAt k) else s.coreAt k := by
  simp only [State.coreAt, State.modCore, List.getD_eq_getElem?_getD, List.getElem?_modify]
  by_cases h : k < s.cores.length
  · by_cases hc : c = k <;> simp [h, hc]
  · simp [h]

theorem State.Issued.modCore (s : State) (c : Nat) (d : Bool) (f : Core → Core)
    (hf : ∀ k, ∃ e a q, f k = { k with elemBusy := e, accBusy := a, traceQ := q }) : s.Issued (s.modCore c f) d := by
  refine ⟨⟨s.groups, _, rfl⟩, fun _ x h => ⟨x.threads, x.dq, x.masks, h, fun _ => rfl⟩, fun k => ?_⟩
  rw [State.coreAt_modCore]
  split
  · exact hf _
  · exact ⟨(s.coreAt k).elemBusy, (s.coreAt k).accBusy, (s.coreAt k).traceQ, rfl⟩

theorem State.Issued.trace (s : State) (g : Group) (ev id crew : Nat) (teller : Bool) (mask : Nat) (pc : Addr) (d : Bool) :
    s.Issued (s.trace g ev id crew teller mask pc) d := by
  unfold State.trace
  split
  · exact .rfl' s d
  · exact .modCore s _ d _ fun k => ⟨k.elemBusy, k.accBusy, _, rfl⟩

theorem State.Issued.issueLane (s : State) (c : Nat) (f : Form) (l : Lane) : s.Issued (s.issueLane c f l) f.use.dq := by
  unfold State.issueLane
  dsimp only
  split
  · rename_i h
    exact (State.Issued.modThread s _ _ _ _).trans (.modGroup _ _ _ _ fun x => ⟨x.threads, _, x.masks, rfl, fun h' => by simp [h] at h'⟩)
  · exact .modThread s _ _ _ _

theorem State.Issued.busyPipe (s : State) (core n : Nat) (f : Form) (u : Nat) (d : Bool) : s.Issued (s.busyPipe core n f u) d := by
  refine .modCore s _ d _ fun k => ?_
  split
  · exact ⟨_, k.accBusy, k.traceQ, rfl⟩
  · exact ⟨k.elemBusy, _, k.traceQ, rfl⟩

theorem State.Issued.traceBundle (s : State) (lanes : List Lane) (d : Bool) : s.Issued (s.traceBundle lanes) d := by
  unfold State.traceBundle
  refine .foldl (fun s l => ?_) s _
  dsimp only
  refine State.Issued.trans (t := _) ?_ (.modGroup _ _ d _ fun x => ⟨x.threads, x.dq, _, rfl, fun _ => rfl⟩)
  split
  · split
    · exact .trace ..
    · exact .rfl' s d
  · exact .rfl' s d

/-! ## Threads -/

theorem State.thread?_congr {s t : State} (h : t.groups = s.groups) (g : GroupId) (tid : Nat) : t.thread? g tid = s.thread? g tid := by
  simp [State.thread?, State.group?, h]

theorem State.thread?_trace (s : State) (x : Group) (ev id crew : Nat) (te : Bool) (m : Nat) (pc : Addr) (g : GroupId) (tid : Nat) :
    (s.trace x ev id crew te m pc).thread? g tid = s.thread? g tid := by
  unfold State.trace
  split
  · rfl
  · exact State.thread?_congr rfl g tid

theorem State.thread?_traceBundle (s : State) (lanes : List Lane) (g : GroupId) (tid : Nat) :
    (s.traceBundle lanes).thread? g tid = s.thread? g tid := by
  unfold State.traceBundle
  generalize (lanes.filter fun l => (lanes.find? fun m => m.gid == l.gid && crewOf m.tid == crewOf l.tid) == some l) = ls
  induction ls generalizing s with
  | nil => rfl
  | cons l ls ih =>
    rw [List.foldl_cons, ih]
    dsimp only
    refine (State.thread?_modGroup _ _ _ _ _ ?_ ?_).trans ?_
    · exact fun _ => rfl
    · exact fun _ => rfl
    · split
      · split
        · exact State.thread?_trace ..
        · rfl
      · rfl

/-- A thread once its strand has issued a form on cycle `c` (R24, R37, R114). -/
def Lane.issuedThread (l : Lane) (c : Nat) (f : Form) (t : Thread) : Thread :=
  (match f.use.read with | some g => t.spend g | none => t).modStrand l.st.n fun st =>
    { st.issued c f.stall (st.pc + BitVec.ofNat 64 (2 * f.size)) with
      know := l.know f.use, after := l.after f.use, fenced := l.fenced f.use, cursor := if f.use.dq then st.cursor + 1 else st.cursor }

theorem State.issueLane_eq (s : State) (c : Nat) (f : Form) (l : Lane) :
    s.issueLane c f l =
      if f.use.dq then (s.modThread l.gid l.tid (l.issuedThread c f)).modGroup l.gid (·.dqRead l.st.cursor)
      else s.modThread l.gid l.tid (l.issuedThread c f) := rfl

theorem State.thread?_issueLane (s : State) (c : Nat) (f : Form) (l : Lane) (g : GroupId) (tid : Nat) :
    (s.issueLane c f l).thread? g tid = (s.modThread l.gid l.tid (l.issuedThread c f)).thread? g tid := by
  rw [State.issueLane_eq]
  split
  · exact State.thread?_modGroup _ _ _ _ (·.dqRead l.st.cursor) (fun _ => rfl) (fun _ => rfl)
  · rfl

theorem State.issueLane_same (s : State) (c : Nat) (f : Form) (l : Lane) :
    (s.issueLane c f l).thread? l.gid l.tid = (s.thread? l.gid l.tid).map (l.issuedThread c f) := by
  rw [State.thread?_issueLane, State.thread?_modThread]; simp

theorem State.issueLane_other (s : State) (c : Nat) (f : Form) (l : Lane) (g : GroupId) (tid : Nat) (hne : (l.gid, l.tid) ≠ (g, tid)) :
    (s.issueLane c f l).thread? g tid = s.thread? g tid := by
  rw [State.thread?_issueLane, State.thread?_modThread, if_neg]
  rintro ⟨rfl, rfl⟩; exact hne rfl

/-! ## The issue of a bundle without a trap -/

theorem State.issues_members {s : State} {fm : Form} (h : s.issues fm = true) : s.members.Nodup := by
  simp only [State.issues, Bool.and_eq_true] at h
  exact of_decide_eq_true h.1.1

theorem State.refuseAll_none (s : State) {why : Lane → Option Cause} {lanes : List Lane} (h : ∀ l ∈ lanes, why l = none) :
    s.refuseAll why lanes = s := by
  unfold State.refuseAll
  induction lanes with
  | nil => rfl
  | cons a ls ih =>
    rw [List.foldl_cons, h a (.head _)]
    exact ih fun x hx => h x (.tail _ hx)

/-- A bundle that issues without a trap: the instruction's own act runs over all the threads that can issue, in a state in which each
of them has issued, and no other thread, nor anything else but queues, masks and cores, has changed. -/
theorem State.issueWith_ok {s : State} {fm : Form} (cause : Lane → Option Cause) (act : Nat → List Lane → State → State)
    (h : s.issues fm = true) (hc : ∀ l ∈ s.ready fm, cause l = none) :
    ∃ u, s.issueWith fm cause act = act (s.cycle s.curCore) (s.ready fm) u ∧ s.Issued u fm.use.dq ∧
      (∀ l ∈ s.ready fm, u.thread? l.gid l.tid = some (l.issuedThread (s.cycle s.curCore) fm l.t)) ∧
      (∀ g tid, (∀ l ∈ s.ready fm, (l.gid, l.tid) ≠ (g, tid)) → u.thread? g tid = s.thread? g tid) := by
  have hm := State.issues_members h
  simp only [State.issues, Bool.and_eq_true, List.all_eq_true, Bool.not_eq_true', Option.isNone_iff_eq_none] at h
  obtain ⟨⟨-, hne⟩, hall⟩ := h
  have hnd := State.ready_nodup (fm := fm) hm
  have hspec := fun l hl => State.ready_spec (s := s) (fm := fm) (l := l) hl
  unfold State.issueWith
  dsimp only
  generalize s.ready fm = lanes at *
  match lanes, hne with
  | l :: rest, _ =>
    have hl := hall l (.head _)
    simp only [hl.1.1, Bool.false_eq_true, if_false]
    have hdq : (fm.use.dq && (l :: rest).any (dqReclaimed (l :: rest))) = false := by
      cases hd : fm.use.dq with
      | false => rfl
      | true =>
        simp only [Bool.true_and, List.any_eq_false, Bool.not_eq_true]
        intro x hx
        have := (hall x hx).1.2
        simpa [hd] using this
    simp only [hdq, Bool.false_eq_true, if_false]
    have hwhy : ∀ x ∈ l :: rest, ((checkCause fm.use x).orElse fun _ => cause x) = none := fun x hx => by
      rw [(hall x hx).2]; simpa using hc x hx
    have hfold : s.refuseAll (fun x => (checkCause fm.use x).orElse fun _ => cause x) (l :: rest) = s := State.refuseAll_none s hwhy
    have hgo : (l :: rest).filter (fun x => ((checkCause fm.use x).orElse fun _ => cause x).isNone) = l :: rest :=
      List.filter_eq_self.2 fun x hx => by rw [hwhy x hx]; rfl
    rw [hfold, hgo]
    refine ⟨_, rfl, ?_, ?_, ?_⟩
    · refine State.Issued.trans (t := _) ?_ (.traceBundle _ _ _)
      split
      · exact .foldl (fun s l => .issueLane s _ _ l) _ _
      · exact (State.Issued.foldl (fun s l => .issueLane s _ _ l) _ _).trans (.busyPipe ..)
    all_goals
      have hf := foldl_threads (lanes := l :: rest) (upd := fun u l => u.issueLane (s.cycle s.curCore) fm l)
        (F := fun x => x.issuedThread (s.cycle s.curCore) fm) (fun u x _ => State.issueLane_same u _ _ x)
        (fun u x g tid _ hn => State.issueLane_other u _ _ x g tid hn) hnd s
    · intro x hx
      rw [State.thread?_traceBundle]
      have : ((l :: rest).isEmpty) = false := rfl
      simp only [this, Bool.false_eq_true, if_false]
      exact ((State.thread?_congr rfl _ _).trans (hf.1 x hx)).trans (by rw [(hspec x hx).2.1]; rfl)
    · intro g tid hn
      rw [State.thread?_traceBundle]
      have : ((l :: rest).isEmpty) = false := rfl
      simp only [this, Bool.false_eq_true, if_false]
      exact (State.thread?_congr rfl _ _).trans (hf.2 g tid hn)

/-! ## The strand of each thread afterwards -/

theorem Lane.issuedThread_strand? {l : Lane} (h : l.t.strand? l.st.n = some l.st) (c : Nat) (fm : Form) :
    (l.issuedThread c fm l.t).strand? l.st.n = some (l.stepped c fm) := by
  have hs : ∀ t : Thread, t.strand? l.st.n = some l.st →
      (t.modStrand l.st.n fun st => { st.issued c fm.stall (st.pc + BitVec.ofNat 64 (2 * fm.size)) with
        know := l.know fm.use, after := l.after fm.use, fenced := l.fenced fm.use, cursor := if fm.use.dq then st.cursor + 1 else st.cursor }).strand? l.st.n = some (l.stepped c fm) := by
    intro t ht
    refine (Thread.strand?_modStrand t l.st.n l.st.n _ ?_).trans ?_
    · exact fun _ => rfl
    · rw [if_pos rfl, ht]
      rfl
  unfold Lane.issuedThread
  refine hs _ ?_
  split
  · rename_i g _
    have : ∀ t : Thread, (t.spend g).strands = t.strands := fun t => by
      unfold Thread.spend
      dsimp only
      split <;> rfl
    unfold Thread.strand?
    rw [this]
    exact h
  · exact h

/-- An instruction whose act changes, for each thread of the bundle, only that thread, by `F`: each thread is `F` of the thread once
issued, and no other thread changes. -/
theorem State.issueWith_threads {s : State} {fm : Form} (cause : Lane → Option Cause) (upd : Nat → List Lane → State → Lane → State)
    (F : Lane → Thread → Thread) (h : s.issues fm = true) (hc : ∀ l ∈ s.ready fm, cause l = none)
    (same : ∀ u l, l ∈ s.ready fm →
      (upd (s.cycle s.curCore) (s.ready fm) u l).thread? l.gid l.tid = (u.thread? l.gid l.tid).map (F l))
    (other : ∀ u l g tid, l ∈ s.ready fm → (l.gid, l.tid) ≠ (g, tid) →
      (upd (s.cycle s.curCore) (s.ready fm) u l).thread? g tid = u.thread? g tid) :
    (∀ l ∈ s.ready fm, (s.issueWith fm cause fun c lanes s => lanes.foldl (upd c lanes) s).thread? l.gid l.tid =
      some (F l (l.issuedThread (s.cycle s.curCore) fm l.t))) ∧
    (∀ g tid, (∀ l ∈ s.ready fm, (l.gid, l.tid) ≠ (g, tid)) →
      (s.issueWith fm cause fun c lanes s => lanes.foldl (upd c lanes) s).thread? g tid = s.thread? g tid) := by
  obtain ⟨u, hu, -, ht, ho⟩ := State.issueWith_ok cause (fun c lanes s => lanes.foldl (upd c lanes) s) h hc
  have hf := foldl_threads same other (State.ready_nodup (State.issues_members h)) u
  rw [hu]
  refine ⟨fun l hl => ?_, fun g tid hn => ?_⟩
  · rw [hf.1 l hl, ht l hl]; rfl
  · rw [hf.2 g tid hn, ho g tid hn]

/-- The same for a change of the strand alone: the strand is `F` of the strand once issued. -/
theorem State.issueWith_strands {s : State} {fm : Form} (cause : Lane → Option Cause) (upd : Nat → List Lane → State → Lane → State)
    (F : Lane → Strand → Strand) (hF : ∀ l st, (F l st).n = st.n) (h : s.issues fm = true) (hc : ∀ l ∈ s.ready fm, cause l = none)
    (hu : ∀ u l, l ∈ s.ready fm → upd (s.cycle s.curCore) (s.ready fm) u l = u.modStrand l.gid l.tid l.st.n (F l)) :
    ∀ l ∈ s.ready fm, (s.issueWith fm cause fun c lanes s => lanes.foldl (upd c lanes) s).strand? l.gid l.tid l.st.n =
      some (F l (l.stepped (s.cycle s.curCore) fm)) := by
  have hm : ∀ (u : State) (l : Lane), (u.modStrand l.gid l.tid l.st.n (F l)) = u.modThread l.gid l.tid (·.modStrand l.st.n (F l)) :=
    fun _ _ => rfl
  have ht := State.issueWith_threads cause upd (fun l t => t.modStrand l.st.n (F l)) h hc
    (fun u l hl => by rw [hu u l hl, hm, State.thread?_modThread]; simp)
    (fun u l g tid hl hn => by
      rw [hu u l hl, hm, State.thread?_modThread, if_neg]
      rintro ⟨rfl, rfl⟩; exact hn rfl)
  intro l hl
  unfold State.strand?
  rw [ht.1 l hl]
  have := Lane.issuedThread_strand? (State.ready_spec hl).2.2.1 (s.cycle s.curCore) fm
  simp only [Option.bind_some]
  rw [Thread.strand?_modStrand _ _ _ _ (hF l), if_pos rfl, this]
  rfl

/-- What such an instruction leaves alone: everything but its bundle's threads, lane masks, decision queue and pipes, and of each thread
everything but its strand and the coin it spends. -/
theorem State.issueWith_frame {s : State} {fm : Form} (cause : Lane → Option Cause) (upd : Nat → List Lane → State → Lane → State)
    (F : Lane → Strand → Strand) (hF : ∀ l st, (F l st).n = st.n) (h : s.issues fm = true) (hc : ∀ l ∈ s.ready fm, cause l = none)
    (hu : ∀ u l, l ∈ s.ready fm → upd (s.cycle s.curCore) (s.ready fm) u l = u.modStrand l.gid l.tid l.st.n (F l)) :
    let t := s.issueWith fm cause fun c lanes s => lanes.foldl (upd c lanes) s
    s.Issued t fm.use.dq ∧ (∀ g tid, (∀ l ∈ s.ready fm, (l.gid, l.tid) ≠ (g, tid)) → t.thread? g tid = s.thread? g tid) ∧
    ∀ l ∈ s.ready fm, ∃ y, t.thread? l.gid l.tid = some y ∧ y.tid = l.t.tid ∧ y.status = l.t.status ∧ y.exited = l.t.exited ∧
      y.retired = l.t.retired ∧ y.gregs = (match fm.use.read with | some g => l.t.spend g | none => l.t).gregs ∧
      ∀ m, m ≠ l.st.n → y.strand? m = l.t.strand? m := by
  have hm : ∀ (u : State) (l : Lane), (u.modStrand l.gid l.tid l.st.n (F l)) = u.modThread l.gid l.tid (·.modStrand l.st.n (F l)) :=
    fun _ _ => rfl
  have ht := State.issueWith_threads cause upd (fun l t => t.modStrand l.st.n (F l)) h hc
    (fun u l hl => by rw [hu u l hl, hm, State.thread?_modThread]; simp)
    (fun u l g tid hl hn => by
      rw [hu u l hl, hm, State.thread?_modThread, if_neg]
      rintro ⟨rfl, rfl⟩; exact hn rfl)
  obtain ⟨u, hu', hi, -, -⟩ := State.issueWith_ok cause (fun c lanes s => lanes.foldl (upd c lanes) s) h hc
  refine ⟨?_, ht.2, fun l hl => ⟨_, ht.1 l hl, ?_⟩⟩
  · rw [hu']
    refine hi.trans ?_
    have : ∀ (ls : List Lane) (u : State), (∀ l ∈ ls, l ∈ s.ready fm) →
        u.Issued (ls.foldl (upd (s.cycle s.curCore) (s.ready fm)) u) fm.use.dq := by
      intro ls
      induction ls with
      | nil => intro u _; exact .rfl' u _
      | cons a ls ih =>
        intro u hls
        rw [List.foldl_cons, hu u a (hls a (.head _)), hm]
        exact (State.Issued.modThread u _ _ _ _).trans (ih _ fun x hx => hls x (.tail _ hx))
    exact this _ _ fun _ hx => hx
  · have hs : ∀ t : Thread, ∀ m, m ≠ l.st.n → ∀ f : Strand → Strand, (∀ x, (f x).n = x.n) →
        (t.modStrand l.st.n f).strand? m = t.strand? m := fun t m hm f hf => by
      rw [Thread.strand?_modStrand _ _ _ _ hf, if_neg hm]
    have hsp : ∀ g, (l.t.spend g).tid = l.t.tid ∧ (l.t.spend g).status = l.t.status ∧ (l.t.spend g).exited = l.t.exited ∧
        (l.t.spend g).retired = l.t.retired ∧ (l.t.spend g).strands = l.t.strands := fun g => by
      unfold Thread.spend
      dsimp only
      split <;> exact ⟨rfl, rfl, rfl, rfl, rfl⟩
    unfold Lane.issuedThread
    refine ⟨?_, ?_, ?_, ?_, ?_, fun m hm => ?_⟩
    case refine_6 =>
      rw [hs _ m hm _ (hF l)]
      refine (hs _ m hm _ ?_).trans ?_
      · exact fun _ => rfl
      · split
        · unfold Thread.strand?; rw [(hsp _).2.2.2.2]
        · rfl
    all_goals
      try simp only [Thread.modStrand]
      try (split <;> first | rfl | exact (hsp _).1 | exact (hsp _).2.1 | exact (hsp _).2.2.1 | exact (hsp _).2.2.2.1)

/-- An instruction that puts one result in flight for each thread. -/
theorem State.issueWith_pushes {s : State} {fm : Form} (cause : Lane → Option Cause) (P : Nat → List Lane → Lane → Pend)
    (h : s.issues fm = true) (hc : ∀ l ∈ s.ready fm, cause l = none) :
    ∀ l ∈ s.ready fm,
      (s.issueWith fm cause fun c lanes s => lanes.foldl (fun s l => s.pushPend l (P c lanes l)) s).strand? l.gid l.tid l.st.n =
        some { l.stepped (s.cycle s.curCore) fm with pend := l.st.pend ++ [P (s.cycle s.curCore) (s.ready fm) l] } := by
  intro l hl
  exact State.issueWith_strands cause (fun c lanes s l => s.pushPend l (P c lanes l))
    (fun l st => { st with pend := st.pend ++ [P (s.cycle s.curCore) (s.ready fm) l] }) (fun _ _ => rfl) h hc (fun _ _ _ => rfl) l hl

end Sys2Proof.Machine
end

