-- ==== Sys2Proof/Laws/Memory.lean ====
section
/-! SUPPORT. Memory: every write keeps the canonical form, a byte written is read back, and every other byte stays (R203). -/

namespace Sys2Proof.Machine

/-! ## The canonical form -/

theorem Cells.wfAbove_mono {lo : Option Nat} {k : Nat} {m : List Host.Cell} (h : Cells.wfAbove (some k) m = true)
    (hlo : ∀ l, lo = some l → l ≤ k) : Cells.wfAbove lo m = true := by
  cases m with
  | nil => rfl
  | cons x rest =>
    obtain ⟨j, b⟩ := x
    simp only [Cells.wfAbove, Bool.and_eq_true, decide_eq_true_eq] at h ⊢
    refine ⟨⟨?_, h.1.2⟩, h.2⟩
    cases lo with
    | none => rfl
    | some l => have := hlo l rfl; simp; omega

theorem Cells.wfAbove_set {a : Nat} {b : Byte} {m : List Host.Cell} {lo : Option Nat} (h : Cells.wfAbove lo m = true)
    (hlo : ∀ l, lo = some l → l < a) : Cells.wfAbove lo (Cells.set m a b) = true := by
  induction m generalizing lo with
  | nil =>
    by_cases hb : b = Config.emptyByte
    · simp [Cells.set, hb, Cells.wfAbove]
    · cases lo with
      | none => simp [Cells.set, hb, Cells.wfAbove]
      | some l => have := hlo l rfl; simp [Cells.set, hb, Cells.wfAbove, this]
  | cons x rest ih =>
    obtain ⟨k, c⟩ := x
    simp only [Cells.wfAbove, Bool.and_eq_true] at h
    obtain ⟨⟨h1, h2⟩, h3⟩ := h
    have hl : ∀ l, lo = some l → l < k := by
      intro l hl; subst hl; simpa using h1
    simp only [Cells.set]
    split
    · rename_i hak
      split
      · simp [Cells.wfAbove, h1, h2, h3]
      · rename_i hb
        have hlo' := hlo
        clear h1 hl ih hlo
        cases lo with
        | none => simp [Cells.wfAbove, hb, h3, hak]; simpa using h2
        | some l => have := hlo' l rfl; simp [Cells.wfAbove, hb, h3, hak, this]; simpa using h2
    · split
      · rename_i hak hk
        subst hk
        split
        · exact Cells.wfAbove_mono h3 fun l e => Nat.le_of_lt (hl l e)
        · rename_i hb
          simp [Cells.wfAbove, hb, h3, h1]
      · rename_i hak hk
        have := ih h3 (fun l e => by cases e; omega)
        simp [Cells.wfAbove, h1, this]
        simpa using h2

/-- Writing one byte keeps the canonical form. -/
theorem Cells.wf_set {m : List Host.Cell} (h : Cells.wf m = true) (a : Nat) (b : Byte) : Cells.wf (Cells.set m a b) = true :=
  Cells.wfAbove_set h (by simp)

/-- Writing bytes keeps the canonical form. -/
theorem Cells.wf_sets {m : List Host.Cell} (h : Cells.wf m = true) (a : Nat) (bs : List Byte) : Cells.wf (Cells.sets m a bs) = true := by
  induction bs generalizing m a with
  | nil => exact h
  | cons b bs ih => exact ih (Cells.wf_set h a b) (a + 1)

/-- Every write to memory keeps the five memories canonical. -/
theorem Mems.wf_write {m : Mems} (h : m.wf = true) (p : Place) (bs : List Byte) : (m.write p bs).wf = true := by
  simp only [Mems.wf, Bool.and_eq_true] at h ⊢
  obtain ⟨⟨⟨⟨h1, h2⟩, h3⟩, h4⟩, h5⟩ := h
  cases p <;> simp [Mems.write, h1, h2, h3, h4, h5, Cells.wf_sets]

/-- Every write to a scratchpad keeps the five memories canonical. -/
theorem Mems.wf_scratchWrite {m : Mems} (h : m.wf = true) (core off : Nat) (bs : List Byte) :
    (m.scratchWrite core off bs).wf = true := by
  simp only [Mems.wf, Bool.and_eq_true] at h ⊢
  obtain ⟨⟨⟨⟨h1, h2⟩, h3⟩, h4⟩, h5⟩ := h
  simp [Mems.scratchWrite, h1, h2, h3, h4, h5, Cells.wf_sets]

/-! ## Read after write -/

theorem Cells.get_below {m : List Host.Cell} {k a : Nat} (h : Cells.wfAbove (some k) m = true) (ha : a ≤ k) :
    Cells.get m a = Config.emptyByte := by
  cases m with
  | nil => rfl
  | cons x rest =>
    obtain ⟨j, c⟩ := x
    simp only [Cells.wfAbove, Bool.and_eq_true, decide_eq_true_eq] at h
    have hkj : k < j := h.1.1
    have h1 : ¬ a = j := by omega
    have h2 : a < j := by omega
    simp [Cells.get, h1, h2]

theorem Cells.get_set_above {m : List Host.Cell} {lo : Option Nat} (h : Cells.wfAbove lo m = true) (a x : Nat) (b : Byte) :
    Cells.get (Cells.set m a b) x = if x = a then b else Cells.get m x := by
  induction m generalizing lo with
  | nil =>
    by_cases hb : b = Config.emptyByte <;> by_cases hx : x = a <;> simp [Cells.set, Cells.get, hb, hx]
  | cons y rest ih =>
    obtain ⟨k, c⟩ := y
    simp only [Cells.wfAbove, Bool.and_eq_true] at h
    obtain ⟨-, h3⟩ := h
    simp only [Cells.set]
    split
    · rename_i hak
      split
      · rename_i hb
        by_cases hx : x = a
        · subst hx
          have : ¬ x = k := by omega
          simp [Cells.get, this, hak, hb]
        · simp [hx]
      · by_cases hx : x = a
        · subst hx; simp [Cells.get]
        · by_cases hxa : x < a
          · have h1 : ¬ x = k := by omega
            have h2 : x < k := by omega
            simp [Cells.get, hx, hxa, h1, h2]
          · simp [Cells.get, hx, hxa]
    · split
      · rename_i hak hk
        subst hk
        split
        · rename_i hb
          by_cases hx : x = a
          · subst hx; rw [Cells.get_below h3 (Nat.le_refl _)]; simp [hb]
          · by_cases hxa : x < a
            · rw [Cells.get_below h3 (Nat.le_of_lt hxa)]; simp [Cells.get, hx, hxa]
            · simp [Cells.get, hx, hxa]
        · by_cases hx : x = a <;> simp [Cells.get, hx]
      · rename_i hak hk
        have := ih h3
        by_cases hx : x = a
        · subst hx
          have h1 : ¬ x = k := hk
          simp [Cells.get, h1, hak, this]
        · simp only [Cells.get, this]
          by_cases hxk : x = k
          · simp [hxk]; intro e; omega
          · by_cases hxl : x < k <;> simp [hxk, hxl, hx]

/-- A byte written is read back, and every other byte reads as before. -/
theorem Cells.get_set {m : List Host.Cell} (h : Cells.wf m = true) (a x : Nat) (b : Byte) :
    Cells.get (Cells.set m a b) x = if x = a then b else Cells.get m x := Cells.get_set_above h a x b

/-- Bytes outside a write read as before. -/
theorem Cells.get_sets_other {m : List Host.Cell} (h : Cells.wf m = true) (a x : Nat) (bs : List Byte)
    (hx : x < a ∨ a + bs.length ≤ x) : Cells.get (Cells.sets m a bs) x = Cells.get m x := by
  induction bs generalizing m a with
  | nil => rfl
  | cons b bs ih =>
    simp only [List.length_cons] at hx
    have hne : x ≠ a := by omega
    have hx' : x < a + 1 ∨ a + 1 + bs.length ≤ x := by omega
    simp only [Cells.sets]
    rw [ih (Cells.wf_set h a b) (a + 1) hx', Cells.get_set h]
    simp [hne]

/-- Byte `i` of a write is read back. -/
theorem Cells.get_sets {m : List Host.Cell} (h : Cells.wf m = true) (a i : Nat) (bs : List Byte) (hi : i < bs.length) :
    Cells.get (Cells.sets m a bs) (a + i) = bs[i] := by
  induction bs generalizing m a i with
  | nil => simp at hi
  | cons b bs ih =>
    simp only [Cells.sets]
    cases i with
    | zero =>
      rw [Cells.get_sets_other (Cells.wf_set h a b) (a + 1) (a + 0) bs (by omega), Cells.get_set h]
      simp
    | succ i =>
      have hi' : i < bs.length := by simpa using hi
      have e : a + (i + 1) = a + 1 + i := by omega
      rw [e, ih (Cells.wf_set h a b) (a + 1) i hi']
      simp

end Sys2Proof.Machine
end

