-- ==== Sys2Proof/Laws/PerInstr.lean ====
section
/-! SUPPORT. The family "Fields": what each instruction's encoding looks like, one lemma per constructor (05_encoding R97, R101, R110). -/

namespace Sys2Proof.Laws

/-- A form takes one to six parcels (R97, R101). -/
theorem Form.parcels_length (f : Form) : 1 ≤ f.parcels.length ∧ f.parcels.length ≤ 6 := by
  cases f with
  | short sop x w => simp [Form.parcels]
  | e op f =>
    cases f with
    | mk mods g w b dst => cases mods <;> cases b <;> simp [Form.parcels, highFirst, lowFirst]
  | mem op f =>
    cases f with
    | mk addr g w i k d => cases addr <;> simp [Form.parcels, highFirst, lowFirst]
  | atom op aop f =>
    cases f with
    | mk addr g w i d => cases addr <;> simp [Form.parcels, highFirst, lowFirst]
  | plain op g w imm => simp [Form.parcels, highFirst]
  | far op g w o => simp [Form.parcels, highFirst, lowFirst]

/-- What the family says of an instruction: a strand instruction takes one to six parcels, and no instruction is both a strand's and a
teller's. -/
def Fields.Statement (i : Instr) : Prop :=
  (∀ f, i.form = some f → 1 ≤ f.parcels.length ∧ f.parcels.length ≤ 6) ∧ (i.form = none ∨ i.tellerWord = none)

theorem Fields.add (f : EFields) : Fields.Statement (.add f) := ⟨fun x _ => Form.parcels_length x, .inr rfl⟩
theorem Fields.sub (f : EFields) : Fields.Statement (.sub f) := ⟨fun x _ => Form.parcels_length x, .inr rfl⟩
theorem Fields.rsub (f : EFields) : Fields.Statement (.rsub f) := ⟨fun x _ => Form.parcels_length x, .inr rfl⟩
theorem Fields.mul (f : EFields) : Fields.Statement (.mul f) := ⟨fun x _ => Form.parcels_length x, .inr rfl⟩
theorem Fields.mulhs (f : EFields) : Fields.Statement (.mulhs f) := ⟨fun x _ => Form.parcels_length x, .inr rfl⟩
theorem Fields.mulhn (f : EFields) : Fields.Statement (.mulhn f) := ⟨fun x _ => Form.parcels_length x, .inr rfl⟩
theorem Fields.mad (f : EFields) : Fields.Statement (.mad f) := ⟨fun x _ => Form.parcels_length x, .inr rfl⟩
theorem Fields.mins (f : EFields) : Fields.Statement (.mins f) := ⟨fun x _ => Form.parcels_length x, .inr rfl⟩
theorem Fields.maxs (f : EFields) : Fields.Statement (.maxs f) := ⟨fun x _ => Form.parcels_length x, .inr rfl⟩
theorem Fields.minn (f : EFields) : Fields.Statement (.minn f) := ⟨fun x _ => Form.parcels_length x, .inr rfl⟩
theorem Fields.maxn (f : EFields) : Fields.Statement (.maxn f) := ⟨fun x _ => Form.parcels_length x, .inr rfl⟩
theorem Fields.and (f : EFields) : Fields.Statement (.and f) := ⟨fun x _ => Form.parcels_length x, .inr rfl⟩
theorem Fields.or (f : EFields) : Fields.Statement (.or f) := ⟨fun x _ => Form.parcels_length x, .inr rfl⟩
theorem Fields.xor (f : EFields) : Fields.Statement (.xor f) := ⟨fun x _ => Form.parcels_length x, .inr rfl⟩
theorem Fields.andn (f : EFields) : Fields.Statement (.andn f) := ⟨fun x _ => Form.parcels_length x, .inr rfl⟩
theorem Fields.shl (f : EFields) : Fields.Statement (.shl f) := ⟨fun x _ => Form.parcels_length x, .inr rfl⟩
theorem Fields.shrn (f : EFields) : Fields.Statement (.shrn f) := ⟨fun x _ => Form.parcels_length x, .inr rfl⟩
theorem Fields.shrs (f : EFields) : Fields.Statement (.shrs f) := ⟨fun x _ => Form.parcels_length x, .inr rfl⟩
theorem Fields.rol (f : EFields) : Fields.Statement (.rol f) := ⟨fun x _ => Form.parcels_length x, .inr rfl⟩
theorem Fields.popc (f : EFields) : Fields.Statement (.popc f) := ⟨fun x _ => Form.parcels_length x, .inr rfl⟩
theorem Fields.clz (f : EFields) : Fields.Statement (.clz f) := ⟨fun x _ => Form.parcels_length x, .inr rfl⟩
theorem Fields.brev (f : EFields) : Fields.Statement (.brev f) := ⟨fun x _ => Form.parcels_length x, .inr rfl⟩
theorem Fields.bfxs (f : EFields) : Fields.Statement (.bfxs f) := ⟨fun x _ => Form.parcels_length x, .inr rfl⟩
theorem Fields.bfxn (f : EFields) : Fields.Statement (.bfxn f) := ⟨fun x _ => Form.parcels_length x, .inr rfl⟩
theorem Fields.bfi (f : EFields) : Fields.Statement (.bfi f) := ⟨fun x _ => Form.parcels_length x, .inr rfl⟩
theorem Fields.lea (f : EFields) : Fields.Statement (.lea f) := ⟨fun x _ => Form.parcels_length x, .inr rfl⟩
theorem Fields.ceq (f : EFields) : Fields.Statement (.ceq f) := ⟨fun x _ => Form.parcels_length x, .inr rfl⟩
theorem Fields.cne (f : EFields) : Fields.Statement (.cne f) := ⟨fun x _ => Form.parcels_length x, .inr rfl⟩
theorem Fields.clts (f : EFields) : Fields.Statement (.clts f) := ⟨fun x _ => Form.parcels_length x, .inr rfl⟩
theorem Fields.cles (f : EFields) : Fields.Statement (.cles f) := ⟨fun x _ => Form.parcels_length x, .inr rfl⟩
theorem Fields.cltn (f : EFields) : Fields.Statement (.cltn f) := ⟨fun x _ => Form.parcels_length x, .inr rfl⟩
theorem Fields.clen (f : EFields) : Fields.Statement (.clen f) := ⟨fun x _ => Form.parcels_length x, .inr rfl⟩
theorem Fields.fadd (f : EFields) : Fields.Statement (.fadd f) := ⟨fun x _ => Form.parcels_length x, .inr rfl⟩
theorem Fields.fsub (f : EFields) : Fields.Statement (.fsub f) := ⟨fun x _ => Form.parcels_length x, .inr rfl⟩
theorem Fields.fmul (f : EFields) : Fields.Statement (.fmul f) := ⟨fun x _ => Form.parcels_length x, .inr rfl⟩
theorem Fields.ffma (f : EFields) : Fields.Statement (.ffma f) := ⟨fun x _ => Form.parcels_length x, .inr rfl⟩
theorem Fields.ffms (f : EFields) : Fields.Statement (.ffms f) := ⟨fun x _ => Form.parcels_length x, .inr rfl⟩
theorem Fields.fnma (f : EFields) : Fields.Statement (.fnma f) := ⟨fun x _ => Form.parcels_length x, .inr rfl⟩
theorem Fields.fmin (f : EFields) : Fields.Statement (.fmin f) := ⟨fun x _ => Form.parcels_length x, .inr rfl⟩
theorem Fields.fmax (f : EFields) : Fields.Statement (.fmax f) := ⟨fun x _ => Form.parcels_length x, .inr rfl⟩
theorem Fields.fminnm (f : EFields) : Fields.Statement (.fminnm f) := ⟨fun x _ => Form.parcels_length x, .inr rfl⟩
theorem Fields.fmaxnm (f : EFields) : Fields.Statement (.fmaxnm f) := ⟨fun x _ => Form.parcels_length x, .inr rfl⟩
theorem Fields.fceq (f : EFields) : Fields.Statement (.fceq f) := ⟨fun x _ => Form.parcels_length x, .inr rfl⟩
theorem Fields.fclt (f : EFields) : Fields.Statement (.fclt f) := ⟨fun x _ => Form.parcels_length x, .inr rfl⟩
theorem Fields.fcle (f : EFields) : Fields.Statement (.fcle f) := ⟨fun x _ => Form.parcels_length x, .inr rfl⟩
theorem Fields.fcun (f : EFields) : Fields.Statement (.fcun f) := ⟨fun x _ => Form.parcels_length x, .inr rfl⟩
theorem Fields.fsel (f : EFields) : Fields.Statement (.fsel f) := ⟨fun x _ => Form.parcels_length x, .inr rfl⟩
theorem Fields.fcpsgn (f : EFields) : Fields.Statement (.fcpsgn f) := ⟨fun x _ => Form.parcels_length x, .inr rfl⟩
theorem Fields.ffloor (f : EFields) : Fields.Statement (.ffloor f) := ⟨fun x _ => Form.parcels_length x, .inr rfl⟩
theorem Fields.fceil (f : EFields) : Fields.Statement (.fceil f) := ⟨fun x _ => Form.parcels_length x, .inr rfl⟩
theorem Fields.ftrunc (f : EFields) : Fields.Statement (.ftrunc f) := ⟨fun x _ => Form.parcels_length x, .inr rfl⟩
theorem Fields.frnd (f : EFields) : Fields.Statement (.frnd f) := ⟨fun x _ => Form.parcels_length x, .inr rfl⟩
theorem Fields.fsacc (f : EFields) : Fields.Statement (.fsacc f) := ⟨fun x _ => Form.parcels_length x, .inr rfl⟩
theorem Fields.hadd2 (f : EFields) : Fields.Statement (.hadd2 f) := ⟨fun x _ => Form.parcels_length x, .inr rfl⟩
theorem Fields.hmul2 (f : EFields) : Fields.Statement (.hmul2 f) := ⟨fun x _ => Form.parcels_length x, .inr rfl⟩
theorem Fields.hfma2 (f : EFields) : Fields.Statement (.hfma2 f) := ⟨fun x _ => Form.parcels_length x, .inr rfl⟩
theorem Fields.badd2 (f : EFields) : Fields.Statement (.badd2 f) := ⟨fun x _ => Form.parcels_length x, .inr rfl⟩
theorem Fields.bmul2 (f : EFields) : Fields.Statement (.bmul2 f) := ⟨fun x _ => Form.parcels_length x, .inr rfl⟩
theorem Fields.bfma2 (f : EFields) : Fields.Statement (.bfma2 f) := ⟨fun x _ => Form.parcels_length x, .inr rfl⟩
theorem Fields.cvtF32S32 (f : EFields) : Fields.Statement (.cvtF32S32 f) := ⟨fun x _ => Form.parcels_length x, .inr rfl⟩
theorem Fields.cvtF32N32 (f : EFields) : Fields.Statement (.cvtF32N32 f) := ⟨fun x _ => Form.parcels_length x, .inr rfl⟩
theorem Fields.cvtS32F32 (f : EFields) : Fields.Statement (.cvtS32F32 f) := ⟨fun x _ => Form.parcels_length x, .inr rfl⟩
theorem Fields.cvtN32F32 (f : EFields) : Fields.Statement (.cvtN32F32 f) := ⟨fun x _ => Form.parcels_length x, .inr rfl⟩
theorem Fields.cvtF32F16 (f : EFields) : Fields.Statement (.cvtF32F16 f) := ⟨fun x _ => Form.parcels_length x, .inr rfl⟩
theorem Fields.cvtF16F32 (f : EFields) : Fields.Statement (.cvtF16F32 f) := ⟨fun x _ => Form.parcels_length x, .inr rfl⟩
theorem Fields.cvtF32Bf16 (f : EFields) : Fields.Statement (.cvtF32Bf16 f) := ⟨fun x _ => Form.parcels_length x, .inr rfl⟩
theorem Fields.cvtBf16F32 (f : EFields) : Fields.Statement (.cvtBf16F32 f) := ⟨fun x _ => Form.parcels_length x, .inr rfl⟩
theorem Fields.cvtF32E4m3 (f : EFields) : Fields.Statement (.cvtF32E4m3 f) := ⟨fun x _ => Form.parcels_length x, .inr rfl⟩
theorem Fields.cvtE4m3F32 (f : EFields) : Fields.Statement (.cvtE4m3F32 f) := ⟨fun x _ => Form.parcels_length x, .inr rfl⟩
theorem Fields.cvtF32E5m2 (f : EFields) : Fields.Statement (.cvtF32E5m2 f) := ⟨fun x _ => Form.parcels_length x, .inr rfl⟩
theorem Fields.cvtE5m2F32 (f : EFields) : Fields.Statement (.cvtE5m2F32 f) := ⟨fun x _ => Form.parcels_length x, .inr rfl⟩
theorem Fields.cvtF32Nf (f : EFields) : Fields.Statement (.cvtF32Nf f) := ⟨fun x _ => Form.parcels_length x, .inr rfl⟩
theorem Fields.cvtNfF32 (f : EFields) : Fields.Statement (.cvtNfF32 f) := ⟨fun x _ => Form.parcels_length x, .inr rfl⟩
theorem Fields.pack4 (f : EFields) : Fields.Statement (.pack4 f) := ⟨fun x _ => Form.parcels_length x, .inr rfl⟩
theorem Fields.unpk4 (f : EFields) : Fields.Statement (.unpk4 f) := ⟨fun x _ => Form.parcels_length x, .inr rfl⟩
theorem Fields.rcpsd (f : EFields) : Fields.Statement (.rcpsd f) := ⟨fun x _ => Form.parcels_length x, .inr rfl⟩
theorem Fields.rsqsd (f : EFields) : Fields.Statement (.rsqsd f) := ⟨fun x _ => Form.parcels_length x, .inr rfl⟩
theorem Fields.rcp (f : EFields) : Fields.Statement (.rcp f) := ⟨fun x _ => Form.parcels_length x, .inr rfl⟩
theorem Fields.rsq (f : EFields) : Fields.Statement (.rsq f) := ⟨fun x _ => Form.parcels_length x, .inr rfl⟩
theorem Fields.ex2 (f : EFields) : Fields.Statement (.ex2 f) := ⟨fun x _ => Form.parcels_length x, .inr rfl⟩
theorem Fields.lg2 (f : EFields) : Fields.Statement (.lg2 f) := ⟨fun x _ => Form.parcels_length x, .inr rfl⟩
theorem Fields.sinpi (f : EFields) : Fields.Statement (.sinpi f) := ⟨fun x _ => Form.parcels_length x, .inr rfl⟩
theorem Fields.cospi (f : EFields) : Fields.Statement (.cospi f) := ⟨fun x _ => Form.parcels_length x, .inr rfl⟩
theorem Fields.tanh (f : EFields) : Fields.Statement (.tanh f) := ⟨fun x _ => Form.parcels_length x, .inr rfl⟩
theorem Fields.sigm (f : EFields) : Fields.Statement (.sigm f) := ⟨fun x _ => Form.parcels_length x, .inr rfl⟩
theorem Fields.rmax (f : EFields) : Fields.Statement (.rmax f) := ⟨fun x _ => Form.parcels_length x, .inr rfl⟩
theorem Fields.rsum (f : EFields) : Fields.Statement (.rsum f) := ⟨fun x _ => Form.parcels_length x, .inr rfl⟩
theorem Fields.cmax (f : EFields) : Fields.Statement (.cmax f) := ⟨fun x _ => Form.parcels_length x, .inr rfl⟩
theorem Fields.csum (f : EFields) : Fields.Statement (.csum f) := ⟨fun x _ => Form.parcels_length x, .inr rfl⟩
theorem Fields.mskr (f : EFields) : Fields.Statement (.mskr f) := ⟨fun x _ => Form.parcels_length x, .inr rfl⟩
theorem Fields.ex2m (f : EFields) : Fields.Statement (.ex2m f) := ⟨fun x _ => Form.parcels_length x, .inr rfl⟩
theorem Fields.mov (f : EFields) : Fields.Statement (.mov f) := ⟨fun x _ => Form.parcels_length x, .inr rfl⟩
theorem Fields.movw (f : EFields) : Fields.Statement (.movw f) := ⟨fun x _ => Form.parcels_length x, .inr rfl⟩
theorem Fields.put (g : BitVec 6) (w : BitVec 3) (d : BitVec 5) (k : BitVec 3) : Fields.Statement (.put g w d k) := ⟨fun x _ => Form.parcels_length x, .inr rfl⟩
theorem Fields.drop (g : BitVec 6) (w : BitVec 3) : Fields.Statement (.drop g w) := ⟨fun x _ => Form.parcels_length x, .inr rfl⟩
theorem Fields.bcast (f : EFields) : Fields.Statement (.bcast f) := ⟨fun x _ => Form.parcels_length x, .inr rfl⟩
theorem Fields.iota (f : EFields) : Fields.Statement (.iota f) := ⟨fun x _ => Form.parcels_length x, .inr rfl⟩
theorem Fields.clr (f : EFields) : Fields.Statement (.clr f) := ⟨fun x _ => Form.parcels_length x, .inr rfl⟩
theorem Fields.perm (f : EFields) : Fields.Statement (.perm f) := ⟨fun x _ => Form.parcels_length x, .inr rfl⟩
theorem Fields.shfx (f : EFields) : Fields.Statement (.shfx f) := ⟨fun x _ => Form.parcels_length x, .inr rfl⟩
theorem Fields.shup (f : EFields) : Fields.Statement (.shup f) := ⟨fun x _ => Form.parcels_length x, .inr rfl⟩
theorem Fields.shdn (f : EFields) : Fields.Statement (.shdn f) := ⟨fun x _ => Form.parcels_length x, .inr rfl⟩
theorem Fields.voteAny (f : VoteFields) : Fields.Statement (.voteAny f) := ⟨fun x _ => Form.parcels_length x, .inr rfl⟩
theorem Fields.voteAll (f : VoteFields) : Fields.Statement (.voteAll f) := ⟨fun x _ => Form.parcels_length x, .inr rfl⟩
theorem Fields.voteBallot (f : VoteFields) : Fields.Statement (.voteBallot f) := ⟨fun x _ => Form.parcels_length x, .inr rfl⟩
theorem Fields.sread (w : BitVec 3) (d : BitVec 5) (x : BitVec 5) : Fields.Statement (.sread w d x) := ⟨fun x _ => Form.parcels_length x, .inr rfl⟩
theorem Fields.lend (w : BitVec 3) : Fields.Statement (.lend w) := ⟨fun x _ => Form.parcels_length x, .inr rfl⟩
theorem Fields.ldB8s (f : MemFields) : Fields.Statement (.ldB8s f) := ⟨fun x _ => Form.parcels_length x, .inr rfl⟩
theorem Fields.ldB8z (f : MemFields) : Fields.Statement (.ldB8z f) := ⟨fun x _ => Form.parcels_length x, .inr rfl⟩
theorem Fields.ldB16s (f : MemFields) : Fields.Statement (.ldB16s f) := ⟨fun x _ => Form.parcels_length x, .inr rfl⟩
theorem Fields.ldB16z (f : MemFields) : Fields.Statement (.ldB16z f) := ⟨fun x _ => Form.parcels_length x, .inr rfl⟩
theorem Fields.ldB32 (f : MemFields) : Fields.Statement (.ldB32 f) := ⟨fun x _ => Form.parcels_length x, .inr rfl⟩
theorem Fields.ldB64 (f : MemFields) : Fields.Statement (.ldB64 f) := ⟨fun x _ => Form.parcels_length x, .inr rfl⟩
theorem Fields.ldV16 (f : MemFields) : Fields.Statement (.ldV16 f) := ⟨fun x _ => Form.parcels_length x, .inr rfl⟩
theorem Fields.ldV32 (f : MemFields) : Fields.Statement (.ldV32 f) := ⟨fun x _ => Form.parcels_length x, .inr rfl⟩
theorem Fields.ldBf16v (f : MemFields) : Fields.Statement (.ldBf16v f) := ⟨fun x _ => Form.parcels_length x, .inr rfl⟩
theorem Fields.ldNfv (f : MemFields) : Fields.Statement (.ldNfv f) := ⟨fun x _ => Form.parcels_length x, .inr rfl⟩
theorem Fields.pf (f : MemFields) : Fields.Statement (.pf f) := ⟨fun x _ => Form.parcels_length x, .inr rfl⟩
theorem Fields.pfL2 (f : MemFields) : Fields.Statement (.pfL2 f) := ⟨fun x _ => Form.parcels_length x, .inr rfl⟩
theorem Fields.stB8 (f : MemFields) : Fields.Statement (.stB8 f) := ⟨fun x _ => Form.parcels_length x, .inr rfl⟩
theorem Fields.stB16 (f : MemFields) : Fields.Statement (.stB16 f) := ⟨fun x _ => Form.parcels_length x, .inr rfl⟩
theorem Fields.stB32 (f : MemFields) : Fields.Statement (.stB32 f) := ⟨fun x _ => Form.parcels_length x, .inr rfl⟩
theorem Fields.stB64 (f : MemFields) : Fields.Statement (.stB64 f) := ⟨fun x _ => Form.parcels_length x, .inr rfl⟩
theorem Fields.stV16 (f : MemFields) : Fields.Statement (.stV16 f) := ⟨fun x _ => Form.parcels_length x, .inr rfl⟩
theorem Fields.stV32 (f : MemFields) : Fields.Statement (.stV32 f) := ⟨fun x _ => Form.parcels_length x, .inr rfl⟩
theorem Fields.stBf16v (f : MemFields) : Fields.Statement (.stBf16v f) := ⟨fun x _ => Form.parcels_length x, .inr rfl⟩
theorem Fields.stNfv (f : MemFields) : Fields.Statement (.stNfv f) := ⟨fun x _ => Form.parcels_length x, .inr rfl⟩
theorem Fields.atomAdd (f : AtomFields) : Fields.Statement (.atomAdd f) := ⟨fun x _ => Form.parcels_length x, .inr rfl⟩
theorem Fields.atomAnd (f : AtomFields) : Fields.Statement (.atomAnd f) := ⟨fun x _ => Form.parcels_length x, .inr rfl⟩
theorem Fields.atomOr (f : AtomFields) : Fields.Statement (.atomOr f) := ⟨fun x _ => Form.parcels_length x, .inr rfl⟩
theorem Fields.atomXor (f : AtomFields) : Fields.Statement (.atomXor f) := ⟨fun x _ => Form.parcels_length x, .inr rfl⟩
theorem Fields.atomMins (f : AtomFields) : Fields.Statement (.atomMins f) := ⟨fun x _ => Form.parcels_length x, .inr rfl⟩
theorem Fields.atomMaxs (f : AtomFields) : Fields.Statement (.atomMaxs f) := ⟨fun x _ => Form.parcels_length x, .inr rfl⟩
theorem Fields.atomMinn (f : AtomFields) : Fields.Statement (.atomMinn f) := ⟨fun x _ => Form.parcels_length x, .inr rfl⟩
theorem Fields.atomMaxn (f : AtomFields) : Fields.Statement (.atomMaxn f) := ⟨fun x _ => Form.parcels_length x, .inr rfl⟩
theorem Fields.atomXchg (f : AtomFields) : Fields.Statement (.atomXchg f) := ⟨fun x _ => Form.parcels_length x, .inr rfl⟩
theorem Fields.atomfAdd (f : AtomFields) : Fields.Statement (.atomfAdd f) := ⟨fun x _ => Form.parcels_length x, .inr rfl⟩
theorem Fields.atomfMin (f : AtomFields) : Fields.Statement (.atomfMin f) := ⟨fun x _ => Form.parcels_length x, .inr rfl⟩
theorem Fields.atomfMax (f : AtomFields) : Fields.Statement (.atomfMax f) := ⟨fun x _ => Form.parcels_length x, .inr rfl⟩
theorem Fields.cas (f : AtomFields) : Fields.Statement (.cas f) := ⟨fun x _ => Form.parcels_length x, .inr rfl⟩
theorem Fields.cas64 (f : AtomFields) : Fields.Statement (.cas64 f) := ⟨fun x _ => Form.parcels_length x, .inr rfl⟩
theorem Fields.redAdd (f : AtomFields) : Fields.Statement (.redAdd f) := ⟨fun x _ => Form.parcels_length x, .inr rfl⟩
theorem Fields.redAnd (f : AtomFields) : Fields.Statement (.redAnd f) := ⟨fun x _ => Form.parcels_length x, .inr rfl⟩
theorem Fields.redOr (f : AtomFields) : Fields.Statement (.redOr f) := ⟨fun x _ => Form.parcels_length x, .inr rfl⟩
theorem Fields.redXor (f : AtomFields) : Fields.Statement (.redXor f) := ⟨fun x _ => Form.parcels_length x, .inr rfl⟩
theorem Fields.redMins (f : AtomFields) : Fields.Statement (.redMins f) := ⟨fun x _ => Form.parcels_length x, .inr rfl⟩
theorem Fields.redMaxs (f : AtomFields) : Fields.Statement (.redMaxs f) := ⟨fun x _ => Form.parcels_length x, .inr rfl⟩
theorem Fields.redMinn (f : AtomFields) : Fields.Statement (.redMinn f) := ⟨fun x _ => Form.parcels_length x, .inr rfl⟩
theorem Fields.redMaxn (f : AtomFields) : Fields.Statement (.redMaxn f) := ⟨fun x _ => Form.parcels_length x, .inr rfl⟩
theorem Fields.redfAdd (f : AtomFields) : Fields.Statement (.redfAdd f) := ⟨fun x _ => Form.parcels_length x, .inr rfl⟩
theorem Fields.redfMin (f : AtomFields) : Fields.Statement (.redfMin f) := ⟨fun x _ => Form.parcels_length x, .inr rfl⟩
theorem Fields.redfMax (f : AtomFields) : Fields.Statement (.redfMax f) := ⟨fun x _ => Form.parcels_length x, .inr rfl⟩
theorem Fields.redfOrd (f : AtomFields) : Fields.Statement (.redfOrd f) := ⟨fun x _ => Form.parcels_length x, .inr rfl⟩
theorem Fields.fenceGrp (w : BitVec 3) : Fields.Statement (.fenceGrp w) := ⟨fun x _ => Form.parcels_length x, .inr rfl⟩
theorem Fields.fenceDev (w : BitVec 3) : Fields.Statement (.fenceDev w) := ⟨fun x _ => Form.parcels_length x, .inr rfl⟩
theorem Fields.fenceSys (w : BitVec 3) : Fields.Statement (.fenceSys w) := ⟨fun x _ => Form.parcels_length x, .inr rfl⟩
theorem Fields.cwb (f : MemFields) : Fields.Statement (.cwb f) := ⟨fun x _ => Form.parcels_length x, .inr rfl⟩
theorem Fields.bra (w : BitVec 3) (o : BitVec 13) : Fields.Statement (.bra w o) := ⟨fun x _ => Form.parcels_length x, .inr rfl⟩
theorem Fields.braLong (w : BitVec 3) (o : BitVec 32) : Fields.Statement (.braLong w o) := ⟨fun x _ => Form.parcels_length x, .inr rfl⟩
theorem Fields.bz (g : BitVec 6) (w : BitVec 3) (o : BitVec 13) : Fields.Statement (.bz g w o) := ⟨fun x _ => Form.parcels_length x, .inr rfl⟩
theorem Fields.bzLong (g : BitVec 6) (w : BitVec 3) (o : BitVec 32) : Fields.Statement (.bzLong g w o) := ⟨fun x _ => Form.parcels_length x, .inr rfl⟩
theorem Fields.bnz (g : BitVec 6) (w : BitVec 3) (o : BitVec 13) : Fields.Statement (.bnz g w o) := ⟨fun x _ => Form.parcels_length x, .inr rfl⟩
theorem Fields.bnzLong (g : BitVec 6) (w : BitVec 3) (o : BitVec 32) : Fields.Statement (.bnzLong g w o) := ⟨fun x _ => Form.parcels_length x, .inr rfl⟩
theorem Fields.bez (g : BitVec 6) (w : BitVec 3) (o : BitVec 13) : Fields.Statement (.bez g w o) := ⟨fun x _ => Form.parcels_length x, .inr rfl⟩
theorem Fields.bezLong (g : BitVec 6) (w : BitVec 3) (o : BitVec 32) : Fields.Statement (.bezLong g w o) := ⟨fun x _ => Form.parcels_length x, .inr rfl⟩
theorem Fields.benz (g : BitVec 6) (w : BitVec 3) (o : BitVec 13) : Fields.Statement (.benz g w o) := ⟨fun x _ => Form.parcels_length x, .inr rfl⟩
theorem Fields.benzLong (g : BitVec 6) (w : BitVec 3) (o : BitVec 32) : Fields.Statement (.benzLong g w o) := ⟨fun x _ => Form.parcels_length x, .inr rfl⟩
theorem Fields.call (w : BitVec 3) (o : BitVec 13) : Fields.Statement (.call w o) := ⟨fun x _ => Form.parcels_length x, .inr rfl⟩
theorem Fields.callLong (w : BitVec 3) (o : BitVec 32) : Fields.Statement (.callLong w o) := ⟨fun x _ => Form.parcels_length x, .inr rfl⟩
theorem Fields.callx (w : BitVec 3) (d : BitVec 5) : Fields.Statement (.callx w d) := ⟨fun x _ => Form.parcels_length x, .inr rfl⟩
theorem Fields.ret (w : BitVec 3) : Fields.Statement (.ret w) := ⟨fun x _ => Form.parcels_length x, .inr rfl⟩
theorem Fields.blk (w : BitVec 3) : Fields.Statement (.blk w) := ⟨fun x _ => Form.parcels_length x, .inr rfl⟩
theorem Fields.strandEnd (w : BitVec 3) : Fields.Statement (.strandEnd w) := ⟨fun x _ => Form.parcels_length x, .inr rfl⟩
theorem Fields.exit (w : BitVec 3) (d : BitVec 5) : Fields.Statement (.exit w d) := ⟨fun x _ => Form.parcels_length x, .inr rfl⟩
theorem Fields.trap (w : BitVec 3) (c : BitVec 13) : Fields.Statement (.trap w c) := ⟨fun x _ => Form.parcels_length x, .inr rfl⟩
theorem Fields.brk (w : BitVec 3) (c : BitVec 13) : Fields.Statement (.brk w c) := ⟨fun x _ => Form.parcels_length x, .inr rfl⟩
theorem Fields.bara (w : BitVec 3) (b : BitVec 4) (n : BitVec 9) : Fields.Statement (.bara w b n) := ⟨fun x _ => Form.parcels_length x, .inr rfl⟩
theorem Fields.barw (w : BitVec 3) (b : BitVec 4) : Fields.Statement (.barw w b) := ⟨fun x _ => Form.parcels_length x, .inr rfl⟩
theorem Fields.bars (w : BitVec 3) (b : BitVec 4) (n : BitVec 9) : Fields.Statement (.bars w b n) := ⟨fun x _ => Form.parcels_length x, .inr rfl⟩
theorem Fields.barx (w : BitVec 3) (b : BitVec 4) (n : BitVec 9) : Fields.Statement (.barx w b n) := ⟨fun x _ => Form.parcels_length x, .inr rfl⟩
theorem Fields.sexp (g : BitVec 6) (w : BitVec 3) (d : BitVec 5) : Fields.Statement (.sexp g w d) := ⟨fun x _ => Form.parcels_length x, .inr rfl⟩
theorem Fields.sarr (g : BitVec 6) (w : BitVec 3) (d : BitVec 5) : Fields.Statement (.sarr g w d) := ⟨fun x _ => Form.parcels_length x, .inr rfl⟩
theorem Fields.swait (g : BitVec 6) (w : BitVec 3) (d : BitVec 5) : Fields.Statement (.swait g w d) := ⟨fun x _ => Form.parcels_length x, .inr rfl⟩
theorem Fields.swaitGe (g : BitVec 6) (w : BitVec 3) (d : BitVec 5) : Fields.Statement (.swaitGe g w d) := ⟨fun x _ => Form.parcels_length x, .inr rfl⟩
theorem Fields.evpost (w : BitVec 3) (n : BitVec 4) : Fields.Statement (.evpost w n) := ⟨fun x _ => Form.parcels_length x, .inr rfl⟩
theorem Fields.nop (w : BitVec 3) : Fields.Statement (.nop w) := ⟨fun x _ => Form.parcels_length x, .inr rfl⟩
theorem Fields.ifence (w : BitVec 3) : Fields.Statement (.ifence w) := ⟨fun x _ => Form.parcels_length x, .inr rfl⟩
theorem Fields.stflag (w : BitVec 3) (d : BitVec 5) : Fields.Statement (.stflag w d) := ⟨fun x _ => Form.parcels_length x, .inr rfl⟩
theorem Fields.stflagClr (w : BitVec 3) (d : BitVec 5) : Fields.Statement (.stflagClr w d) := ⟨fun x _ => Form.parcels_length x, .inr rfl⟩
theorem Fields.hintYield (w : BitVec 3) (d : BitVec 5) : Fields.Statement (.hintYield w d) := ⟨fun x _ => Form.parcels_length x, .inr rfl⟩
theorem Fields.hintUrgent (w : BitVec 3) (d : BitVec 5) : Fields.Statement (.hintUrgent w d) := ⟨fun x _ => Form.parcels_length x, .inr rfl⟩
theorem Fields.sAddG (g : BitVec 6) (w : BitVec 3) : Fields.Statement (.sAddG g w) := ⟨fun x _ => Form.parcels_length x, .inr rfl⟩
theorem Fields.sSubG (g : BitVec 6) (w : BitVec 3) : Fields.Statement (.sSubG g w) := ⟨fun x _ => Form.parcels_length x, .inr rfl⟩
theorem Fields.sMulG (g : BitVec 6) (w : BitVec 3) : Fields.Statement (.sMulG g w) := ⟨fun x _ => Form.parcels_length x, .inr rfl⟩
theorem Fields.sMadG (g : BitVec 6) (w : BitVec 3) : Fields.Statement (.sMadG g w) := ⟨fun x _ => Form.parcels_length x, .inr rfl⟩
theorem Fields.sAndG (g : BitVec 6) (w : BitVec 3) : Fields.Statement (.sAndG g w) := ⟨fun x _ => Form.parcels_length x, .inr rfl⟩
theorem Fields.sOrG (g : BitVec 6) (w : BitVec 3) : Fields.Statement (.sOrG g w) := ⟨fun x _ => Form.parcels_length x, .inr rfl⟩
theorem Fields.sXorG (g : BitVec 6) (w : BitVec 3) : Fields.Statement (.sXorG g w) := ⟨fun x _ => Form.parcels_length x, .inr rfl⟩
theorem Fields.sShlG (g : BitVec 6) (w : BitVec 3) : Fields.Statement (.sShlG g w) := ⟨fun x _ => Form.parcels_length x, .inr rfl⟩
theorem Fields.sShrnG (g : BitVec 6) (w : BitVec 3) : Fields.Statement (.sShrnG g w) := ⟨fun x _ => Form.parcels_length x, .inr rfl⟩
theorem Fields.sShrsG (g : BitVec 6) (w : BitVec 3) : Fields.Statement (.sShrsG g w) := ⟨fun x _ => Form.parcels_length x, .inr rfl⟩
theorem Fields.sMinsG (g : BitVec 6) (w : BitVec 3) : Fields.Statement (.sMinsG g w) := ⟨fun x _ => Form.parcels_length x, .inr rfl⟩
theorem Fields.sMaxsG (g : BitVec 6) (w : BitVec 3) : Fields.Statement (.sMaxsG g w) := ⟨fun x _ => Form.parcels_length x, .inr rfl⟩
theorem Fields.sCeqG (g : BitVec 6) (w : BitVec 3) : Fields.Statement (.sCeqG g w) := ⟨fun x _ => Form.parcels_length x, .inr rfl⟩
theorem Fields.sCltsG (g : BitVec 6) (w : BitVec 3) : Fields.Statement (.sCltsG g w) := ⟨fun x _ => Form.parcels_length x, .inr rfl⟩
theorem Fields.sCltnG (g : BitVec 6) (w : BitVec 3) : Fields.Statement (.sCltnG g w) := ⟨fun x _ => Form.parcels_length x, .inr rfl⟩
theorem Fields.sLeaG (g : BitVec 6) (w : BitVec 3) : Fields.Statement (.sLeaG g w) := ⟨fun x _ => Form.parcels_length x, .inr rfl⟩
theorem Fields.sAddImm (i : BitVec 6) (w : BitVec 3) : Fields.Statement (.sAddImm i w) := ⟨fun x _ => Form.parcels_length x, .inr rfl⟩
theorem Fields.sAndImm (i : BitVec 6) (w : BitVec 3) : Fields.Statement (.sAndImm i w) := ⟨fun x _ => Form.parcels_length x, .inr rfl⟩
theorem Fields.sShlImm (i : BitVec 6) (w : BitVec 3) : Fields.Statement (.sShlImm i w) := ⟨fun x _ => Form.parcels_length x, .inr rfl⟩
theorem Fields.sShrnImm (i : BitVec 6) (w : BitVec 3) : Fields.Statement (.sShrnImm i w) := ⟨fun x _ => Form.parcels_length x, .inr rfl⟩
theorem Fields.sShrsImm (i : BitVec 6) (w : BitVec 3) : Fields.Statement (.sShrsImm i w) := ⟨fun x _ => Form.parcels_length x, .inr rfl⟩
theorem Fields.sCeqImm (i : BitVec 6) (w : BitVec 3) : Fields.Statement (.sCeqImm i w) := ⟨fun x _ => Form.parcels_length x, .inr rfl⟩
theorem Fields.sCltsImm (i : BitVec 6) (w : BitVec 3) : Fields.Statement (.sCltsImm i w) := ⟨fun x _ => Form.parcels_length x, .inr rfl⟩
theorem Fields.sMovImm (i : BitVec 6) (w : BitVec 3) : Fields.Statement (.sMovImm i w) := ⟨fun x _ => Form.parcels_length x, .inr rfl⟩
theorem Fields.sFaddG (g : BitVec 6) (w : BitVec 3) : Fields.Statement (.sFaddG g w) := ⟨fun x _ => Form.parcels_length x, .inr rfl⟩
theorem Fields.sFsubG (g : BitVec 6) (w : BitVec 3) : Fields.Statement (.sFsubG g w) := ⟨fun x _ => Form.parcels_length x, .inr rfl⟩
theorem Fields.sFmulG (g : BitVec 6) (w : BitVec 3) : Fields.Statement (.sFmulG g w) := ⟨fun x _ => Form.parcels_length x, .inr rfl⟩
theorem Fields.sFfmaG (g : BitVec 6) (w : BitVec 3) : Fields.Statement (.sFfmaG g w) := ⟨fun x _ => Form.parcels_length x, .inr rfl⟩
theorem Fields.sFfmsG (g : BitVec 6) (w : BitVec 3) : Fields.Statement (.sFfmsG g w) := ⟨fun x _ => Form.parcels_length x, .inr rfl⟩
theorem Fields.sFminG (g : BitVec 6) (w : BitVec 3) : Fields.Statement (.sFminG g w) := ⟨fun x _ => Form.parcels_length x, .inr rfl⟩
theorem Fields.sFmaxG (g : BitVec 6) (w : BitVec 3) : Fields.Statement (.sFmaxG g w) := ⟨fun x _ => Form.parcels_length x, .inr rfl⟩
theorem Fields.sFcltG (g : BitVec 6) (w : BitVec 3) : Fields.Statement (.sFcltG g w) := ⟨fun x _ => Form.parcels_length x, .inr rfl⟩
theorem Fields.sFcleG (g : BitVec 6) (w : BitVec 3) : Fields.Statement (.sFcleG g w) := ⟨fun x _ => Form.parcels_length x, .inr rfl⟩
theorem Fields.sFsaccG (g : BitVec 6) (w : BitVec 3) : Fields.Statement (.sFsaccG g w) := ⟨fun x _ => Form.parcels_length x, .inr rfl⟩
theorem Fields.sMovG (g : BitVec 6) (w : BitVec 3) : Fields.Statement (.sMovG g w) := ⟨fun x _ => Form.parcels_length x, .inr rfl⟩
theorem Fields.sPut1 (g : BitVec 6) (w : BitVec 3) : Fields.Statement (.sPut1 g w) := ⟨fun x _ => Form.parcels_length x, .inr rfl⟩
theorem Fields.sPutSticky (g : BitVec 6) (w : BitVec 3) : Fields.Statement (.sPutSticky g w) := ⟨fun x _ => Form.parcels_length x, .inr rfl⟩
theorem Fields.sLdB32 (g : BitVec 6) (w : BitVec 3) : Fields.Statement (.sLdB32 g w) := ⟨fun x _ => Form.parcels_length x, .inr rfl⟩
theorem Fields.sStB32 (g : BitVec 6) (w : BitVec 3) : Fields.Statement (.sStB32 g w) := ⟨fun x _ => Form.parcels_length x, .inr rfl⟩
theorem Fields.sLdV16 (g : BitVec 6) (w : BitVec 3) : Fields.Statement (.sLdV16 g w) := ⟨fun x _ => Form.parcels_length x, .inr rfl⟩
theorem Fields.sStV16 (g : BitVec 6) (w : BitVec 3) : Fields.Statement (.sStV16 g w) := ⟨fun x _ => Form.parcels_length x, .inr rfl⟩
theorem Fields.sLdB64 (g : BitVec 6) (w : BitVec 3) : Fields.Statement (.sLdB64 g w) := ⟨fun x _ => Form.parcels_length x, .inr rfl⟩
theorem Fields.sStB64 (g : BitVec 6) (w : BitVec 3) : Fields.Statement (.sStB64 g w) := ⟨fun x _ => Form.parcels_length x, .inr rfl⟩
theorem Fields.sBra (o : BitVec 6) (w : BitVec 3) : Fields.Statement (.sBra o w) := ⟨fun x _ => Form.parcels_length x, .inr rfl⟩
theorem Fields.sBez (o : BitVec 6) (w : BitVec 3) : Fields.Statement (.sBez o w) := ⟨fun x _ => Form.parcels_length x, .inr rfl⟩
theorem Fields.sBenz (o : BitVec 6) (w : BitVec 3) : Fields.Statement (.sBenz o w) := ⟨fun x _ => Form.parcels_length x, .inr rfl⟩
theorem Fields.sBlk (w : BitVec 3) : Fields.Statement (.sBlk w) := ⟨fun x _ => Form.parcels_length x, .inr rfl⟩
theorem Fields.sEnd (w : BitVec 3) : Fields.Statement (.sEnd w) := ⟨fun x _ => Form.parcels_length x, .inr rfl⟩
theorem Fields.sNop (w : BitVec 3) : Fields.Statement (.sNop w) := ⟨fun x _ => Form.parcels_length x, .inr rfl⟩
theorem Fields.sCvtF32S32 (g : BitVec 6) (w : BitVec 3) : Fields.Statement (.sCvtF32S32 g w) := ⟨fun x _ => Form.parcels_length x, .inr rfl⟩
theorem Fields.sCvtS32F32 (g : BitVec 6) (w : BitVec 3) : Fields.Statement (.sCvtS32F32 g w) := ⟨fun x _ => Form.parcels_length x, .inr rfl⟩
theorem Fields.sRsqsdG (g : BitVec 6) (w : BitVec 3) : Fields.Statement (.sRsqsdG g w) := ⟨fun x _ => Form.parcels_length x, .inr rfl⟩
theorem Fields.sRcpsdG (g : BitVec 6) (w : BitVec 3) : Fields.Statement (.sRcpsdG g w) := ⟨fun x _ => Form.parcels_length x, .inr rfl⟩
theorem Fields.sEx2G (g : BitVec 6) (w : BitVec 3) : Fields.Statement (.sEx2G g w) := ⟨fun x _ => Form.parcels_length x, .inr rfl⟩
theorem Fields.sDrop (g : BitVec 6) (w : BitVec 3) : Fields.Statement (.sDrop g w) := ⟨fun x _ => Form.parcels_length x, .inr rfl⟩
theorem Fields.sRet (w : BitVec 3) : Fields.Statement (.sRet w) := ⟨fun x _ => Form.parcels_length x, .inr rfl⟩
theorem Fields.talAdd (d : BitVec 6) (a : BitVec 6) (b : BitVec 6) : Fields.Statement (.talAdd d a b) := ⟨fun x _ => Form.parcels_length x, .inl rfl⟩
theorem Fields.talSub (d : BitVec 6) (a : BitVec 6) (b : BitVec 6) : Fields.Statement (.talSub d a b) := ⟨fun x _ => Form.parcels_length x, .inl rfl⟩
theorem Fields.talMul (d : BitVec 6) (a : BitVec 6) (b : BitVec 6) : Fields.Statement (.talMul d a b) := ⟨fun x _ => Form.parcels_length x, .inl rfl⟩
theorem Fields.talMulhs (d : BitVec 6) (a : BitVec 6) (b : BitVec 6) : Fields.Statement (.talMulhs d a b) := ⟨fun x _ => Form.parcels_length x, .inl rfl⟩
theorem Fields.talAnd (d : BitVec 6) (a : BitVec 6) (b : BitVec 6) : Fields.Statement (.talAnd d a b) := ⟨fun x _ => Form.parcels_length x, .inl rfl⟩
theorem Fields.talOr (d : BitVec 6) (a : BitVec 6) (b : BitVec 6) : Fields.Statement (.talOr d a b) := ⟨fun x _ => Form.parcels_length x, .inl rfl⟩
theorem Fields.talXor (d : BitVec 6) (a : BitVec 6) (b : BitVec 6) : Fields.Statement (.talXor d a b) := ⟨fun x _ => Form.parcels_length x, .inl rfl⟩
theorem Fields.talShl (d : BitVec 6) (a : BitVec 6) (b : BitVec 6) : Fields.Statement (.talShl d a b) := ⟨fun x _ => Form.parcels_length x, .inl rfl⟩
theorem Fields.talShrn (d : BitVec 6) (a : BitVec 6) (b : BitVec 6) : Fields.Statement (.talShrn d a b) := ⟨fun x _ => Form.parcels_length x, .inl rfl⟩
theorem Fields.talShrs (d : BitVec 6) (a : BitVec 6) (b : BitVec 6) : Fields.Statement (.talShrs d a b) := ⟨fun x _ => Form.parcels_length x, .inl rfl⟩
theorem Fields.talMins (d : BitVec 6) (a : BitVec 6) (b : BitVec 6) : Fields.Statement (.talMins d a b) := ⟨fun x _ => Form.parcels_length x, .inl rfl⟩
theorem Fields.talMaxs (d : BitVec 6) (a : BitVec 6) (b : BitVec 6) : Fields.Statement (.talMaxs d a b) := ⟨fun x _ => Form.parcels_length x, .inl rfl⟩
theorem Fields.talMinn (d : BitVec 6) (a : BitVec 6) (b : BitVec 6) : Fields.Statement (.talMinn d a b) := ⟨fun x _ => Form.parcels_length x, .inl rfl⟩
theorem Fields.talMaxn (d : BitVec 6) (a : BitVec 6) (b : BitVec 6) : Fields.Statement (.talMaxn d a b) := ⟨fun x _ => Form.parcels_length x, .inl rfl⟩
theorem Fields.talSlt (d : BitVec 6) (a : BitVec 6) (b : BitVec 6) : Fields.Statement (.talSlt d a b) := ⟨fun x _ => Form.parcels_length x, .inl rfl⟩
theorem Fields.talSltn (d : BitVec 6) (a : BitVec 6) (b : BitVec 6) : Fields.Statement (.talSltn d a b) := ⟨fun x _ => Form.parcels_length x, .inl rfl⟩
theorem Fields.taddi (d : BitVec 6) (a : BitVec 6) (i : BitVec 12) : Fields.Statement (.taddi d a i) := ⟨fun x _ => Form.parcels_length x, .inl rfl⟩
theorem Fields.tandi (d : BitVec 6) (a : BitVec 6) (i : BitVec 12) : Fields.Statement (.tandi d a i) := ⟨fun x _ => Form.parcels_length x, .inl rfl⟩
theorem Fields.tori (d : BitVec 6) (a : BitVec 6) (i : BitVec 12) : Fields.Statement (.tori d a i) := ⟨fun x _ => Form.parcels_length x, .inl rfl⟩
theorem Fields.txori (d : BitVec 6) (a : BitVec 6) (i : BitVec 12) : Fields.Statement (.txori d a i) := ⟨fun x _ => Form.parcels_length x, .inl rfl⟩
theorem Fields.tshli (d : BitVec 6) (a : BitVec 6) (i : BitVec 5) : Fields.Statement (.tshli d a i) := ⟨fun x _ => Form.parcels_length x, .inl rfl⟩
theorem Fields.tshri (d : BitVec 6) (a : BitVec 6) (i : BitVec 5) : Fields.Statement (.tshri d a i) := ⟨fun x _ => Form.parcels_length x, .inl rfl⟩
theorem Fields.tslti (d : BitVec 6) (a : BitVec 6) (i : BitVec 12) : Fields.Statement (.tslti d a i) := ⟨fun x _ => Form.parcels_length x, .inl rfl⟩
theorem Fields.tlui (d : BitVec 6) (i : BitVec 18) : Fields.Statement (.tlui d i) := ⟨fun x _ => Form.parcels_length x, .inl rfl⟩
theorem Fields.tld (d : BitVec 6) (a : BitVec 6) (b : BitVec 6) : Fields.Statement (.tld d a b) := ⟨fun x _ => Form.parcels_length x, .inl rfl⟩
theorem Fields.tldD (d : BitVec 6) (a : BitVec 6) (b : BitVec 6) : Fields.Statement (.tldD d a b) := ⟨fun x _ => Form.parcels_length x, .inl rfl⟩
theorem Fields.tst (d : BitVec 6) (a : BitVec 6) (b : BitVec 6) : Fields.Statement (.tst d a b) := ⟨fun x _ => Form.parcels_length x, .inl rfl⟩
theorem Fields.tstD (d : BitVec 6) (a : BitVec 6) (b : BitVec 6) : Fields.Statement (.tstD d a b) := ⟨fun x _ => Form.parcels_length x, .inl rfl⟩
theorem Fields.tatomAdd (d : BitVec 6) (a : BitVec 6) (b : BitVec 6) : Fields.Statement (.tatomAdd d a b) := ⟨fun x _ => Form.parcels_length x, .inl rfl⟩
theorem Fields.tatomAnd (d : BitVec 6) (a : BitVec 6) (b : BitVec 6) : Fields.Statement (.tatomAnd d a b) := ⟨fun x _ => Form.parcels_length x, .inl rfl⟩
theorem Fields.tatomOr (d : BitVec 6) (a : BitVec 6) (b : BitVec 6) : Fields.Statement (.tatomOr d a b) := ⟨fun x _ => Form.parcels_length x, .inl rfl⟩
theorem Fields.tatomXor (d : BitVec 6) (a : BitVec 6) (b : BitVec 6) : Fields.Statement (.tatomXor d a b) := ⟨fun x _ => Form.parcels_length x, .inl rfl⟩
theorem Fields.tatomMins (d : BitVec 6) (a : BitVec 6) (b : BitVec 6) : Fields.Statement (.tatomMins d a b) := ⟨fun x _ => Form.parcels_length x, .inl rfl⟩
theorem Fields.tatomMaxs (d : BitVec 6) (a : BitVec 6) (b : BitVec 6) : Fields.Statement (.tatomMaxs d a b) := ⟨fun x _ => Form.parcels_length x, .inl rfl⟩
theorem Fields.tatomMinn (d : BitVec 6) (a : BitVec 6) (b : BitVec 6) : Fields.Statement (.tatomMinn d a b) := ⟨fun x _ => Form.parcels_length x, .inl rfl⟩
theorem Fields.tatomMaxn (d : BitVec 6) (a : BitVec 6) (b : BitVec 6) : Fields.Statement (.tatomMaxn d a b) := ⟨fun x _ => Form.parcels_length x, .inl rfl⟩
theorem Fields.tatomXchg (d : BitVec 6) (a : BitVec 6) (b : BitVec 6) : Fields.Statement (.tatomXchg d a b) := ⟨fun x _ => Form.parcels_length x, .inl rfl⟩
theorem Fields.tatomCas (d : BitVec 6) (a : BitVec 6) (b : BitVec 6) : Fields.Statement (.tatomCas d a b) := ⟨fun x _ => Form.parcels_length x, .inl rfl⟩
theorem Fields.tbeq (a : BitVec 6) (b : BitVec 6) (o : BitVec 12) : Fields.Statement (.tbeq a b o) := ⟨fun x _ => Form.parcels_length x, .inl rfl⟩
theorem Fields.tbne (a : BitVec 6) (b : BitVec 6) (o : BitVec 12) : Fields.Statement (.tbne a b o) := ⟨fun x _ => Form.parcels_length x, .inl rfl⟩
theorem Fields.tblt (a : BitVec 6) (b : BitVec 6) (o : BitVec 12) : Fields.Statement (.tblt a b o) := ⟨fun x _ => Form.parcels_length x, .inl rfl⟩
theorem Fields.tbge (a : BitVec 6) (b : BitVec 6) (o : BitVec 12) : Fields.Statement (.tbge a b o) := ⟨fun x _ => Form.parcels_length x, .inl rfl⟩
theorem Fields.tjmp (o : BitVec 18) : Fields.Statement (.tjmp o) := ⟨fun x _ => Form.parcels_length x, .inl rfl⟩
theorem Fields.tcall (o : BitVec 18) : Fields.Statement (.tcall o) := ⟨fun x _ => Form.parcels_length x, .inl rfl⟩
theorem Fields.tret : Fields.Statement (.tret) := ⟨fun x _ => Form.parcels_length x, .inl rfl⟩
theorem Fields.push (d : BitVec 6) (a : BitVec 6) : Fields.Statement (.push d a) := ⟨fun x _ => Form.parcels_length x, .inl rfl⟩
theorem Fields.tqwait (i : BitVec 12) : Fields.Statement (.tqwait i) := ⟨fun x _ => Form.parcels_length x, .inl rfl⟩
theorem Fields.dqput (a : BitVec 6) (b : BitVec 6) : Fields.Statement (.dqput a b) := ⟨fun x _ => Form.parcels_length x, .inl rfl⟩
theorem Fields.evwait (d : BitVec 6) (a : BitVec 6) : Fields.Statement (.evwait d a) := ⟨fun x _ => Form.parcels_length x, .inl rfl⟩
theorem Fields.evwaitClr (d : BitVec 6) (a : BitVec 6) : Fields.Statement (.evwaitClr d a) := ⟨fun x _ => Form.parcels_length x, .inl rfl⟩
theorem Fields.evroute (a : BitVec 6) (b : BitVec 6) : Fields.Statement (.evroute a b) := ⟨fun x _ => Form.parcels_length x, .inl rfl⟩
theorem Fields.tswait (d : BitVec 6) (a : BitVec 6) (b : BitVec 6) : Fields.Statement (.tswait d a b) := ⟨fun x _ => Form.parcels_length x, .inl rfl⟩
theorem Fields.tsexp (a : BitVec 6) (b : BitVec 6) : Fields.Statement (.tsexp a b) := ⟨fun x _ => Form.parcels_length x, .inl rfl⟩
theorem Fields.frz (d : BitVec 6) (a : BitVec 6) (b : BitVec 6) : Fields.Statement (.frz d a b) := ⟨fun x _ => Form.parcels_length x, .inl rfl⟩
theorem Fields.thaw (a : BitVec 6) : Fields.Statement (.thaw a) := ⟨fun x _ => Form.parcels_length x, .inl rfl⟩
theorem Fields.thwait (a : BitVec 6) : Fields.Statement (.thwait a) := ⟨fun x _ => Form.parcels_length x, .inl rfl⟩
theorem Fields.publ (a : BitVec 6) : Fields.Statement (.publ a) := ⟨fun x _ => Form.parcels_length x, .inl rfl⟩
theorem Fields.setfmt (a : BitVec 6) (k : BitVec 3) : Fields.Statement (.setfmt a k) := ⟨fun x _ => Form.parcels_length x, .inl rfl⟩
theorem Fields.setxv (a : BitVec 6) (k : BitVec 3) : Fields.Statement (.setxv a k) := ⟨fun x _ => Form.parcels_length x, .inl rfl⟩
theorem Fields.ratio (d : BitVec 6) : Fields.Statement (.ratio d) := ⟨fun x _ => Form.parcels_length x, .inl rfl⟩
theorem Fields.rreq (a : BitVec 6) : Fields.Statement (.rreq a) := ⟨fun x _ => Form.parcels_length x, .inl rfl⟩
theorem Fields.tbarArv (a : BitVec 6) (b : BitVec 4) : Fields.Statement (.tbarArv a b) := ⟨fun x _ => Form.parcels_length x, .inl rfl⟩
theorem Fields.tbarSync (a : BitVec 6) (b : BitVec 4) : Fields.Statement (.tbarSync a b) := ⟨fun x _ => Form.parcels_length x, .inl rfl⟩
theorem Fields.tread (d : BitVec 6) (n : BitVec 18) : Fields.Statement (.tread d n) := ⟨fun x _ => Form.parcels_length x, .inl rfl⟩
theorem Fields.gdone : Fields.Statement (.gdone) := ⟨fun x _ => Form.parcels_length x, .inl rfl⟩
theorem Fields.ttrap (c : BitVec 13) : Fields.Statement (.ttrap c) := ⟨fun x _ => Form.parcels_length x, .inl rfl⟩
theorem Fields.tfenceGrp : Fields.Statement (.tfenceGrp) := ⟨fun x _ => Form.parcels_length x, .inl rfl⟩
theorem Fields.tfenceDev : Fields.Statement (.tfenceDev) := ⟨fun x _ => Form.parcels_length x, .inl rfl⟩
theorem Fields.tfenceSys : Fields.Statement (.tfenceSys) := ⟨fun x _ => Form.parcels_length x, .inl rfl⟩
theorem Fields.sfmode (m : BitVec 1) : Fields.Statement (.sfmode m) := ⟨fun x _ => Form.parcels_length x, .inl rfl⟩
theorem Fields.tnop : Fields.Statement (.tnop) := ⟨fun x _ => Form.parcels_length x, .inl rfl⟩
theorem Fields.copy (cmd : Nat) : Fields.Statement (.copy cmd) := ⟨fun x _ => Form.parcels_length x, .inl rfl⟩
theorem Fields.gather (cmd : Nat) : Fields.Statement (.gather cmd) := ⟨fun x _ => Form.parcels_length x, .inl rfl⟩
theorem Fields.matrix (cmd : Nat) : Fields.Statement (.matrix cmd) := ⟨fun x _ => Form.parcels_length x, .inl rfl⟩
theorem Fields.table (cmd : Nat) : Fields.Statement (.table cmd) := ⟨fun x _ => Form.parcels_length x, .inl rfl⟩
theorem Fields.shadow (cmd : Nat) : Fields.Statement (.shadow cmd) := ⟨fun x _ => Form.parcels_length x, .inl rfl⟩
theorem Fields.collectReduce (cmd : Nat) : Fields.Statement (.collectReduce cmd) := ⟨fun x _ => Form.parcels_length x, .inl rfl⟩
theorem Fields.collectBroadcast (cmd : Nat) : Fields.Statement (.collectBroadcast cmd) := ⟨fun x _ => Form.parcels_length x, .inl rfl⟩
theorem Fields.collectAllGather (cmd : Nat) : Fields.Statement (.collectAllGather cmd) := ⟨fun x _ => Form.parcels_length x, .inl rfl⟩
theorem Fields.collectReduceScatter (cmd : Nat) : Fields.Statement (.collectReduceScatter cmd) := ⟨fun x _ => Form.parcels_length x, .inl rfl⟩
theorem Fields.copyRunPerformed (cmd : Nat) : Fields.Statement (.copyRunPerformed cmd) := ⟨fun x _ => Form.parcels_length x, .inl rfl⟩
theorem Fields.matrixStep (cmd : Nat) : Fields.Statement (.matrixStep cmd) := ⟨fun x _ => Form.parcels_length x, .inl rfl⟩
theorem Fields.commandComplete (cmd : Nat) : Fields.Statement (.commandComplete cmd) := ⟨fun x _ => Form.parcels_length x, .inl rfl⟩
theorem Fields.commandResume (cmd : Nat) : Fields.Statement (.commandResume cmd) := ⟨fun x _ => Form.parcels_length x, .inl rfl⟩
theorem Fields.eventFire (core out : Nat) : Fields.Statement (.eventFire core out) := ⟨fun x _ => Form.parcels_length x, .inl rfl⟩
theorem Fields.tellerWake (gid : GroupId) : Fields.Statement (.tellerWake gid) := ⟨fun x _ => Form.parcels_length x, .inl rfl⟩
theorem Fields.formBundle (core : Nat) : Fields.Statement (.formBundle core) := ⟨fun x _ => Form.parcels_length x, .inl rfl⟩
theorem Fields.promote (gid : GroupId) (tid n : Nat) : Fields.Statement (.promote gid tid n) := ⟨fun x _ => Form.parcels_length x, .inl rfl⟩
theorem Fields.hintExpire (gid : GroupId) (tid n : Nat) : Fields.Statement (.hintExpire gid tid n) := ⟨fun x _ => Form.parcels_length x, .inl rfl⟩
theorem Fields.registerPresent (gid : GroupId) (tid g : Nat) : Fields.Statement (.registerPresent gid tid g) := ⟨fun x _ => Form.parcels_length x, .inl rfl⟩
theorem Fields.resultLands (gid : GroupId) (tid n : Nat) : Fields.Statement (.resultLands gid tid n) := ⟨fun x _ => Form.parcels_length x, .inl rfl⟩
theorem Fields.loadReturn (bundle : Nat) : Fields.Statement (.loadReturn bundle) := ⟨fun x _ => Form.parcels_length x, .inl rfl⟩
theorem Fields.accessPerformed (acc : Nat) (scope : Scope) : Fields.Statement (.accessPerformed acc scope) := ⟨fun x _ => Form.parcels_length x, .inl rfl⟩
theorem Fields.coinDeadlock (gid : GroupId) : Fields.Statement (.coinDeadlock gid) := ⟨fun x _ => Form.parcels_length x, .inl rfl⟩
theorem Fields.threadRetire (gid : GroupId) (tid : Nat) : Fields.Statement (.threadRetire gid tid) := ⟨fun x _ => Form.parcels_length x, .inl rfl⟩
theorem Fields.groupComplete (gid : GroupId) : Fields.Statement (.groupComplete gid) := ⟨fun x _ => Form.parcels_length x, .inl rfl⟩
theorem Fields.codeLineFill (core ctx line : Nat) : Fields.Statement (.codeLineFill core ctx line) := ⟨fun x _ => Form.parcels_length x, .inl rfl⟩
theorem Fields.l1ReadMiss (acc : Nat) : Fields.Statement (.l1ReadMiss acc) := ⟨fun x _ => Form.parcels_length x, .inl rfl⟩
theorem Fields.l1WriteMiss (acc : Nat) : Fields.Statement (.l1WriteMiss acc) := ⟨fun x _ => Form.parcels_length x, .inl rfl⟩
theorem Fields.homeAtomic (acc : Nat) : Fields.Statement (.homeAtomic acc) := ⟨fun x _ => Form.parcels_length x, .inl rfl⟩
theorem Fields.l1Eviction (core : Nat) (key : LineKey) : Fields.Statement (.l1Eviction core key) := ⟨fun x _ => Form.parcels_length x, .inl rfl⟩
theorem Fields.l2Eviction (key : LineKey) : Fields.Statement (.l2Eviction key) := ⟨fun x _ => Form.parcels_length x, .inl rfl⟩
theorem Fields.engineRead (cmd : Nat) : Fields.Statement (.engineRead cmd) := ⟨fun x _ => Form.parcels_length x, .inl rfl⟩
theorem Fields.engineWrite (cmd : Nat) : Fields.Statement (.engineWrite cmd) := ⟨fun x _ => Form.parcels_length x, .inl rfl⟩
theorem Fields.l2MissTranslate (acc : Nat) : Fields.Statement (.l2MissTranslate acc) := ⟨fun x _ => Form.parcels_length x, .inl rfl⟩
theorem Fields.pageWalkDone (acc : Nat) : Fields.Statement (.pageWalkDone acc) := ⟨fun x _ => Form.parcels_length x, .inl rfl⟩
theorem Fields.remoteRequest (r : RemoteReq) : Fields.Statement (.remoteRequest r) := ⟨fun x _ => Form.parcels_length x, .inl rfl⟩
theorem Fields.nimbusFlit (f : Flit) : Fields.Statement (.nimbusFlit f) := ⟨fun x _ => Form.parcels_length x, .inl rfl⟩
theorem Fields.refreshSlot : Fields.Statement (.refreshSlot) := ⟨fun x _ => Form.parcels_length x, .inl rfl⟩
theorem Fields.migrationStart (ctx : Nat) (va : BitVec 64) : Fields.Statement (.migrationStart ctx va) := ⟨fun x _ => Form.parcels_length x, .inl rfl⟩
theorem Fields.migrationSwitch : Fields.Statement (.migrationSwitch) := ⟨fun x _ => Form.parcels_length x, .inl rfl⟩
theorem Fields.switchOut (col : ColId) : Fields.Statement (.switchOut col) := ⟨fun x _ => Form.parcels_length x, .inl rfl⟩
theorem Fields.stopColumn (col : ColId) (reason : StopReason) : Fields.Statement (.stopColumn col reason) := ⟨fun x _ => Form.parcels_length x, .inl rfl⟩
theorem Fields.saveRecordWrite (col : ColId) : Fields.Statement (.saveRecordWrite col) := ⟨fun x _ => Form.parcels_length x, .inl rfl⟩
theorem Fields.lateFault (acc : Nat) : Fields.Statement (.lateFault acc) := ⟨fun x _ => Form.parcels_length x, .inl rfl⟩
theorem Fields.saveSlotFreed (ctx : Nat) : Fields.Statement (.saveSlotFreed ctx) := ⟨fun x _ => Form.parcels_length x, .inl rfl⟩
theorem Fields.freezeRequest : Fields.Statement (.freezeRequest) := ⟨fun x _ => Form.parcels_length x, .inl rfl⟩
theorem Fields.freezeRange (id slice : Nat) : Fields.Statement (.freezeRange id slice) := ⟨fun x _ => Form.parcels_length x, .inl rfl⟩
theorem Fields.freezeAck (id chip : Nat) : Fields.Statement (.freezeAck id chip) := ⟨fun x _ => Form.parcels_length x, .inl rfl⟩
theorem Fields.thawRequest : Fields.Statement (.thawRequest) := ⟨fun x _ => Form.parcels_length x, .inl rfl⟩
theorem Fields.dropAck (id chip : Nat) : Fields.Statement (.dropAck id chip) := ⟨fun x _ => Form.parcels_length x, .inl rfl⟩
theorem Fields.unmark (id slice : Nat) : Fields.Statement (.unmark id slice) := ⟨fun x _ => Form.parcels_length x, .inl rfl⟩
theorem Fields.unmarkAck (id chip : Nat) : Fields.Statement (.unmarkAck id chip) := ⟨fun x _ => Form.parcels_length x, .inl rfl⟩
theorem Fields.publish (ctx pair : Nat) : Fields.Statement (.publish ctx pair) := ⟨fun x _ => Form.parcels_length x, .inl rfl⟩
theorem Fields.stagingWrite (ctx off : Nat) (data : List Byte) : Fields.Statement (.stagingWrite ctx off data) := ⟨fun x _ => Form.parcels_length x, .inl rfl⟩
theorem Fields.launchSubmit (ctx off : Nat) (data : List Byte) : Fields.Statement (.launchSubmit ctx off data) := ⟨fun x _ => Form.parcels_length x, .inl rfl⟩
theorem Fields.launchAccept : Fields.Statement (.launchAccept) := ⟨fun x _ => Form.parcels_length x, .inl rfl⟩
theorem Fields.captureInputs (launch : Nat) : Fields.Statement (.captureInputs launch) := ⟨fun x _ => Form.parcels_length x, .inl rfl⟩
theorem Fields.placeColumn : Fields.Statement (.placeColumn) := ⟨fun x _ => Form.parcels_length x, .inl rfl⟩
theorem Fields.preempt : Fields.Statement (.preempt) := ⟨fun x _ => Form.parcels_length x, .inl rfl⟩
theorem Fields.placementBlockTimeout : Fields.Statement (.placementBlockTimeout) := ⟨fun x _ => Form.parcels_length x, .inl rfl⟩
theorem Fields.launchComplete (launch : Nat) : Fields.Statement (.launchComplete launch) := ⟨fun x _ => Form.parcels_length x, .inl rfl⟩
theorem Fields.rearbitrate : Fields.Statement (.rearbitrate) := ⟨fun x _ => Form.parcels_length x, .inl rfl⟩
theorem Fields.grantChange : Fields.Statement (.grantChange) := ⟨fun x _ => Form.parcels_length x, .inl rfl⟩
theorem Fields.thermalStep (temps : List Int) : Fields.Statement (.thermalStep temps) := ⟨fun x _ => Form.parcels_length x, .inl rfl⟩
theorem Fields.telemetrySample (power : Nat) (temps : List Int) : Fields.Statement (.telemetrySample power temps) := ⟨fun x _ => Form.parcels_length x, .inl rfl⟩
theorem Fields.sweep (ctx : Nat) (v : BitVec 64) : Fields.Statement (.sweep ctx v) := ⟨fun x _ => Form.parcels_length x, .inl rfl⟩
theorem Fields.sweepDone (ctx : Nat) : Fields.Statement (.sweepDone ctx) := ⟨fun x _ => Form.parcels_length x, .inl rfl⟩
theorem Fields.ptseqWrite (ctx : Nat) (v : Word) : Fields.Statement (.ptseqWrite ctx v) := ⟨fun x _ => Form.parcels_length x, .inl rfl⟩
theorem Fields.replay (ctx : Nat) (v : BitVec 64) : Fields.Statement (.replay ctx v) := ⟨fun x _ => Form.parcels_length x, .inl rfl⟩
theorem Fields.replayWalk (ctx fid : Nat) : Fields.Statement (.replayWalk ctx fid) := ⟨fun x _ => Form.parcels_length x, .inl rfl⟩
theorem Fields.swmEnter (ctx : Nat) : Fields.Statement (.swmEnter ctx) := ⟨fun x _ => Form.parcels_length x, .inl rfl⟩
theorem Fields.swmReturn (ctx : Nat) : Fields.Statement (.swmReturn ctx) := ⟨fun x _ => Form.parcels_length x, .inl rfl⟩
theorem Fields.swmSwitchDone (ctx : Nat) : Fields.Statement (.swmSwitchDone ctx) := ⟨fun x _ => Form.parcels_length x, .inl rfl⟩
theorem Fields.grpResume (ctx slot : Nat) : Fields.Statement (.grpResume ctx slot) := ⟨fun x _ => Form.parcels_length x, .inl rfl⟩
theorem Fields.grpDiscard (ctx slot : Nat) : Fields.Statement (.grpDiscard ctx slot) := ⟨fun x _ => Form.parcels_length x, .inl rfl⟩
theorem Fields.biasToHost (v : BitVec 64) : Fields.Statement (.biasToHost v) := ⟨fun x _ => Form.parcels_length x, .inl rfl⟩
theorem Fields.biasToDevice (v : BitVec 64) : Fields.Statement (.biasToDevice v) := ⟨fun x _ => Form.parcels_length x, .inl rfl⟩
theorem Fields.flipStart : Fields.Statement (.flipStart) := ⟨fun x _ => Form.parcels_length x, .inl rfl⟩
theorem Fields.flipDone : Fields.Statement (.flipDone) := ⟨fun x _ => Form.parcels_length x, .inl rfl⟩
theorem Fields.birsp (half : Nat) (data : Option (List Byte)) : Fields.Statement (.birsp half data) := ⟨fun x _ => Form.parcels_length x, .inl rfl⟩
theorem Fields.hostMemRead (pa n : Nat) : Fields.Statement (.hostMemRead pa n) := ⟨fun x _ => Form.parcels_length x, .inl rfl⟩
theorem Fields.hostMemWrite (pa : Nat) (data : List Byte) : Fields.Statement (.hostMemWrite pa data) := ⟨fun x _ => Form.parcels_length x, .inl rfl⟩
theorem Fields.snpData (hpa : Nat) : Fields.Statement (.snpData hpa) := ⟨fun x _ => Form.parcels_length x, .inl rfl⟩
theorem Fields.snpInv (hpa : Nat) : Fields.Statement (.snpInv hpa) := ⟨fun x _ => Form.parcels_length x, .inl rfl⟩
theorem Fields.snpCur (hpa : Nat) : Fields.Statement (.snpCur hpa) := ⟨fun x _ => Form.parcels_length x, .inl rfl⟩
theorem Fields.hostLineFill (key : LineKey) (own : Bool) : Fields.Statement (.hostLineFill key own) := ⟨fun x _ => Form.parcels_length x, .inl rfl⟩
theorem Fields.quiesceStart : Fields.Statement (.quiesceStart) := ⟨fun x _ => Form.parcels_length x, .inl rfl⟩
theorem Fields.quiescePhase1Done : Fields.Statement (.quiescePhase1Done) := ⟨fun x _ => Form.parcels_length x, .inl rfl⟩
theorem Fields.peerPhase1 (chip : Nat) : Fields.Statement (.peerPhase1 chip) := ⟨fun x _ => Form.parcels_length x, .inl rfl⟩
theorem Fields.quiesceEnd : Fields.Statement (.quiesceEnd) := ⟨fun x _ => Form.parcels_length x, .inl rfl⟩
theorem Fields.imgcmd (v : BitVec 64) : Fields.Statement (.imgcmd v) := ⟨fun x _ => Form.parcels_length x, .inl rfl⟩
theorem Fields.restore (v : BitVec 64) : Fields.Statement (.restore v) := ⟨fun x _ => Form.parcels_length x, .inl rfl⟩
theorem Fields.dbgStop (page : Option Nat) (core : Nat) (brkstop : Bool) : Fields.Statement (.dbgStop page core brkstop) := ⟨fun x _ => Form.parcels_length x, .inl rfl⟩
theorem Fields.dbgRun (page : Option Nat) (core : Nat) (brkstop : Bool) : Fields.Statement (.dbgRun page core brkstop) := ⟨fun x _ => Form.parcels_length x, .inl rfl⟩
theorem Fields.dbgStep (page : Option Nat) (core steps : Nat) (brkstop : Bool) : Fields.Statement (.dbgStep page core steps brkstop) := ⟨fun x _ => Form.parcels_length x, .inl rfl⟩
theorem Fields.dbgStepExpire (core : Nat) : Fields.Statement (.dbgStepExpire core) := ⟨fun x _ => Form.parcels_length x, .inl rfl⟩
theorem Fields.dbgDump (page : Option Nat) (v : BitVec 64) : Fields.Statement (.dbgDump page v) := ⟨fun x _ => Form.parcels_length x, .inl rfl⟩
theorem Fields.profclr (v : BitVec 64) : Fields.Statement (.profclr v) := ⟨fun x _ => Form.parcels_length x, .inl rfl⟩
theorem Fields.chConfigWrite (reg : Nat) (v : BitVec 64) : Fields.Statement (.chConfigWrite reg v) := ⟨fun x _ => Form.parcels_length x, .inl rfl⟩
theorem Fields.chdump (v : BitVec 64) : Fields.Statement (.chdump v) := ⟨fun x _ => Form.parcels_length x, .inl rfl⟩
theorem Fields.ctxCreate (v : BitVec 64) : Fields.Statement (.ctxCreate v) := ⟨fun x _ => Form.parcels_length x, .inl rfl⟩
theorem Fields.ctxDestroy (v : BitVec 64) : Fields.Statement (.ctxDestroy v) := ⟨fun x _ => Form.parcels_length x, .inl rfl⟩
theorem Fields.ringConfigWrite (ctx ring : Nat) (off size : Nat) (v : BitVec 64) : Fields.Statement (.ringConfigWrite ctx ring off size v) := ⟨fun x _ => Form.parcels_length x, .inl rfl⟩
theorem Fields.wsWindowWrite (off : Nat) (data : List Byte) : Fields.Statement (.wsWindowWrite off data) := ⟨fun x _ => Form.parcels_length x, .inl rfl⟩
theorem Fields.routeWrite (v : BitVec 64) : Fields.Statement (.routeWrite v) := ⟨fun x _ => Form.parcels_length x, .inl rfl⟩
theorem Fields.commcfgWrite (v : BitVec 64) : Fields.Statement (.commcfgWrite v) := ⟨fun x _ => Form.parcels_length x, .inl rfl⟩
theorem Fields.pwrcapWrite (v : BitVec 64) : Fields.Statement (.pwrcapWrite v) := ⟨fun x _ => Form.parcels_length x, .inl rfl⟩
theorem Fields.fwBegin : Fields.Statement (.fwBegin) := ⟨fun x _ => Form.parcels_length x, .inl rfl⟩
theorem Fields.fwAppend : Fields.Statement (.fwAppend) := ⟨fun x _ => Form.parcels_length x, .inl rfl⟩
theorem Fields.fwEnd : Fields.Statement (.fwEnd) := ⟨fun x _ => Form.parcels_length x, .inl rfl⟩
theorem Fields.attest (v : BitVec 64) : Fields.Statement (.attest v) := ⟨fun x _ => Form.parcels_length x, .inl rfl⟩
theorem Fields.registerWrite (page : RegPage) (off size : Nat) (v : BitVec 64) : Fields.Statement (.registerWrite page off size v) := ⟨fun x _ => Form.parcels_length x, .inl rfl⟩
theorem Fields.functionLevelReset : Fields.Statement (.functionLevelReset) := ⟨fun x _ => Form.parcels_length x, .inl rfl⟩
theorem Fields.coldReset : Fields.Statement (.coldReset) := ⟨fun x _ => Form.parcels_length x, .inl rfl⟩
theorem Fields.flashDrop (id : Nat) : Fields.Statement (.flashDrop id) := ⟨fun x _ => Form.parcels_length x, .inl rfl⟩
theorem Fields.ringConsWrite (ctx ring : Nat) (v : Word) : Fields.Statement (.ringConsWrite ctx ring v) := ⟨fun x _ => Form.parcels_length x, .inl rfl⟩
theorem Fields.linkDown (link : Nat) : Fields.Statement (.linkDown link) := ⟨fun x _ => Form.parcels_length x, .inl rfl⟩
theorem Fields.linkUp (link : Nat) : Fields.Statement (.linkUp link) := ⟨fun x _ => Form.parcels_length x, .inl rfl⟩
theorem Fields.powerLoss : Fields.Statement (.powerLoss) := ⟨fun x _ => Form.parcels_length x, .inl rfl⟩
theorem Fields.illegalTellerWord (word : Word) : Fields.Statement (.illegalTellerWord word) := ⟨fun x _ => Form.parcels_length x, .inl rfl⟩
theorem Fields.migrationEpochEnd : Fields.Statement (.migrationEpochEnd) := ⟨fun x _ => Form.parcels_length x, .inl rfl⟩

end Sys2Proof.Laws
end

