-- ==== Sys2Proof/Laws/State.lean ====
section
/-! SUPPORT. What each update of the state does to each field, so that no proof unfolds a record update. -/

namespace Sys2Proof.Machine

section
variable (s : State) (g : GroupId) (f : Group → Group)
@[simp] theorem State.modGroup_agenda : (s.modGroup g f).agenda = s.agenda := rfl
@[simp] theorem State.modGroup_issue : (s.modGroup g f).issue = s.issue := rfl
@[simp] theorem State.modGroup_cur : (s.modGroup g f).cur = s.cur := rfl
@[simp] theorem State.modGroup_freeN : (s.modGroup g f).freeN = s.freeN := rfl
@[simp] theorem State.modGroup_nextId : (s.modGroup g f).nextId = s.nextId := rfl
@[simp] theorem State.modGroup_time : (s.modGroup g f).time = s.time := rfl
@[simp] theorem State.modGroup_timePhase : (s.modGroup g f).timePhase = s.timePhase := rfl
@[simp] theorem State.modGroup_slewed : (s.modGroup g f).slewed = s.slewed := rfl
@[simp] theorem State.modGroup_slewBack : (s.modGroup g f).slewBack = s.slewBack := rfl
@[simp] theorem State.modGroup_dies : (s.modGroup g f).dies = s.dies := rfl
@[simp] theorem State.modGroup_exch : (s.modGroup g f).exch = s.exch := rfl
@[simp] theorem State.modGroup_groups : (s.modGroup g f).groups = updWhere (·.id == g) f s.groups := rfl
@[simp] theorem State.modGroup_columns : (s.modGroup g f).columns = s.columns := rfl
@[simp] theorem State.modGroup_saved : (s.modGroup g f).saved = s.saved := rfl
@[simp] theorem State.modGroup_launches : (s.modGroup g f).launches = s.launches := rfl
@[simp] theorem State.modGroup_submitted : (s.modGroup g f).submitted = s.submitted := rfl
@[simp] theorem State.modGroup_nextLaunch : (s.modGroup g f).nextLaunch = s.nextLaunch := rfl
@[simp] theorem State.modGroup_cores : (s.modGroup g f).cores = s.cores := rfl
@[simp] theorem State.modGroup_lastPlace : (s.modGroup g f).lastPlace = s.lastPlace := rfl
@[simp] theorem State.modGroup_mems : (s.modGroup g f).mems = s.mems := rfl
@[simp] theorem State.modGroup_l1 : (s.modGroup g f).l1 = s.l1 := rfl
@[simp] theorem State.modGroup_l2 : (s.modGroup g f).l2 = s.l2 := rfl
@[simp] theorem State.modGroup_code : (s.modGroup g f).code = s.code := rfl
@[simp] theorem State.modGroup_tlb : (s.modGroup g f).tlb = s.tlb := rfl
@[simp] theorem State.modGroup_walks : (s.modGroup g f).walks = s.walks := rfl
@[simp] theorem State.modGroup_codeReqs : (s.modGroup g f).codeReqs = s.codeReqs := rfl
@[simp] theorem State.modGroup_accs : (s.modGroup g f).accs = s.accs := rfl
@[simp] theorem State.modGroup_faults : (s.modGroup g f).faults = s.faults := rfl
@[simp] theorem State.modGroup_refaulted : (s.modGroup g f).refaulted = s.refaulted := rfl
@[simp] theorem State.modGroup_stamp : (s.modGroup g f).stamp = s.stamp := rfl
@[simp] theorem State.modGroup_ordLog : (s.modGroup g f).ordLog = s.ordLog := rfl
@[simp] theorem State.modGroup_cmds : (s.modGroup g f).cmds = s.cmds := rfl
@[simp] theorem State.modGroup_held : (s.modGroup g f).held = s.held := rfl
@[simp] theorem State.modGroup_routes : (s.modGroup g f).routes = s.routes := rfl
@[simp] theorem State.modGroup_shadows : (s.modGroup g f).shadows = s.shadows := rfl
@[simp] theorem State.modGroup_collect : (s.modGroup g f).collect = s.collect := rfl
@[simp] theorem State.modGroup_collSeq : (s.modGroup g f).collSeq = s.collSeq := rfl
@[simp] theorem State.modGroup_swm : (s.modGroup g f).swm = s.swm := rfl
@[simp] theorem State.modGroup_freezes : (s.modGroup g f).freezes = s.freezes := rfl
@[simp] theorem State.modGroup_frzReqs : (s.modGroup g f).frzReqs = s.frzReqs := rfl
@[simp] theorem State.modGroup_thawReqs : (s.modGroup g f).thawReqs = s.thawReqs := rfl
@[simp] theorem State.modGroup_bias : (s.modGroup g f).bias = s.bias := rfl
@[simp] theorem State.modGroup_flips : (s.modGroup g f).flips = s.flips := rfl
@[simp] theorem State.modGroup_flip : (s.modGroup g f).flip = s.flip := rfl
@[simp] theorem State.modGroup_bridge : (s.modGroup g f).bridge = s.bridge := rfl
@[simp] theorem State.modGroup_hostReqs : (s.modGroup g f).hostReqs = s.hostReqs := rfl
@[simp] theorem State.modGroup_heldHost : (s.modGroup g f).heldHost = s.heldHost := rfl
@[simp] theorem State.modGroup_heldRecs : (s.modGroup g f).heldRecs = s.heldRecs := rfl
@[simp] theorem State.modGroup_migration : (s.modGroup g f).migration = s.migration := rfl
@[simp] theorem State.modGroup_migCount : (s.modGroup g f).migCount = s.migCount := rfl
@[simp] theorem State.modGroup_promoted : (s.modGroup g f).promoted = s.promoted := rfl
@[simp] theorem State.modGroup_refreshSlot : (s.modGroup g f).refreshSlot = s.refreshSlot := rfl
@[simp] theorem State.modGroup_ctxs : (s.modGroup g f).ctxs = s.ctxs := rfl
@[simp] theorem State.modGroup_mgmt : (s.modGroup g f).mgmt = s.mgmt := rfl
@[simp] theorem State.modGroup_quiesce : (s.modGroup g f).quiesce = s.quiesce := rfl
@[simp] theorem State.modGroup_fw : (s.modGroup g f).fw = s.fw := rfl
@[simp] theorem State.modGroup_comms : (s.modGroup g f).comms = s.comms := rfl
@[simp] theorem State.modGroup_podRoutes : (s.modGroup g f).podRoutes = s.podRoutes := rfl
@[simp] theorem State.modGroup_links : (s.modGroup g f).links = s.links := rfl
@[simp] theorem State.modGroup_linkRx : (s.modGroup g f).linkRx = s.linkRx := rfl
@[simp] theorem State.modGroup_linkSeq : (s.modGroup g f).linkSeq = s.linkSeq := rfl
@[simp] theorem State.modGroup_txSeq : (s.modGroup g f).txSeq = s.txSeq := rfl
@[simp] theorem State.modGroup_linkStop : (s.modGroup g f).linkStop = s.linkStop := rfl
@[simp] theorem State.modGroup_retry : (s.modGroup g f).retry = s.retry := rfl
@[simp] theorem State.modGroup_cabled : (s.modGroup g f).cabled = s.cabled := rfl
@[simp] theorem State.modGroup_heldOut : (s.modGroup g f).heldOut = s.heldOut := rfl
@[simp] theorem State.modGroup_remoteBad : (s.modGroup g f).remoteBad = s.remoteBad := rfl
@[simp] theorem State.modGroup_peers : (s.modGroup g f).peers = s.peers := rfl
@[simp] theorem State.modGroup_out : (s.modGroup g f).out = s.out := rfl
end

section
variable (s : State) (c : ColId) (f : Column → Column)
@[simp] theorem State.modColumn_agenda : (s.modColumn c f).agenda = s.agenda := rfl
@[simp] theorem State.modColumn_issue : (s.modColumn c f).issue = s.issue := rfl
@[simp] theorem State.modColumn_cur : (s.modColumn c f).cur = s.cur := rfl
@[simp] theorem State.modColumn_freeN : (s.modColumn c f).freeN = s.freeN := rfl
@[simp] theorem State.modColumn_nextId : (s.modColumn c f).nextId = s.nextId := rfl
@[simp] theorem State.modColumn_time : (s.modColumn c f).time = s.time := rfl
@[simp] theorem State.modColumn_timePhase : (s.modColumn c f).timePhase = s.timePhase := rfl
@[simp] theorem State.modColumn_slewed : (s.modColumn c f).slewed = s.slewed := rfl
@[simp] theorem State.modColumn_slewBack : (s.modColumn c f).slewBack = s.slewBack := rfl
@[simp] theorem State.modColumn_dies : (s.modColumn c f).dies = s.dies := rfl
@[simp] theorem State.modColumn_exch : (s.modColumn c f).exch = s.exch := rfl
@[simp] theorem State.modColumn_groups : (s.modColumn c f).groups = s.groups := rfl
@[simp] theorem State.modColumn_columns : (s.modColumn c f).columns = updWhere (·.id == c) f s.columns := rfl
@[simp] theorem State.modColumn_saved : (s.modColumn c f).saved = s.saved := rfl
@[simp] theorem State.modColumn_launches : (s.modColumn c f).launches = s.launches := rfl
@[simp] theorem State.modColumn_submitted : (s.modColumn c f).submitted = s.submitted := rfl
@[simp] theorem State.modColumn_nextLaunch : (s.modColumn c f).nextLaunch = s.nextLaunch := rfl
@[simp] theorem State.modColumn_cores : (s.modColumn c f).cores = s.cores := rfl
@[simp] theorem State.modColumn_lastPlace : (s.modColumn c f).lastPlace = s.lastPlace := rfl
@[simp] theorem State.modColumn_mems : (s.modColumn c f).mems = s.mems := rfl
@[simp] theorem State.modColumn_l1 : (s.modColumn c f).l1 = s.l1 := rfl
@[simp] theorem State.modColumn_l2 : (s.modColumn c f).l2 = s.l2 := rfl
@[simp] theorem State.modColumn_code : (s.modColumn c f).code = s.code := rfl
@[simp] theorem State.modColumn_tlb : (s.modColumn c f).tlb = s.tlb := rfl
@[simp] theorem State.modColumn_walks : (s.modColumn c f).walks = s.walks := rfl
@[simp] theorem State.modColumn_codeReqs : (s.modColumn c f).codeReqs = s.codeReqs := rfl
@[simp] theorem State.modColumn_accs : (s.modColumn c f).accs = s.accs := rfl
@[simp] theorem State.modColumn_faults : (s.modColumn c f).faults = s.faults := rfl
@[simp] theorem State.modColumn_refaulted : (s.modColumn c f).refaulted = s.refaulted := rfl
@[simp] theorem State.modColumn_stamp : (s.modColumn c f).stamp = s.stamp := rfl
@[simp] theorem State.modColumn_ordLog : (s.modColumn c f).ordLog = s.ordLog := rfl
@[simp] theorem State.modColumn_cmds : (s.modColumn c f).cmds = s.cmds := rfl
@[simp] theorem State.modColumn_held : (s.modColumn c f).held = s.held := rfl
@[simp] theorem State.modColumn_routes : (s.modColumn c f).routes = s.routes := rfl
@[simp] theorem State.modColumn_shadows : (s.modColumn c f).shadows = s.shadows := rfl
@[simp] theorem State.modColumn_collect : (s.modColumn c f).collect = s.collect := rfl
@[simp] theorem State.modColumn_collSeq : (s.modColumn c f).collSeq = s.collSeq := rfl
@[simp] theorem State.modColumn_swm : (s.modColumn c f).swm = s.swm := rfl
@[simp] theorem State.modColumn_freezes : (s.modColumn c f).freezes = s.freezes := rfl
@[simp] theorem State.modColumn_frzReqs : (s.modColumn c f).frzReqs = s.frzReqs := rfl
@[simp] theorem State.modColumn_thawReqs : (s.modColumn c f).thawReqs = s.thawReqs := rfl
@[simp] theorem State.modColumn_bias : (s.modColumn c f).bias = s.bias := rfl
@[simp] theorem State.modColumn_flips : (s.modColumn c f).flips = s.flips := rfl
@[simp] theorem State.modColumn_flip : (s.modColumn c f).flip = s.flip := rfl
@[simp] theorem State.modColumn_bridge : (s.modColumn c f).bridge = s.bridge := rfl
@[simp] theorem State.modColumn_hostReqs : (s.modColumn c f).hostReqs = s.hostReqs := rfl
@[simp] theorem State.modColumn_heldHost : (s.modColumn c f).heldHost = s.heldHost := rfl
@[simp] theorem State.modColumn_heldRecs : (s.modColumn c f).heldRecs = s.heldRecs := rfl
@[simp] theorem State.modColumn_migration : (s.modColumn c f).migration = s.migration := rfl
@[simp] theorem State.modColumn_migCount : (s.modColumn c f).migCount = s.migCount := rfl
@[simp] theorem State.modColumn_promoted : (s.modColumn c f).promoted = s.promoted := rfl
@[simp] theorem State.modColumn_refreshSlot : (s.modColumn c f).refreshSlot = s.refreshSlot := rfl
@[simp] theorem State.modColumn_ctxs : (s.modColumn c f).ctxs = s.ctxs := rfl
@[simp] theorem State.modColumn_mgmt : (s.modColumn c f).mgmt = s.mgmt := rfl
@[simp] theorem State.modColumn_quiesce : (s.modColumn c f).quiesce = s.quiesce := rfl
@[simp] theorem State.modColumn_fw : (s.modColumn c f).fw = s.fw := rfl
@[simp] theorem State.modColumn_comms : (s.modColumn c f).comms = s.comms := rfl
@[simp] theorem State.modColumn_podRoutes : (s.modColumn c f).podRoutes = s.podRoutes := rfl
@[simp] theorem State.modColumn_links : (s.modColumn c f).links = s.links := rfl
@[simp] theorem State.modColumn_linkRx : (s.modColumn c f).linkRx = s.linkRx := rfl
@[simp] theorem State.modColumn_linkSeq : (s.modColumn c f).linkSeq = s.linkSeq := rfl
@[simp] theorem State.modColumn_txSeq : (s.modColumn c f).txSeq = s.txSeq := rfl
@[simp] theorem State.modColumn_linkStop : (s.modColumn c f).linkStop = s.linkStop := rfl
@[simp] theorem State.modColumn_retry : (s.modColumn c f).retry = s.retry := rfl
@[simp] theorem State.modColumn_cabled : (s.modColumn c f).cabled = s.cabled := rfl
@[simp] theorem State.modColumn_heldOut : (s.modColumn c f).heldOut = s.heldOut := rfl
@[simp] theorem State.modColumn_remoteBad : (s.modColumn c f).remoteBad = s.remoteBad := rfl
@[simp] theorem State.modColumn_peers : (s.modColumn c f).peers = s.peers := rfl
@[simp] theorem State.modColumn_out : (s.modColumn c f).out = s.out := rfl
end

section
variable (s : State) (c : Nat) (f : Core → Core)
@[simp] theorem State.modCore_agenda : (s.modCore c f).agenda = s.agenda := rfl
@[simp] theorem State.modCore_issue : (s.modCore c f).issue = s.issue := rfl
@[simp] theorem State.modCore_cur : (s.modCore c f).cur = s.cur := rfl
@[simp] theorem State.modCore_freeN : (s.modCore c f).freeN = s.freeN := rfl
@[simp] theorem State.modCore_nextId : (s.modCore c f).nextId = s.nextId := rfl
@[simp] theorem State.modCore_time : (s.modCore c f).time = s.time := rfl
@[simp] theorem State.modCore_timePhase : (s.modCore c f).timePhase = s.timePhase := rfl
@[simp] theorem State.modCore_slewed : (s.modCore c f).slewed = s.slewed := rfl
@[simp] theorem State.modCore_slewBack : (s.modCore c f).slewBack = s.slewBack := rfl
@[simp] theorem State.modCore_dies : (s.modCore c f).dies = s.dies := rfl
@[simp] theorem State.modCore_exch : (s.modCore c f).exch = s.exch := rfl
@[simp] theorem State.modCore_groups : (s.modCore c f).groups = s.groups := rfl
@[simp] theorem State.modCore_columns : (s.modCore c f).columns = s.columns := rfl
@[simp] theorem State.modCore_saved : (s.modCore c f).saved = s.saved := rfl
@[simp] theorem State.modCore_launches : (s.modCore c f).launches = s.launches := rfl
@[simp] theorem State.modCore_submitted : (s.modCore c f).submitted = s.submitted := rfl
@[simp] theorem State.modCore_nextLaunch : (s.modCore c f).nextLaunch = s.nextLaunch := rfl
@[simp] theorem State.modCore_cores : (s.modCore c f).cores = s.cores.modify c f := rfl
@[simp] theorem State.modCore_lastPlace : (s.modCore c f).lastPlace = s.lastPlace := rfl
@[simp] theorem State.modCore_mems : (s.modCore c f).mems = s.mems := rfl
@[simp] theorem State.modCore_l1 : (s.modCore c f).l1 = s.l1 := rfl
@[simp] theorem State.modCore_l2 : (s.modCore c f).l2 = s.l2 := rfl
@[simp] theorem State.modCore_code : (s.modCore c f).code = s.code := rfl
@[simp] theorem State.modCore_tlb : (s.modCore c f).tlb = s.tlb := rfl
@[simp] theorem State.modCore_walks : (s.modCore c f).walks = s.walks := rfl
@[simp] theorem State.modCore_codeReqs : (s.modCore c f).codeReqs = s.codeReqs := rfl
@[simp] theorem State.modCore_accs : (s.modCore c f).accs = s.accs := rfl
@[simp] theorem State.modCore_faults : (s.modCore c f).faults = s.faults := rfl
@[simp] theorem State.modCore_refaulted : (s.modCore c f).refaulted = s.refaulted := rfl
@[simp] theorem State.modCore_stamp : (s.modCore c f).stamp = s.stamp := rfl
@[simp] theorem State.modCore_ordLog : (s.modCore c f).ordLog = s.ordLog := rfl
@[simp] theorem State.modCore_cmds : (s.modCore c f).cmds = s.cmds := rfl
@[simp] theorem State.modCore_held : (s.modCore c f).held = s.held := rfl
@[simp] theorem State.modCore_routes : (s.modCore c f).routes = s.routes := rfl
@[simp] theorem State.modCore_shadows : (s.modCore c f).shadows = s.shadows := rfl
@[simp] theorem State.modCore_collect : (s.modCore c f).collect = s.collect := rfl
@[simp] theorem State.modCore_collSeq : (s.modCore c f).collSeq = s.collSeq := rfl
@[simp] theorem State.modCore_swm : (s.modCore c f).swm = s.swm := rfl
@[simp] theorem State.modCore_freezes : (s.modCore c f).freezes = s.freezes := rfl
@[simp] theorem State.modCore_frzReqs : (s.modCore c f).frzReqs = s.frzReqs := rfl
@[simp] theorem State.modCore_thawReqs : (s.modCore c f).thawReqs = s.thawReqs := rfl
@[simp] theorem State.modCore_bias : (s.modCore c f).bias = s.bias := rfl
@[simp] theorem State.modCore_flips : (s.modCore c f).flips = s.flips := rfl
@[simp] theorem State.modCore_flip : (s.modCore c f).flip = s.flip := rfl
@[simp] theorem State.modCore_bridge : (s.modCore c f).bridge = s.bridge := rfl
@[simp] theorem State.modCore_hostReqs : (s.modCore c f).hostReqs = s.hostReqs := rfl
@[simp] theorem State.modCore_heldHost : (s.modCore c f).heldHost = s.heldHost := rfl
@[simp] theorem State.modCore_heldRecs : (s.modCore c f).heldRecs = s.heldRecs := rfl
@[simp] theorem State.modCore_migration : (s.modCore c f).migration = s.migration := rfl
@[simp] theorem State.modCore_migCount : (s.modCore c f).migCount = s.migCount := rfl
@[simp] theorem State.modCore_promoted : (s.modCore c f).promoted = s.promoted := rfl
@[simp] theorem State.modCore_refreshSlot : (s.modCore c f).refreshSlot = s.refreshSlot := rfl
@[simp] theorem State.modCore_ctxs : (s.modCore c f).ctxs = s.ctxs := rfl
@[simp] theorem State.modCore_mgmt : (s.modCore c f).mgmt = s.mgmt := rfl
@[simp] theorem State.modCore_quiesce : (s.modCore c f).quiesce = s.quiesce := rfl
@[simp] theorem State.modCore_fw : (s.modCore c f).fw = s.fw := rfl
@[simp] theorem State.modCore_comms : (s.modCore c f).comms = s.comms := rfl
@[simp] theorem State.modCore_podRoutes : (s.modCore c f).podRoutes = s.podRoutes := rfl
@[simp] theorem State.modCore_links : (s.modCore c f).links = s.links := rfl
@[simp] theorem State.modCore_linkRx : (s.modCore c f).linkRx = s.linkRx := rfl
@[simp] theorem State.modCore_linkSeq : (s.modCore c f).linkSeq = s.linkSeq := rfl
@[simp] theorem State.modCore_txSeq : (s.modCore c f).txSeq = s.txSeq := rfl
@[simp] theorem State.modCore_linkStop : (s.modCore c f).linkStop = s.linkStop := rfl
@[simp] theorem State.modCore_retry : (s.modCore c f).retry = s.retry := rfl
@[simp] theorem State.modCore_cabled : (s.modCore c f).cabled = s.cabled := rfl
@[simp] theorem State.modCore_heldOut : (s.modCore c f).heldOut = s.heldOut := rfl
@[simp] theorem State.modCore_remoteBad : (s.modCore c f).remoteBad = s.remoteBad := rfl
@[simp] theorem State.modCore_peers : (s.modCore c f).peers = s.peers := rfl
@[simp] theorem State.modCore_out : (s.modCore c f).out = s.out := rfl
end

section
variable (s : State) (c : Nat) (f : Ctx → Ctx)
@[simp] theorem State.modCtx_agenda : (s.modCtx c f).agenda = s.agenda := rfl
@[simp] theorem State.modCtx_issue : (s.modCtx c f).issue = s.issue := rfl
@[simp] theorem State.modCtx_cur : (s.modCtx c f).cur = s.cur := rfl
@[simp] theorem State.modCtx_freeN : (s.modCtx c f).freeN = s.freeN := rfl
@[simp] theorem State.modCtx_nextId : (s.modCtx c f).nextId = s.nextId := rfl
@[simp] theorem State.modCtx_time : (s.modCtx c f).time = s.time := rfl
@[simp] theorem State.modCtx_timePhase : (s.modCtx c f).timePhase = s.timePhase := rfl
@[simp] theorem State.modCtx_slewed : (s.modCtx c f).slewed = s.slewed := rfl
@[simp] theorem State.modCtx_slewBack : (s.modCtx c f).slewBack = s.slewBack := rfl
@[simp] theorem State.modCtx_dies : (s.modCtx c f).dies = s.dies := rfl
@[simp] theorem State.modCtx_exch : (s.modCtx c f).exch = s.exch := rfl
@[simp] theorem State.modCtx_groups : (s.modCtx c f).groups = s.groups := rfl
@[simp] theorem State.modCtx_columns : (s.modCtx c f).columns = s.columns := rfl
@[simp] theorem State.modCtx_saved : (s.modCtx c f).saved = s.saved := rfl
@[simp] theorem State.modCtx_launches : (s.modCtx c f).launches = s.launches := rfl
@[simp] theorem State.modCtx_submitted : (s.modCtx c f).submitted = s.submitted := rfl
@[simp] theorem State.modCtx_nextLaunch : (s.modCtx c f).nextLaunch = s.nextLaunch := rfl
@[simp] theorem State.modCtx_cores : (s.modCtx c f).cores = s.cores := rfl
@[simp] theorem State.modCtx_lastPlace : (s.modCtx c f).lastPlace = s.lastPlace := rfl
@[simp] theorem State.modCtx_mems : (s.modCtx c f).mems = s.mems := rfl
@[simp] theorem State.modCtx_l1 : (s.modCtx c f).l1 = s.l1 := rfl
@[simp] theorem State.modCtx_l2 : (s.modCtx c f).l2 = s.l2 := rfl
@[simp] theorem State.modCtx_code : (s.modCtx c f).code = s.code := rfl
@[simp] theorem State.modCtx_tlb : (s.modCtx c f).tlb = s.tlb := rfl
@[simp] theorem State.modCtx_walks : (s.modCtx c f).walks = s.walks := rfl
@[simp] theorem State.modCtx_codeReqs : (s.modCtx c f).codeReqs = s.codeReqs := rfl
@[simp] theorem State.modCtx_accs : (s.modCtx c f).accs = s.accs := rfl
@[simp] theorem State.modCtx_faults : (s.modCtx c f).faults = s.faults := rfl
@[simp] theorem State.modCtx_refaulted : (s.modCtx c f).refaulted = s.refaulted := rfl
@[simp] theorem State.modCtx_stamp : (s.modCtx c f).stamp = s.stamp := rfl
@[simp] theorem State.modCtx_ordLog : (s.modCtx c f).ordLog = s.ordLog := rfl
@[simp] theorem State.modCtx_cmds : (s.modCtx c f).cmds = s.cmds := rfl
@[simp] theorem State.modCtx_held : (s.modCtx c f).held = s.held := rfl
@[simp] theorem State.modCtx_routes : (s.modCtx c f).routes = s.routes := rfl
@[simp] theorem State.modCtx_shadows : (s.modCtx c f).shadows = s.shadows := rfl
@[simp] theorem State.modCtx_collect : (s.modCtx c f).collect = s.collect := rfl
@[simp] theorem State.modCtx_collSeq : (s.modCtx c f).collSeq = s.collSeq := rfl
@[simp] theorem State.modCtx_swm : (s.modCtx c f).swm = s.swm := rfl
@[simp] theorem State.modCtx_freezes : (s.modCtx c f).freezes = s.freezes := rfl
@[simp] theorem State.modCtx_frzReqs : (s.modCtx c f).frzReqs = s.frzReqs := rfl
@[simp] theorem State.modCtx_thawReqs : (s.modCtx c f).thawReqs = s.thawReqs := rfl
@[simp] theorem State.modCtx_bias : (s.modCtx c f).bias = s.bias := rfl
@[simp] theorem State.modCtx_flips : (s.modCtx c f).flips = s.flips := rfl
@[simp] theorem State.modCtx_flip : (s.modCtx c f).flip = s.flip := rfl
@[simp] theorem State.modCtx_bridge : (s.modCtx c f).bridge = s.bridge := rfl
@[simp] theorem State.modCtx_hostReqs : (s.modCtx c f).hostReqs = s.hostReqs := rfl
@[simp] theorem State.modCtx_heldHost : (s.modCtx c f).heldHost = s.heldHost := rfl
@[simp] theorem State.modCtx_heldRecs : (s.modCtx c f).heldRecs = s.heldRecs := rfl
@[simp] theorem State.modCtx_migration : (s.modCtx c f).migration = s.migration := rfl
@[simp] theorem State.modCtx_migCount : (s.modCtx c f).migCount = s.migCount := rfl
@[simp] theorem State.modCtx_promoted : (s.modCtx c f).promoted = s.promoted := rfl
@[simp] theorem State.modCtx_refreshSlot : (s.modCtx c f).refreshSlot = s.refreshSlot := rfl
@[simp] theorem State.modCtx_ctxs : (s.modCtx c f).ctxs = s.ctxs.modify c f := rfl
@[simp] theorem State.modCtx_mgmt : (s.modCtx c f).mgmt = s.mgmt := rfl
@[simp] theorem State.modCtx_quiesce : (s.modCtx c f).quiesce = s.quiesce := rfl
@[simp] theorem State.modCtx_fw : (s.modCtx c f).fw = s.fw := rfl
@[simp] theorem State.modCtx_comms : (s.modCtx c f).comms = s.comms := rfl
@[simp] theorem State.modCtx_podRoutes : (s.modCtx c f).podRoutes = s.podRoutes := rfl
@[simp] theorem State.modCtx_links : (s.modCtx c f).links = s.links := rfl
@[simp] theorem State.modCtx_linkRx : (s.modCtx c f).linkRx = s.linkRx := rfl
@[simp] theorem State.modCtx_linkSeq : (s.modCtx c f).linkSeq = s.linkSeq := rfl
@[simp] theorem State.modCtx_txSeq : (s.modCtx c f).txSeq = s.txSeq := rfl
@[simp] theorem State.modCtx_linkStop : (s.modCtx c f).linkStop = s.linkStop := rfl
@[simp] theorem State.modCtx_retry : (s.modCtx c f).retry = s.retry := rfl
@[simp] theorem State.modCtx_cabled : (s.modCtx c f).cabled = s.cabled := rfl
@[simp] theorem State.modCtx_heldOut : (s.modCtx c f).heldOut = s.heldOut := rfl
@[simp] theorem State.modCtx_remoteBad : (s.modCtx c f).remoteBad = s.remoteBad := rfl
@[simp] theorem State.modCtx_peers : (s.modCtx c f).peers = s.peers := rfl
@[simp] theorem State.modCtx_out : (s.modCtx c f).out = s.out := rfl
end

section
variable (s : State) (n : Nat) (f : Launch → Launch)
@[simp] theorem State.modLaunch_agenda : (s.modLaunch n f).agenda = s.agenda := rfl
@[simp] theorem State.modLaunch_issue : (s.modLaunch n f).issue = s.issue := rfl
@[simp] theorem State.modLaunch_cur : (s.modLaunch n f).cur = s.cur := rfl
@[simp] theorem State.modLaunch_freeN : (s.modLaunch n f).freeN = s.freeN := rfl
@[simp] theorem State.modLaunch_nextId : (s.modLaunch n f).nextId = s.nextId := rfl
@[simp] theorem State.modLaunch_time : (s.modLaunch n f).time = s.time := rfl
@[simp] theorem State.modLaunch_timePhase : (s.modLaunch n f).timePhase = s.timePhase := rfl
@[simp] theorem State.modLaunch_slewed : (s.modLaunch n f).slewed = s.slewed := rfl
@[simp] theorem State.modLaunch_slewBack : (s.modLaunch n f).slewBack = s.slewBack := rfl
@[simp] theorem State.modLaunch_dies : (s.modLaunch n f).dies = s.dies := rfl
@[simp] theorem State.modLaunch_exch : (s.modLaunch n f).exch = s.exch := rfl
@[simp] theorem State.modLaunch_groups : (s.modLaunch n f).groups = s.groups := rfl
@[simp] theorem State.modLaunch_columns : (s.modLaunch n f).columns = s.columns := rfl
@[simp] theorem State.modLaunch_saved : (s.modLaunch n f).saved = s.saved := rfl
@[simp] theorem State.modLaunch_launches : (s.modLaunch n f).launches = updWhere (·.seq == n) f s.launches := rfl
@[simp] theorem State.modLaunch_submitted : (s.modLaunch n f).submitted = s.submitted := rfl
@[simp] theorem State.modLaunch_nextLaunch : (s.modLaunch n f).nextLaunch = s.nextLaunch := rfl
@[simp] theorem State.modLaunch_cores : (s.modLaunch n f).cores = s.cores := rfl
@[simp] theorem State.modLaunch_lastPlace : (s.modLaunch n f).lastPlace = s.lastPlace := rfl
@[simp] theorem State.modLaunch_mems : (s.modLaunch n f).mems = s.mems := rfl
@[simp] theorem State.modLaunch_l1 : (s.modLaunch n f).l1 = s.l1 := rfl
@[simp] theorem State.modLaunch_l2 : (s.modLaunch n f).l2 = s.l2 := rfl
@[simp] theorem State.modLaunch_code : (s.modLaunch n f).code = s.code := rfl
@[simp] theorem State.modLaunch_tlb : (s.modLaunch n f).tlb = s.tlb := rfl
@[simp] theorem State.modLaunch_walks : (s.modLaunch n f).walks = s.walks := rfl
@[simp] theorem State.modLaunch_codeReqs : (s.modLaunch n f).codeReqs = s.codeReqs := rfl
@[simp] theorem State.modLaunch_accs : (s.modLaunch n f).accs = s.accs := rfl
@[simp] theorem State.modLaunch_faults : (s.modLaunch n f).faults = s.faults := rfl
@[simp] theorem State.modLaunch_refaulted : (s.modLaunch n f).refaulted = s.refaulted := rfl
@[simp] theorem State.modLaunch_stamp : (s.modLaunch n f).stamp = s.stamp := rfl
@[simp] theorem State.modLaunch_ordLog : (s.modLaunch n f).ordLog = s.ordLog := rfl
@[simp] theorem State.modLaunch_cmds : (s.modLaunch n f).cmds = s.cmds := rfl
@[simp] theorem State.modLaunch_held : (s.modLaunch n f).held = s.held := rfl
@[simp] theorem State.modLaunch_routes : (s.modLaunch n f).routes = s.routes := rfl
@[simp] theorem State.modLaunch_shadows : (s.modLaunch n f).shadows = s.shadows := rfl
@[simp] theorem State.modLaunch_collect : (s.modLaunch n f).collect = s.collect := rfl
@[simp] theorem State.modLaunch_collSeq : (s.modLaunch n f).collSeq = s.collSeq := rfl
@[simp] theorem State.modLaunch_swm : (s.modLaunch n f).swm = s.swm := rfl
@[simp] theorem State.modLaunch_freezes : (s.modLaunch n f).freezes = s.freezes := rfl
@[simp] theorem State.modLaunch_frzReqs : (s.modLaunch n f).frzReqs = s.frzReqs := rfl
@[simp] theorem State.modLaunch_thawReqs : (s.modLaunch n f).thawReqs = s.thawReqs := rfl
@[simp] theorem State.modLaunch_bias : (s.modLaunch n f).bias = s.bias := rfl
@[simp] theorem State.modLaunch_flips : (s.modLaunch n f).flips = s.flips := rfl
@[simp] theorem State.modLaunch_flip : (s.modLaunch n f).flip = s.flip := rfl
@[simp] theorem State.modLaunch_bridge : (s.modLaunch n f).bridge = s.bridge := rfl
@[simp] theorem State.modLaunch_hostReqs : (s.modLaunch n f).hostReqs = s.hostReqs := rfl
@[simp] theorem State.modLaunch_heldHost : (s.modLaunch n f).heldHost = s.heldHost := rfl
@[simp] theorem State.modLaunch_heldRecs : (s.modLaunch n f).heldRecs = s.heldRecs := rfl
@[simp] theorem State.modLaunch_migration : (s.modLaunch n f).migration = s.migration := rfl
@[simp] theorem State.modLaunch_migCount : (s.modLaunch n f).migCount = s.migCount := rfl
@[simp] theorem State.modLaunch_promoted : (s.modLaunch n f).promoted = s.promoted := rfl
@[simp] theorem State.modLaunch_refreshSlot : (s.modLaunch n f).refreshSlot = s.refreshSlot := rfl
@[simp] theorem State.modLaunch_ctxs : (s.modLaunch n f).ctxs = s.ctxs := rfl
@[simp] theorem State.modLaunch_mgmt : (s.modLaunch n f).mgmt = s.mgmt := rfl
@[simp] theorem State.modLaunch_quiesce : (s.modLaunch n f).quiesce = s.quiesce := rfl
@[simp] theorem State.modLaunch_fw : (s.modLaunch n f).fw = s.fw := rfl
@[simp] theorem State.modLaunch_comms : (s.modLaunch n f).comms = s.comms := rfl
@[simp] theorem State.modLaunch_podRoutes : (s.modLaunch n f).podRoutes = s.podRoutes := rfl
@[simp] theorem State.modLaunch_links : (s.modLaunch n f).links = s.links := rfl
@[simp] theorem State.modLaunch_linkRx : (s.modLaunch n f).linkRx = s.linkRx := rfl
@[simp] theorem State.modLaunch_linkSeq : (s.modLaunch n f).linkSeq = s.linkSeq := rfl
@[simp] theorem State.modLaunch_txSeq : (s.modLaunch n f).txSeq = s.txSeq := rfl
@[simp] theorem State.modLaunch_linkStop : (s.modLaunch n f).linkStop = s.linkStop := rfl
@[simp] theorem State.modLaunch_retry : (s.modLaunch n f).retry = s.retry := rfl
@[simp] theorem State.modLaunch_cabled : (s.modLaunch n f).cabled = s.cabled := rfl
@[simp] theorem State.modLaunch_heldOut : (s.modLaunch n f).heldOut = s.heldOut := rfl
@[simp] theorem State.modLaunch_remoteBad : (s.modLaunch n f).remoteBad = s.remoteBad := rfl
@[simp] theorem State.modLaunch_peers : (s.modLaunch n f).peers = s.peers := rfl
@[simp] theorem State.modLaunch_out : (s.modLaunch n f).out = s.out := rfl
end

section
variable (s : State) (n : Nat) (f : Cmd → Cmd)
@[simp] theorem State.modCmd_agenda : (s.modCmd n f).agenda = s.agenda := rfl
@[simp] theorem State.modCmd_issue : (s.modCmd n f).issue = s.issue := rfl
@[simp] theorem State.modCmd_cur : (s.modCmd n f).cur = s.cur := rfl
@[simp] theorem State.modCmd_freeN : (s.modCmd n f).freeN = s.freeN := rfl
@[simp] theorem State.modCmd_nextId : (s.modCmd n f).nextId = s.nextId := rfl
@[simp] theorem State.modCmd_time : (s.modCmd n f).time = s.time := rfl
@[simp] theorem State.modCmd_timePhase : (s.modCmd n f).timePhase = s.timePhase := rfl
@[simp] theorem State.modCmd_slewed : (s.modCmd n f).slewed = s.slewed := rfl
@[simp] theorem State.modCmd_slewBack : (s.modCmd n f).slewBack = s.slewBack := rfl
@[simp] theorem State.modCmd_dies : (s.modCmd n f).dies = s.dies := rfl
@[simp] theorem State.modCmd_exch : (s.modCmd n f).exch = s.exch := rfl
@[simp] theorem State.modCmd_groups : (s.modCmd n f).groups = s.groups := rfl
@[simp] theorem State.modCmd_columns : (s.modCmd n f).columns = s.columns := rfl
@[simp] theorem State.modCmd_saved : (s.modCmd n f).saved = s.saved := rfl
@[simp] theorem State.modCmd_launches : (s.modCmd n f).launches = s.launches := rfl
@[simp] theorem State.modCmd_submitted : (s.modCmd n f).submitted = s.submitted := rfl
@[simp] theorem State.modCmd_nextLaunch : (s.modCmd n f).nextLaunch = s.nextLaunch := rfl
@[simp] theorem State.modCmd_cores : (s.modCmd n f).cores = s.cores := rfl
@[simp] theorem State.modCmd_lastPlace : (s.modCmd n f).lastPlace = s.lastPlace := rfl
@[simp] theorem State.modCmd_mems : (s.modCmd n f).mems = s.mems := rfl
@[simp] theorem State.modCmd_l1 : (s.modCmd n f).l1 = s.l1 := rfl
@[simp] theorem State.modCmd_l2 : (s.modCmd n f).l2 = s.l2 := rfl
@[simp] theorem State.modCmd_code : (s.modCmd n f).code = s.code := rfl
@[simp] theorem State.modCmd_tlb : (s.modCmd n f).tlb = s.tlb := rfl
@[simp] theorem State.modCmd_walks : (s.modCmd n f).walks = s.walks := rfl
@[simp] theorem State.modCmd_codeReqs : (s.modCmd n f).codeReqs = s.codeReqs := rfl
@[simp] theorem State.modCmd_accs : (s.modCmd n f).accs = s.accs := rfl
@[simp] theorem State.modCmd_faults : (s.modCmd n f).faults = s.faults := rfl
@[simp] theorem State.modCmd_refaulted : (s.modCmd n f).refaulted = s.refaulted := rfl
@[simp] theorem State.modCmd_stamp : (s.modCmd n f).stamp = s.stamp := rfl
@[simp] theorem State.modCmd_ordLog : (s.modCmd n f).ordLog = s.ordLog := rfl
@[simp] theorem State.modCmd_cmds : (s.modCmd n f).cmds = updWhere (·.id == n) f s.cmds := rfl
@[simp] theorem State.modCmd_held : (s.modCmd n f).held = s.held := rfl
@[simp] theorem State.modCmd_routes : (s.modCmd n f).routes = s.routes := rfl
@[simp] theorem State.modCmd_shadows : (s.modCmd n f).shadows = s.shadows := rfl
@[simp] theorem State.modCmd_collect : (s.modCmd n f).collect = s.collect := rfl
@[simp] theorem State.modCmd_collSeq : (s.modCmd n f).collSeq = s.collSeq := rfl
@[simp] theorem State.modCmd_swm : (s.modCmd n f).swm = s.swm := rfl
@[simp] theorem State.modCmd_freezes : (s.modCmd n f).freezes = s.freezes := rfl
@[simp] theorem State.modCmd_frzReqs : (s.modCmd n f).frzReqs = s.frzReqs := rfl
@[simp] theorem State.modCmd_thawReqs : (s.modCmd n f).thawReqs = s.thawReqs := rfl
@[simp] theorem State.modCmd_bias : (s.modCmd n f).bias = s.bias := rfl
@[simp] theorem State.modCmd_flips : (s.modCmd n f).flips = s.flips := rfl
@[simp] theorem State.modCmd_flip : (s.modCmd n f).flip = s.flip := rfl
@[simp] theorem State.modCmd_bridge : (s.modCmd n f).bridge = s.bridge := rfl
@[simp] theorem State.modCmd_hostReqs : (s.modCmd n f).hostReqs = s.hostReqs := rfl
@[simp] theorem State.modCmd_heldHost : (s.modCmd n f).heldHost = s.heldHost := rfl
@[simp] theorem State.modCmd_heldRecs : (s.modCmd n f).heldRecs = s.heldRecs := rfl
@[simp] theorem State.modCmd_migration : (s.modCmd n f).migration = s.migration := rfl
@[simp] theorem State.modCmd_migCount : (s.modCmd n f).migCount = s.migCount := rfl
@[simp] theorem State.modCmd_promoted : (s.modCmd n f).promoted = s.promoted := rfl
@[simp] theorem State.modCmd_refreshSlot : (s.modCmd n f).refreshSlot = s.refreshSlot := rfl
@[simp] theorem State.modCmd_ctxs : (s.modCmd n f).ctxs = s.ctxs := rfl
@[simp] theorem State.modCmd_mgmt : (s.modCmd n f).mgmt = s.mgmt := rfl
@[simp] theorem State.modCmd_quiesce : (s.modCmd n f).quiesce = s.quiesce := rfl
@[simp] theorem State.modCmd_fw : (s.modCmd n f).fw = s.fw := rfl
@[simp] theorem State.modCmd_comms : (s.modCmd n f).comms = s.comms := rfl
@[simp] theorem State.modCmd_podRoutes : (s.modCmd n f).podRoutes = s.podRoutes := rfl
@[simp] theorem State.modCmd_links : (s.modCmd n f).links = s.links := rfl
@[simp] theorem State.modCmd_linkRx : (s.modCmd n f).linkRx = s.linkRx := rfl
@[simp] theorem State.modCmd_linkSeq : (s.modCmd n f).linkSeq = s.linkSeq := rfl
@[simp] theorem State.modCmd_txSeq : (s.modCmd n f).txSeq = s.txSeq := rfl
@[simp] theorem State.modCmd_linkStop : (s.modCmd n f).linkStop = s.linkStop := rfl
@[simp] theorem State.modCmd_retry : (s.modCmd n f).retry = s.retry := rfl
@[simp] theorem State.modCmd_cabled : (s.modCmd n f).cabled = s.cabled := rfl
@[simp] theorem State.modCmd_heldOut : (s.modCmd n f).heldOut = s.heldOut := rfl
@[simp] theorem State.modCmd_remoteBad : (s.modCmd n f).remoteBad = s.remoteBad := rfl
@[simp] theorem State.modCmd_peers : (s.modCmd n f).peers = s.peers := rfl
@[simp] theorem State.modCmd_out : (s.modCmd n f).out = s.out := rfl
end

section
variable (s : State) (n : Nat) (f : Acc → Acc)
@[simp] theorem State.modAcc_agenda : (s.modAcc n f).agenda = s.agenda := rfl
@[simp] theorem State.modAcc_issue : (s.modAcc n f).issue = s.issue := rfl
@[simp] theorem State.modAcc_cur : (s.modAcc n f).cur = s.cur := rfl
@[simp] theorem State.modAcc_freeN : (s.modAcc n f).freeN = s.freeN := rfl
@[simp] theorem State.modAcc_nextId : (s.modAcc n f).nextId = s.nextId := rfl
@[simp] theorem State.modAcc_time : (s.modAcc n f).time = s.time := rfl
@[simp] theorem State.modAcc_timePhase : (s.modAcc n f).timePhase = s.timePhase := rfl
@[simp] theorem State.modAcc_slewed : (s.modAcc n f).slewed = s.slewed := rfl
@[simp] theorem State.modAcc_slewBack : (s.modAcc n f).slewBack = s.slewBack := rfl
@[simp] theorem State.modAcc_dies : (s.modAcc n f).dies = s.dies := rfl
@[simp] theorem State.modAcc_exch : (s.modAcc n f).exch = s.exch := rfl
@[simp] theorem State.modAcc_groups : (s.modAcc n f).groups = s.groups := rfl
@[simp] theorem State.modAcc_columns : (s.modAcc n f).columns = s.columns := rfl
@[simp] theorem State.modAcc_saved : (s.modAcc n f).saved = s.saved := rfl
@[simp] theorem State.modAcc_launches : (s.modAcc n f).launches = s.launches := rfl
@[simp] theorem State.modAcc_submitted : (s.modAcc n f).submitted = s.submitted := rfl
@[simp] theorem State.modAcc_nextLaunch : (s.modAcc n f).nextLaunch = s.nextLaunch := rfl
@[simp] theorem State.modAcc_cores : (s.modAcc n f).cores = s.cores := rfl
@[simp] theorem State.modAcc_lastPlace : (s.modAcc n f).lastPlace = s.lastPlace := rfl
@[simp] theorem State.modAcc_mems : (s.modAcc n f).mems = s.mems := rfl
@[simp] theorem State.modAcc_l1 : (s.modAcc n f).l1 = s.l1 := rfl
@[simp] theorem State.modAcc_l2 : (s.modAcc n f).l2 = s.l2 := rfl
@[simp] theorem State.modAcc_code : (s.modAcc n f).code = s.code := rfl
@[simp] theorem State.modAcc_tlb : (s.modAcc n f).tlb = s.tlb := rfl
@[simp] theorem State.modAcc_walks : (s.modAcc n f).walks = s.walks := rfl
@[simp] theorem State.modAcc_codeReqs : (s.modAcc n f).codeReqs = s.codeReqs := rfl
@[simp] theorem State.modAcc_accs : (s.modAcc n f).accs = updWhere (·.id == n) f s.accs := rfl
@[simp] theorem State.modAcc_faults : (s.modAcc n f).faults = s.faults := rfl
@[simp] theorem State.modAcc_refaulted : (s.modAcc n f).refaulted = s.refaulted := rfl
@[simp] theorem State.modAcc_stamp : (s.modAcc n f).stamp = s.stamp := rfl
@[simp] theorem State.modAcc_ordLog : (s.modAcc n f).ordLog = s.ordLog := rfl
@[simp] theorem State.modAcc_cmds : (s.modAcc n f).cmds = s.cmds := rfl
@[simp] theorem State.modAcc_held : (s.modAcc n f).held = s.held := rfl
@[simp] theorem State.modAcc_routes : (s.modAcc n f).routes = s.routes := rfl
@[simp] theorem State.modAcc_shadows : (s.modAcc n f).shadows = s.shadows := rfl
@[simp] theorem State.modAcc_collect : (s.modAcc n f).collect = s.collect := rfl
@[simp] theorem State.modAcc_collSeq : (s.modAcc n f).collSeq = s.collSeq := rfl
@[simp] theorem State.modAcc_swm : (s.modAcc n f).swm = s.swm := rfl
@[simp] theorem State.modAcc_freezes : (s.modAcc n f).freezes = s.freezes := rfl
@[simp] theorem State.modAcc_frzReqs : (s.modAcc n f).frzReqs = s.frzReqs := rfl
@[simp] theorem State.modAcc_thawReqs : (s.modAcc n f).thawReqs = s.thawReqs := rfl
@[simp] theorem State.modAcc_bias : (s.modAcc n f).bias = s.bias := rfl
@[simp] theorem State.modAcc_flips : (s.modAcc n f).flips = s.flips := rfl
@[simp] theorem State.modAcc_flip : (s.modAcc n f).flip = s.flip := rfl
@[simp] theorem State.modAcc_bridge : (s.modAcc n f).bridge = s.bridge := rfl
@[simp] theorem State.modAcc_hostReqs : (s.modAcc n f).hostReqs = s.hostReqs := rfl
@[simp] theorem State.modAcc_heldHost : (s.modAcc n f).heldHost = s.heldHost := rfl
@[simp] theorem State.modAcc_heldRecs : (s.modAcc n f).heldRecs = s.heldRecs := rfl
@[simp] theorem State.modAcc_migration : (s.modAcc n f).migration = s.migration := rfl
@[simp] theorem State.modAcc_migCount : (s.modAcc n f).migCount = s.migCount := rfl
@[simp] theorem State.modAcc_promoted : (s.modAcc n f).promoted = s.promoted := rfl
@[simp] theorem State.modAcc_refreshSlot : (s.modAcc n f).refreshSlot = s.refreshSlot := rfl
@[simp] theorem State.modAcc_ctxs : (s.modAcc n f).ctxs = s.ctxs := rfl
@[simp] theorem State.modAcc_mgmt : (s.modAcc n f).mgmt = s.mgmt := rfl
@[simp] theorem State.modAcc_quiesce : (s.modAcc n f).quiesce = s.quiesce := rfl
@[simp] theorem State.modAcc_fw : (s.modAcc n f).fw = s.fw := rfl
@[simp] theorem State.modAcc_comms : (s.modAcc n f).comms = s.comms := rfl
@[simp] theorem State.modAcc_podRoutes : (s.modAcc n f).podRoutes = s.podRoutes := rfl
@[simp] theorem State.modAcc_links : (s.modAcc n f).links = s.links := rfl
@[simp] theorem State.modAcc_linkRx : (s.modAcc n f).linkRx = s.linkRx := rfl
@[simp] theorem State.modAcc_linkSeq : (s.modAcc n f).linkSeq = s.linkSeq := rfl
@[simp] theorem State.modAcc_txSeq : (s.modAcc n f).txSeq = s.txSeq := rfl
@[simp] theorem State.modAcc_linkStop : (s.modAcc n f).linkStop = s.linkStop := rfl
@[simp] theorem State.modAcc_retry : (s.modAcc n f).retry = s.retry := rfl
@[simp] theorem State.modAcc_cabled : (s.modAcc n f).cabled = s.cabled := rfl
@[simp] theorem State.modAcc_heldOut : (s.modAcc n f).heldOut = s.heldOut := rfl
@[simp] theorem State.modAcc_remoteBad : (s.modAcc n f).remoteBad = s.remoteBad := rfl
@[simp] theorem State.modAcc_peers : (s.modAcc n f).peers = s.peers := rfl
@[simp] theorem State.modAcc_out : (s.modAcc n f).out = s.out := rfl
end

section
variable (s : State) (k : LineKey) (f : L2Line → L2Line)
@[simp] theorem State.modL2_agenda : (s.modL2 k f).agenda = s.agenda := rfl
@[simp] theorem State.modL2_issue : (s.modL2 k f).issue = s.issue := rfl
@[simp] theorem State.modL2_cur : (s.modL2 k f).cur = s.cur := rfl
@[simp] theorem State.modL2_freeN : (s.modL2 k f).freeN = s.freeN := rfl
@[simp] theorem State.modL2_nextId : (s.modL2 k f).nextId = s.nextId := rfl
@[simp] theorem State.modL2_time : (s.modL2 k f).time = s.time := rfl
@[simp] theorem State.modL2_timePhase : (s.modL2 k f).timePhase = s.timePhase := rfl
@[simp] theorem State.modL2_slewed : (s.modL2 k f).slewed = s.slewed := rfl
@[simp] theorem State.modL2_slewBack : (s.modL2 k f).slewBack = s.slewBack := rfl
@[simp] theorem State.modL2_dies : (s.modL2 k f).dies = s.dies := rfl
@[simp] theorem State.modL2_exch : (s.modL2 k f).exch = s.exch := rfl
@[simp] theorem State.modL2_groups : (s.modL2 k f).groups = s.groups := rfl
@[simp] theorem State.modL2_columns : (s.modL2 k f).columns = s.columns := rfl
@[simp] theorem State.modL2_saved : (s.modL2 k f).saved = s.saved := rfl
@[simp] theorem State.modL2_launches : (s.modL2 k f).launches = s.launches := rfl
@[simp] theorem State.modL2_submitted : (s.modL2 k f).submitted = s.submitted := rfl
@[simp] theorem State.modL2_nextLaunch : (s.modL2 k f).nextLaunch = s.nextLaunch := rfl
@[simp] theorem State.modL2_cores : (s.modL2 k f).cores = s.cores := rfl
@[simp] theorem State.modL2_lastPlace : (s.modL2 k f).lastPlace = s.lastPlace := rfl
@[simp] theorem State.modL2_mems : (s.modL2 k f).mems = s.mems := rfl
@[simp] theorem State.modL2_l1 : (s.modL2 k f).l1 = s.l1 := rfl
@[simp] theorem State.modL2_l2 : (s.modL2 k f).l2 = updWhere (·.key == k) f s.l2 := rfl
@[simp] theorem State.modL2_code : (s.modL2 k f).code = s.code := rfl
@[simp] theorem State.modL2_tlb : (s.modL2 k f).tlb = s.tlb := rfl
@[simp] theorem State.modL2_walks : (s.modL2 k f).walks = s.walks := rfl
@[simp] theorem State.modL2_codeReqs : (s.modL2 k f).codeReqs = s.codeReqs := rfl
@[simp] theorem State.modL2_accs : (s.modL2 k f).accs = s.accs := rfl
@[simp] theorem State.modL2_faults : (s.modL2 k f).faults = s.faults := rfl
@[simp] theorem State.modL2_refaulted : (s.modL2 k f).refaulted = s.refaulted := rfl
@[simp] theorem State.modL2_stamp : (s.modL2 k f).stamp = s.stamp := rfl
@[simp] theorem State.modL2_ordLog : (s.modL2 k f).ordLog = s.ordLog := rfl
@[simp] theorem State.modL2_cmds : (s.modL2 k f).cmds = s.cmds := rfl
@[simp] theorem State.modL2_held : (s.modL2 k f).held = s.held := rfl
@[simp] theorem State.modL2_routes : (s.modL2 k f).routes = s.routes := rfl
@[simp] theorem State.modL2_shadows : (s.modL2 k f).shadows = s.shadows := rfl
@[simp] theorem State.modL2_collect : (s.modL2 k f).collect = s.collect := rfl
@[simp] theorem State.modL2_collSeq : (s.modL2 k f).collSeq = s.collSeq := rfl
@[simp] theorem State.modL2_swm : (s.modL2 k f).swm = s.swm := rfl
@[simp] theorem State.modL2_freezes : (s.modL2 k f).freezes = s.freezes := rfl
@[simp] theorem State.modL2_frzReqs : (s.modL2 k f).frzReqs = s.frzReqs := rfl
@[simp] theorem State.modL2_thawReqs : (s.modL2 k f).thawReqs = s.thawReqs := rfl
@[simp] theorem State.modL2_bias : (s.modL2 k f).bias = s.bias := rfl
@[simp] theorem State.modL2_flips : (s.modL2 k f).flips = s.flips := rfl
@[simp] theorem State.modL2_flip : (s.modL2 k f).flip = s.flip := rfl
@[simp] theorem State.modL2_bridge : (s.modL2 k f).bridge = s.bridge := rfl
@[simp] theorem State.modL2_hostReqs : (s.modL2 k f).hostReqs = s.hostReqs := rfl
@[simp] theorem State.modL2_heldHost : (s.modL2 k f).heldHost = s.heldHost := rfl
@[simp] theorem State.modL2_heldRecs : (s.modL2 k f).heldRecs = s.heldRecs := rfl
@[simp] theorem State.modL2_migration : (s.modL2 k f).migration = s.migration := rfl
@[simp] theorem State.modL2_migCount : (s.modL2 k f).migCount = s.migCount := rfl
@[simp] theorem State.modL2_promoted : (s.modL2 k f).promoted = s.promoted := rfl
@[simp] theorem State.modL2_refreshSlot : (s.modL2 k f).refreshSlot = s.refreshSlot := rfl
@[simp] theorem State.modL2_ctxs : (s.modL2 k f).ctxs = s.ctxs := rfl
@[simp] theorem State.modL2_mgmt : (s.modL2 k f).mgmt = s.mgmt := rfl
@[simp] theorem State.modL2_quiesce : (s.modL2 k f).quiesce = s.quiesce := rfl
@[simp] theorem State.modL2_fw : (s.modL2 k f).fw = s.fw := rfl
@[simp] theorem State.modL2_comms : (s.modL2 k f).comms = s.comms := rfl
@[simp] theorem State.modL2_podRoutes : (s.modL2 k f).podRoutes = s.podRoutes := rfl
@[simp] theorem State.modL2_links : (s.modL2 k f).links = s.links := rfl
@[simp] theorem State.modL2_linkRx : (s.modL2 k f).linkRx = s.linkRx := rfl
@[simp] theorem State.modL2_linkSeq : (s.modL2 k f).linkSeq = s.linkSeq := rfl
@[simp] theorem State.modL2_txSeq : (s.modL2 k f).txSeq = s.txSeq := rfl
@[simp] theorem State.modL2_linkStop : (s.modL2 k f).linkStop = s.linkStop := rfl
@[simp] theorem State.modL2_retry : (s.modL2 k f).retry = s.retry := rfl
@[simp] theorem State.modL2_cabled : (s.modL2 k f).cabled = s.cabled := rfl
@[simp] theorem State.modL2_heldOut : (s.modL2 k f).heldOut = s.heldOut := rfl
@[simp] theorem State.modL2_remoteBad : (s.modL2 k f).remoteBad = s.remoteBad := rfl
@[simp] theorem State.modL2_peers : (s.modL2 k f).peers = s.peers := rfl
@[simp] theorem State.modL2_out : (s.modL2 k f).out = s.out := rfl
end

section
variable (s : State) (n : Nat) (f : Freeze → Freeze)
@[simp] theorem State.modFreeze_agenda : (s.modFreeze n f).agenda = s.agenda := rfl
@[simp] theorem State.modFreeze_issue : (s.modFreeze n f).issue = s.issue := rfl
@[simp] theorem State.modFreeze_cur : (s.modFreeze n f).cur = s.cur := rfl
@[simp] theorem State.modFreeze_freeN : (s.modFreeze n f).freeN = s.freeN := rfl
@[simp] theorem State.modFreeze_nextId : (s.modFreeze n f).nextId = s.nextId := rfl
@[simp] theorem State.modFreeze_time : (s.modFreeze n f).time = s.time := rfl
@[simp] theorem State.modFreeze_timePhase : (s.modFreeze n f).timePhase = s.timePhase := rfl
@[simp] theorem State.modFreeze_slewed : (s.modFreeze n f).slewed = s.slewed := rfl
@[simp] theorem State.modFreeze_slewBack : (s.modFreeze n f).slewBack = s.slewBack := rfl
@[simp] theorem State.modFreeze_dies : (s.modFreeze n f).dies = s.dies := rfl
@[simp] theorem State.modFreeze_exch : (s.modFreeze n f).exch = s.exch := rfl
@[simp] theorem State.modFreeze_groups : (s.modFreeze n f).groups = s.groups := rfl
@[simp] theorem State.modFreeze_columns : (s.modFreeze n f).columns = s.columns := rfl
@[simp] theorem State.modFreeze_saved : (s.modFreeze n f).saved = s.saved := rfl
@[simp] theorem State.modFreeze_launches : (s.modFreeze n f).launches = s.launches := rfl
@[simp] theorem State.modFreeze_submitted : (s.modFreeze n f).submitted = s.submitted := rfl
@[simp] theorem State.modFreeze_nextLaunch : (s.modFreeze n f).nextLaunch = s.nextLaunch := rfl
@[simp] theorem State.modFreeze_cores : (s.modFreeze n f).cores = s.cores := rfl
@[simp] theorem State.modFreeze_lastPlace : (s.modFreeze n f).lastPlace = s.lastPlace := rfl
@[simp] theorem State.modFreeze_mems : (s.modFreeze n f).mems = s.mems := rfl
@[simp] theorem State.modFreeze_l1 : (s.modFreeze n f).l1 = s.l1 := rfl
@[simp] theorem State.modFreeze_l2 : (s.modFreeze n f).l2 = s.l2 := rfl
@[simp] theorem State.modFreeze_code : (s.modFreeze n f).code = s.code := rfl
@[simp] theorem State.modFreeze_tlb : (s.modFreeze n f).tlb = s.tlb := rfl
@[simp] theorem State.modFreeze_walks : (s.modFreeze n f).walks = s.walks := rfl
@[simp] theorem State.modFreeze_codeReqs : (s.modFreeze n f).codeReqs = s.codeReqs := rfl
@[simp] theorem State.modFreeze_accs : (s.modFreeze n f).accs = s.accs := rfl
@[simp] theorem State.modFreeze_faults : (s.modFreeze n f).faults = s.faults := rfl
@[simp] theorem State.modFreeze_refaulted : (s.modFreeze n f).refaulted = s.refaulted := rfl
@[simp] theorem State.modFreeze_stamp : (s.modFreeze n f).stamp = s.stamp := rfl
@[simp] theorem State.modFreeze_ordLog : (s.modFreeze n f).ordLog = s.ordLog := rfl
@[simp] theorem State.modFreeze_cmds : (s.modFreeze n f).cmds = s.cmds := rfl
@[simp] theorem State.modFreeze_held : (s.modFreeze n f).held = s.held := rfl
@[simp] theorem State.modFreeze_routes : (s.modFreeze n f).routes = s.routes := rfl
@[simp] theorem State.modFreeze_shadows : (s.modFreeze n f).shadows = s.shadows := rfl
@[simp] theorem State.modFreeze_collect : (s.modFreeze n f).collect = s.collect := rfl
@[simp] theorem State.modFreeze_collSeq : (s.modFreeze n f).collSeq = s.collSeq := rfl
@[simp] theorem State.modFreeze_swm : (s.modFreeze n f).swm = s.swm := rfl
@[simp] theorem State.modFreeze_freezes : (s.modFreeze n f).freezes = updWhere (·.id == n) f s.freezes := rfl
@[simp] theorem State.modFreeze_frzReqs : (s.modFreeze n f).frzReqs = s.frzReqs := rfl
@[simp] theorem State.modFreeze_thawReqs : (s.modFreeze n f).thawReqs = s.thawReqs := rfl
@[simp] theorem State.modFreeze_bias : (s.modFreeze n f).bias = s.bias := rfl
@[simp] theorem State.modFreeze_flips : (s.modFreeze n f).flips = s.flips := rfl
@[simp] theorem State.modFreeze_flip : (s.modFreeze n f).flip = s.flip := rfl
@[simp] theorem State.modFreeze_bridge : (s.modFreeze n f).bridge = s.bridge := rfl
@[simp] theorem State.modFreeze_hostReqs : (s.modFreeze n f).hostReqs = s.hostReqs := rfl
@[simp] theorem State.modFreeze_heldHost : (s.modFreeze n f).heldHost = s.heldHost := rfl
@[simp] theorem State.modFreeze_heldRecs : (s.modFreeze n f).heldRecs = s.heldRecs := rfl
@[simp] theorem State.modFreeze_migration : (s.modFreeze n f).migration = s.migration := rfl
@[simp] theorem State.modFreeze_migCount : (s.modFreeze n f).migCount = s.migCount := rfl
@[simp] theorem State.modFreeze_promoted : (s.modFreeze n f).promoted = s.promoted := rfl
@[simp] theorem State.modFreeze_refreshSlot : (s.modFreeze n f).refreshSlot = s.refreshSlot := rfl
@[simp] theorem State.modFreeze_ctxs : (s.modFreeze n f).ctxs = s.ctxs := rfl
@[simp] theorem State.modFreeze_mgmt : (s.modFreeze n f).mgmt = s.mgmt := rfl
@[simp] theorem State.modFreeze_quiesce : (s.modFreeze n f).quiesce = s.quiesce := rfl
@[simp] theorem State.modFreeze_fw : (s.modFreeze n f).fw = s.fw := rfl
@[simp] theorem State.modFreeze_comms : (s.modFreeze n f).comms = s.comms := rfl
@[simp] theorem State.modFreeze_podRoutes : (s.modFreeze n f).podRoutes = s.podRoutes := rfl
@[simp] theorem State.modFreeze_links : (s.modFreeze n f).links = s.links := rfl
@[simp] theorem State.modFreeze_linkRx : (s.modFreeze n f).linkRx = s.linkRx := rfl
@[simp] theorem State.modFreeze_linkSeq : (s.modFreeze n f).linkSeq = s.linkSeq := rfl
@[simp] theorem State.modFreeze_txSeq : (s.modFreeze n f).txSeq = s.txSeq := rfl
@[simp] theorem State.modFreeze_linkStop : (s.modFreeze n f).linkStop = s.linkStop := rfl
@[simp] theorem State.modFreeze_retry : (s.modFreeze n f).retry = s.retry := rfl
@[simp] theorem State.modFreeze_cabled : (s.modFreeze n f).cabled = s.cabled := rfl
@[simp] theorem State.modFreeze_heldOut : (s.modFreeze n f).heldOut = s.heldOut := rfl
@[simp] theorem State.modFreeze_remoteBad : (s.modFreeze n f).remoteBad = s.remoteBad := rfl
@[simp] theorem State.modFreeze_peers : (s.modFreeze n f).peers = s.peers := rfl
@[simp] theorem State.modFreeze_out : (s.modFreeze n f).out = s.out := rfl
end

section
variable (s : State) (o : Output)
@[simp] theorem State.send_agenda : (s.send o).agenda = s.agenda := rfl
@[simp] theorem State.send_issue : (s.send o).issue = s.issue := rfl
@[simp] theorem State.send_cur : (s.send o).cur = s.cur := rfl
@[simp] theorem State.send_freeN : (s.send o).freeN = s.freeN := rfl
@[simp] theorem State.send_nextId : (s.send o).nextId = s.nextId := rfl
@[simp] theorem State.send_time : (s.send o).time = s.time := rfl
@[simp] theorem State.send_timePhase : (s.send o).timePhase = s.timePhase := rfl
@[simp] theorem State.send_slewed : (s.send o).slewed = s.slewed := rfl
@[simp] theorem State.send_slewBack : (s.send o).slewBack = s.slewBack := rfl
@[simp] theorem State.send_dies : (s.send o).dies = s.dies := rfl
@[simp] theorem State.send_exch : (s.send o).exch = s.exch := rfl
@[simp] theorem State.send_groups : (s.send o).groups = s.groups := rfl
@[simp] theorem State.send_columns : (s.send o).columns = s.columns := rfl
@[simp] theorem State.send_saved : (s.send o).saved = s.saved := rfl
@[simp] theorem State.send_launches : (s.send o).launches = s.launches := rfl
@[simp] theorem State.send_submitted : (s.send o).submitted = s.submitted := rfl
@[simp] theorem State.send_nextLaunch : (s.send o).nextLaunch = s.nextLaunch := rfl
@[simp] theorem State.send_cores : (s.send o).cores = s.cores := rfl
@[simp] theorem State.send_lastPlace : (s.send o).lastPlace = s.lastPlace := rfl
@[simp] theorem State.send_mems : (s.send o).mems = s.mems := rfl
@[simp] theorem State.send_l1 : (s.send o).l1 = s.l1 := rfl
@[simp] theorem State.send_l2 : (s.send o).l2 = s.l2 := rfl
@[simp] theorem State.send_code : (s.send o).code = s.code := rfl
@[simp] theorem State.send_tlb : (s.send o).tlb = s.tlb := rfl
@[simp] theorem State.send_walks : (s.send o).walks = s.walks := rfl
@[simp] theorem State.send_codeReqs : (s.send o).codeReqs = s.codeReqs := rfl
@[simp] theorem State.send_accs : (s.send o).accs = s.accs := rfl
@[simp] theorem State.send_faults : (s.send o).faults = s.faults := rfl
@[simp] theorem State.send_refaulted : (s.send o).refaulted = s.refaulted := rfl
@[simp] theorem State.send_stamp : (s.send o).stamp = s.stamp := rfl
@[simp] theorem State.send_ordLog : (s.send o).ordLog = s.ordLog := rfl
@[simp] theorem State.send_cmds : (s.send o).cmds = s.cmds := rfl
@[simp] theorem State.send_held : (s.send o).held = s.held := rfl
@[simp] theorem State.send_routes : (s.send o).routes = s.routes := rfl
@[simp] theorem State.send_shadows : (s.send o).shadows = s.shadows := rfl
@[simp] theorem State.send_collect : (s.send o).collect = s.collect := rfl
@[simp] theorem State.send_collSeq : (s.send o).collSeq = s.collSeq := rfl
@[simp] theorem State.send_swm : (s.send o).swm = s.swm := rfl
@[simp] theorem State.send_freezes : (s.send o).freezes = s.freezes := rfl
@[simp] theorem State.send_frzReqs : (s.send o).frzReqs = s.frzReqs := rfl
@[simp] theorem State.send_thawReqs : (s.send o).thawReqs = s.thawReqs := rfl
@[simp] theorem State.send_bias : (s.send o).bias = s.bias := rfl
@[simp] theorem State.send_flips : (s.send o).flips = s.flips := rfl
@[simp] theorem State.send_flip : (s.send o).flip = s.flip := rfl
@[simp] theorem State.send_bridge : (s.send o).bridge = s.bridge := rfl
@[simp] theorem State.send_hostReqs : (s.send o).hostReqs = s.hostReqs := rfl
@[simp] theorem State.send_heldHost : (s.send o).heldHost = s.heldHost := rfl
@[simp] theorem State.send_heldRecs : (s.send o).heldRecs = s.heldRecs := rfl
@[simp] theorem State.send_migration : (s.send o).migration = s.migration := rfl
@[simp] theorem State.send_migCount : (s.send o).migCount = s.migCount := rfl
@[simp] theorem State.send_promoted : (s.send o).promoted = s.promoted := rfl
@[simp] theorem State.send_refreshSlot : (s.send o).refreshSlot = s.refreshSlot := rfl
@[simp] theorem State.send_ctxs : (s.send o).ctxs = s.ctxs := rfl
@[simp] theorem State.send_mgmt : (s.send o).mgmt = s.mgmt := rfl
@[simp] theorem State.send_quiesce : (s.send o).quiesce = s.quiesce := rfl
@[simp] theorem State.send_fw : (s.send o).fw = s.fw := rfl
@[simp] theorem State.send_comms : (s.send o).comms = s.comms := rfl
@[simp] theorem State.send_podRoutes : (s.send o).podRoutes = s.podRoutes := rfl
@[simp] theorem State.send_links : (s.send o).links = s.links := rfl
@[simp] theorem State.send_linkRx : (s.send o).linkRx = s.linkRx := rfl
@[simp] theorem State.send_linkSeq : (s.send o).linkSeq = s.linkSeq := rfl
@[simp] theorem State.send_txSeq : (s.send o).txSeq = s.txSeq := rfl
@[simp] theorem State.send_linkStop : (s.send o).linkStop = s.linkStop := rfl
@[simp] theorem State.send_retry : (s.send o).retry = s.retry := rfl
@[simp] theorem State.send_cabled : (s.send o).cabled = s.cabled := rfl
@[simp] theorem State.send_heldOut : (s.send o).heldOut = s.heldOut := rfl
@[simp] theorem State.send_remoteBad : (s.send o).remoteBad = s.remoteBad := rfl
@[simp] theorem State.send_peers : (s.send o).peers = s.peers := rfl
@[simp] theorem State.send_out : (s.send o).out = s.out ++ [o] := rfl
end

end Sys2Proof.Machine
end

