-- ==== Sys2Proof/Laws/Teller.lean ====
section
/-! SUPPORT. What a teller instruction does to its group, said once for each of its endings. -/

namespace Sys2Proof.Machine

/-- The current teller's group stands in the state, and the current step issues for it. -/
theorem State.curTeller_spec {s : State} {g : Group} (h : s.curTeller = some g) :
    s.group? g.id = some g ∧ s.cur = some (.teller g.id) ∧ s.tellerReady g = true := by
  unfold State.curTeller at h
  split at h
  · rename_i gid hc
    split at h
    · rename_i x hx
      split at h
      · rename_i hr
        cases h
        have hid := State.group?_id hx
        exact ⟨by rw [hid]; exact hx, by rw [hc, hid], hr⟩
      · cases h
    · cases h
  · cases h

/-- A change of one group's teller leaves every other group, and everything else, as it was. -/
theorem State.modTeller_spec {u : State} {gid : GroupId} {g : Group} (h : u.group? gid = some g) (f : Teller → Teller) :
    u.modTeller gid f = { u with groups := (u.modTeller gid f).groups } ∧
    (u.modTeller gid f).group? gid = some { g with teller := f g.teller } ∧
    ∀ k, k ≠ gid → (u.modTeller gid f).group? k = u.group? k := by
  have hm : ∀ k, (u.modTeller gid f).group? k = (u.group? k).map fun x => if x.id == gid then { x with teller := f x.teller } else x :=
    fun k => State.group?_modGroup u k gid (fun x => { x with teller := f x.teller }) (fun _ => rfl)
  refine ⟨rfl, ?_, fun k hk => ?_⟩
  · rw [hm, h]
    simp [State.group?_id h]
  · rw [hm]
    cases hx : u.group? k with
    | none => rfl
    | some x =>
      have : x.id ≠ gid := by rw [State.group?_id hx]; exact hk
      simp [this]

/-- The registers after results; a write to s0 is discarded (R31). -/
theorem Teller.complete_eq (t : Teller) (ws : List (BitVec 6 × Word)) (pc : Addr) (ready : Nat) :
    t.complete ws pc ready =
      { t with s := ws.foldl (fun r w => if w.1 = 0 then r else r.set w.1.toNat w.2) t.s, pc := pc, ready := ready, wait := none } := by
  unfold Teller.complete
  induction ws generalizing t with
  | nil => rfl
  | cons w ws ih =>
    rw [List.foldl_cons, List.foldl_cons, ih]
    unfold Teller.setReg
    split <;> rfl

/-! ## The endings of a teller instruction -/

theorem tellerOp_done {s u : State} {g : Group} {act : State → Group → TEnd} {ws : List (BitVec 6 × Word)} {n : Nat}
    (h : s.curTeller = some g) (ha : act s g = .done u ws n) :
    tellerOp act s = .next (u.modTeller g.id fun t => t.complete ws (t.pc + 4) (s.cycle g.core + n)) := by
  simp [tellerOp, h, ha]

theorem tellerOp_jump {s u : State} {g : Group} {act : State → Group → TEnd} {target : Addr} {stack : List Addr} {n : Nat}
    (h : s.curTeller = some g) (ha : act s g = .jump u target stack n) :
    tellerOp act s = .next (u.modTeller g.id fun t => { t.complete [] target (s.cycle g.core + n) with rstack := stack }) := by
  simp [tellerOp, h, ha]

theorem tellerOp_wait {s u : State} {g : Group} {act : State → Group → TEnd} {w : Wait} (h : s.curTeller = some g) (ha : act s g = .wait u w) :
    tellerOp act s = .next (u.modTeller g.id fun t => { t with wait := some w }) := by
  simp [tellerOp, h, ha]

theorem tellerOp_trap {s : State} {g : Group} {act : State → Group → TEnd} {cls code : Nat} {va : Addr} (h : s.curTeller = some g)
    (ha : act s g = .trap cls code va) : tellerOp act s = .next (s.takeTrap g.id (Trap.ofTeller cls code g.id g.teller.pc va)) := by
  simp [tellerOp, h, ha]

/-! ## The trap of a column that runs -/

theorem State.column?_modColumn (s : State) (a b : ColId) (f : Column → Column) (hf : ∀ c, (f c).id = c.id) :
    (s.modColumn a f).column? b = (s.column? b).map fun c => if c.id == a then f c else c := by
  simp only [State.column?, State.modColumn]
  exact find?_updWhere _ _ _ (fun c => by simp [hf]) _

/-- A trap of a column that is not stopping: the column stops for it, and neither groups, memory, columns' own data nor anything else but
the context's TRAPSEQ change (R367, R368). -/
theorem State.takeTrap_spec {s : State} {g : GroupId} {c : Column} (hc : s.column? g.column = some c) (hs : c.stop = none) (t : Trap) :
    s.takeTrap g t = { s with columns := (s.takeTrap g t).columns, ctxs := (s.takeTrap g t).ctxs } ∧
    ∃ st, (s.takeTrap g t).stopOf g.column = some st ∧ st.reason = .trap ∧ st.begun = false ∧ st.trap = some t := by
  have hid : c.id = g.column := by simpa using List.find?_some hc
  unfold State.takeTrap
  simp only [hc, hs, Stop.raise, if_true]
  refine ⟨rfl, ⟨.trap, false, some t, (s.ctxAt c.ctx).trapSeq, s.time, s.cycle c.core, [], none, none, [], []⟩, ?_, rfl, rfl, rfl⟩
  unfold State.stopOf
  have hq : ∀ (u : State) k f, (u.modCtx k f).column? g.column = u.column? g.column := fun _ _ _ => rfl
  refine (congrArg (fun x => Option.bind x Column.stop) ((hq _ _ _).trans (State.column?_modColumn s _ _ _ ?_))).trans ?_
  · exact fun _ => rfl
  · simp [hc, hid]

end Sys2Proof.Machine
end

