-- ==== Sys2Proof/Machine/Objects.lean ====
section
/-! DEFINITION. Code objects as the loader Jialmush reads and writes them: 02_objects R44, R47 to R50, R52, R53, R55 to R58, R60, R420. This is
host software: the machine's step never reaches it, and what it writes enters the machine as HOST_MEM_WRITE events. The distributor's own checks
(R51) stand in Launches. -/

namespace Sys2Proof.Machine

/-- Why Jialmush does not load an object (R47, R53, R420). -/
inductive LoadError where
  | magic | layoutVersion | reserved
  | pastSize (i : Nat)
  | overlapping (i j : Nat)
  | unknownSection (i : Nat)
  | twice (typ : Nat)
  | exports | imports
  | noUsableImage
  deriving DecidableEq, Repr

/-! ## Sections (R44, R47) -/

/-- An entry of the section table (R47). -/
structure ObjSection where
  typ : Nat
  optional : Bool
  align : Nat
  off : Nat
  len : Nat
  reserved : Bool
  deriving DecidableEq, Repr

/-- Entry `i` of an object's section table. -/
def sectionAt (o : List Byte) (i : Nat) : ObjSection :=
  let e := numAt o (numAt o 16 4 + 16 * i) 16
  { typ := bits e 0 8, optional := e.testBit 8, align := bits e 16 8, off := bits e 32 32, len := bits e 64 32,
    reserved := bits e 9 7 != 0 || bits e 24 8 != 0 || bits e 96 32 != 0 }
/-- SECCNT entries. -/
def sectionsOf (o : List Byte) : List ObjSection := (List.range (numAt o 20 2)).map (sectionAt o)
/-- The types of R47: CODE, DATA, KHDR, EXPORT, IMPORT, STRTAB, CLOUND. -/
def ObjSection.known (s : ObjSection) : Bool := decide (1 ≤ s.typ ∧ s.typ ≤ 7)
/-- Bytes in common. A section of LENGTH 0 strictly inside another counts as overlapping it: the model's choice (log 128). -/
def ObjSection.overlaps (s t : ObjSection) : Bool := decide (s.off < t.off + t.len ∧ t.off < s.off + s.len)
/-- A section's bytes. -/
def bytesOfSection (o : List Byte) (s : ObjSection) : List Byte := slice o s.off s.len
/-- The first section of a type. -/
def sectionOf? (o : List Byte) (typ : Nat) : Option ObjSection := (sectionsOf o).find? (·.typ == typ)
/-- The header of kernel `k` (R48). -/
def kernelHeader (o : List Byte) (k : Nat) : List Byte := slice o (numAt o 28 4 + 64 * k) 64
/-- A reserved field of the object header, a section entry or a kernel header is non-zero. -/
def reservedSet (o : List Byte) : Bool :=
  numAt o 32 32 != 0 || (sectionsOf o).any (·.reserved) || (List.range (numAt o 22 2)).any fun k =>
    let h := kernelHeader o k
    fieldAt h 0 29 3 != 0 || fieldAt h 0 39 1 != 0 || fieldAt h 0 60 4 != 0 || fieldAt h 0 224 288 != 0

/-! ## Names, exports, imports (R420) -/

/-- The name that starts at an offset of STRTAB: 1 to 255 bytes and a zero byte. -/
def nameAt (strtab : List Byte) (off : Nat) : Option (List Byte) :=
  let name := (strtab.drop off).takeWhile (· != 0)
  if (off == 0 || strtab.getD (off - 1) 1 == 0) && decide (1 ≤ name.length ∧ name.length ≤ 255 ∧ off + name.length < strtab.length) then some name
  else none
/-- STRTAB. -/
def strtabOf (o : List Byte) : List Byte := match sectionOf? o 6 with | some s => bytesOfSection o s | none => []
/-- An offset inside a CODE section. -/
def inCode (o : List Byte) (off : Nat) : Bool := (sectionsOf o).any fun s => s.typ == 1 && decide (s.off ≤ off ∧ off < s.off + s.len)
/-- The entries of the EXPORT section: name, entry parcel, and whether the rest is zero. -/
def exportEntries (o : List Byte) : List (Option (List Byte) × Nat × Bool) :=
  match sectionOf? o 4 with
  | none => []
  | some s => (List.range (s.len / 16)).map fun i =>
    let e := numAt o (s.off + 16 * i) 16
    (nameAt (strtabOf o) (bits e 0 32), bits e 32 32, bits e 64 64 == 0)
/-- The entries of the IMPORT section: name, and whether the rest is zero. -/
def importEntries (o : List Byte) : List (Option (List Byte) × Bool) :=
  match sectionOf? o 5 with
  | none => []
  | some s => (List.range (s.len / 8)).map fun i =>
    let e := numAt o (s.off + 8 * i) 8
    (nameAt (strtabOf o) (bits e 0 32), bits e 32 32 == 0)
/-- A section's length is not a multiple of its entries'. -/
def raggedSection (o : List Byte) (typ n : Nat) : Bool := match sectionOf? o typ with | some s => s.len % n != 0 | none => false
/-- EXPORT breaks R420. -/
def badExports (o : List Byte) : Bool :=
  let es := exportEntries o
  raggedSection o 4 16 || es.any (fun e => e.1.isNone || e.2.1 % 2 != 0 || !inCode o e.2.1 || !e.2.2) || !decide ((es.map (·.1)).Nodup)
/-- IMPORT breaks R420. -/
def badImports (o : List Byte) : Bool := raggedSection o 5 8 || (importEntries o).any fun e => e.1.isNone || !e.2

/-- What Jialmush finds wrong with an object, in the order in which it looks (R47, R420). -/
def objectError? (o : List Byte) : Option LoadError :=
  let ss := sectionsOf o
  let n := ss.length
  let at_ (i : Nat) : ObjSection := sectionAt o i
  if numAt o 0 4 ≠ 0x4C554743 then some .magic
  else if numAt o 4 2 ≠ 1 then some .layoutVersion
  else if reservedSet o then some .reserved
  else match (List.range n).find? fun i => decide (numAt o 24 4 < (at_ i).off + (at_ i).len) with
  | some i => some (.pastSize i)
  | none => match (List.range n).findSome? fun j => ((List.range j).find? fun i => (at_ i).overlaps (at_ j)).map fun i => (i, j) with
  | some (i, j) => some (.overlapping i j)
  | none => match (List.range n).find? fun i => !(at_ i).known && !(at_ i).optional with
  | some i => some (.unknownSection i)
  | none => match [4, 5, 6].find? fun t => decide (1 < (ss.filter (·.typ == t)).length) with
  | some t => some (.twice t)
  | none => if badExports o then some .exports else if badImports o then some .imports else none

/-- What R44, R47 and R48 say of a well-made object beyond what Jialmush checks: ranges, alignments, its length. -/
def objectFormed (o : List Byte) : Bool :=
  let ss := sectionsOf o
  numAt o 7 1 == 4 && numAt o 16 4 % 16 == 0 && decide (1 ≤ ss.length ∧ ss.length ≤ 1024) && decide (numAt o 22 2 ≤ 4096)
    && numAt o 24 4 == o.length && numAt o 28 4 % 64 == 0
    && ss.all fun s => decide (2 ≤ s.align ∧ s.align ≤ 21) && s.off % 2 ^ s.align == 0

/-- Every strand and the teller of a kernel lie in CODE sections (R49). -/
def kernelInCode (o : List Byte) (k : Nat) : Bool :=
  let h := kernelHeader o k
  let table := numAt h 16 4
  let toff := numAt h 8 4
  let tlen := numAt h 12 4
  table % 4 == 0 && ((List.range 16).all fun n =>
      let off := numAt o (table + 4 * n) 4
      if h.length == 64 && (numAt h 0 2).testBit n then off % 2 == 0 && off != 0 && inCode o off else off == 0)
    && (if toff == 0 then tlen == 0
        else toff % 4 == 0 && (sectionsOf o).any fun s => s.typ == 1 && decide (s.off ≤ toff ∧ toff + tlen ≤ s.off + s.len))

/-! ## Loading (R50) -/

/-- Adds LINKOFF to the OFFSET field of the address word at a byte offset of the object. -/
def relocateAt (linkoff : Nat) (o : List Byte) (at_ : Nat) : List Byte :=
  let w := numAt o at_ 4
  patch o at_ (leBytes 4 (w / 2 ^ 26 * 2 ^ 26 + (w + linkoff) % 2 ^ 26))
/-- Writes LINKOFF into the header of a kernel whose IMPORTS is set. -/
def linkKernel (linkoff : Nat) (o : List Byte) (k : Nat) : List Byte :=
  if fieldAt (kernelHeader o k) 0 23 1 = 1 then patch o (numAt o 28 4 + 64 * k + 24) (leBytes 4 linkoff) else o
/-- The object as it is mapped: LINKOFF in its headers and in every relocated operand. -/
def loadObject (linkoff : Nat) (relocations : List Nat) (o : List Byte) : List Byte :=
  (List.range (numAt o 22 2)).foldl (linkKernel linkoff) (relocations.foldl (relocateAt linkoff) o)

/-! ## Fat objects (R52, R53) -/

/-- An image entry of a fat object. -/
structure Image where
  off : Nat
  len : Nat
  features : Nat
  minor : Nat
  major : Nat
  deriving DecidableEq, Repr

/-- The image entries of a fat object, where its wrapper is right. -/
def fatImages (o : List Byte) : Option (List Image) :=
  let n := numAt o 4 2
  let entry (i : Nat) : Nat := numAt o (16 + 32 * i) 32
  if numAt o 0 4 ≠ 0x4C554746 ∨ n = 0 ∨ 64 < n ∨ numAt o 6 10 ≠ 0 ∨ (List.range n).any (fun i => bits (entry i) 208 48 != 0) then none
  else some ((List.range n).map fun i =>
    { off := bits (entry i) 0 64, len := bits (entry i) 64 64, features := bits (entry i) 128 64, minor := bits (entry i) 192 8,
      major := bits (entry i) 200 8 })
/-- What Jialmush takes of a fat object. -/
inductive Chosen where
  | image (i : Nat)
  | clound (i : Nat)
  deriving DecidableEq, Repr
/-- How many features an image requires. -/
def Image.featureCount (x : Image) : Nat := ((List.range 64).filter x.features.testBit).length
/-- Every required feature is available (R45). -/
def Image.available (present masked : BitVec 64) (x : Image) : Bool :=
  (List.range 64).all fun b => !x.features.testBit b || (decide (b < 8) && present.getLsbD b && !masked.getLsbD b)
/-- The largest of a list's numbers, 0 for none. -/
def largest (xs : List Nat) : Nat := xs.foldl max 0
/-- R53, step by step. -/
def selectImage (present masked : BitVec 64) (xs : List Image) : Except LoadError Chosen :=
  let is := (List.range xs.length).zip xs
  let native := is.filter fun x => x.2.major == 4 && decide (x.2.minor ≤ 2)
  let usable := native.filter fun x => x.2.available present masked
  let newest := usable.filter fun x => x.2.minor == largest (usable.map fun y => y.2.minor)
  let richest := newest.filter fun x => x.2.featureCount == largest (newest.map fun y => y.2.featureCount)
  match richest with
  | x :: _ => .ok (.image x.1)
  | [] => match is.find? fun x => x.2.major == 0 with
    | some x => .ok (.clound x.1)
    | none => .error .noUsableImage

/-! ## The linkage area (R56 to R60) -/

/-- The FNV-1a hash of 64 bits (R57), its constants taken from its published definition (log 111). -/
def fnv1a (bs : List Byte) : BitVec 64 := bs.foldl (fun h b => (h ^^^ b.setWidth 64) * 0x100000001B3) 0xCBF29CE484222325
/-- A slot of the export hash (R57). -/
structure LinkSlot where
  hash : BitVec 64
  target : BitVec 64
  objid : Nat
  resolves : Nat
  nameoff : Nat
  deriving DecidableEq, Repr
/-- Its 32 bytes. -/
def LinkSlot.bytes (s : LinkSlot) : List Byte :=
  leBytes 32 (packFields [(s.hash.toNat, 64), (s.target.toNat, 64), (s.objid, 32), (s.resolves, 32), (s.nameoff, 32)])
/-- A slot read from a linkage area. -/
def linkSlotAt (area : List Byte) (j : Nat) : LinkSlot :=
  let e := numAt area (numAt area 4 4 + 32 * j) 32
  { hash := BitVec.ofNat 64 e, target := BitVec.ofNat 64 (bits e 64 64), objid := bits e 128 32, resolves := bits e 160 32,
    nameoff := bits e 192 32 }
/-- A slot that holds nothing. -/
def LinkSlot.empty (s : LinkSlot) : Bool := s.hash == 0 && s.target == 0
/-- The slots in the order of linear probing from a hash, each once. -/
def probes (area : List Byte) (h : BitVec 64) : List Nat :=
  let n := numAt area 0 4 + 1
  (List.range n).map fun i => (h.toNat + i) % n
/-- Where Jialmush places an export: the first empty slot from its hash on; a name whose hash is 0 is refused. A second object that exports the
same name gets a slot of its own, behind the first, which the resolver finds: the model's choice (log 128). -/
def exportSlot? (area : List Byte) (name : List Byte) : Option Nat :=
  if fnv1a name = 0 then none else (probes area (fnv1a name)).find? fun j => (linkSlotAt area j).empty
/-- The writes that insert an export into a running context, in their order: offset in the area, bytes, and whether the write is a release at
system scope (R60). -/
def exportWrites (area : List Byte) (j : Nat) (s : LinkSlot) : List (Nat × List Byte × Bool) :=
  let at_ := numAt area 4 4 + 32 * j
  [(at_ + 8, leBytes 8 s.target.toNat, false), (at_ + 16, leBytes 4 s.objid, false), (at_ + 24, leBytes 4 s.nameoff, false),
   (at_ + 20, leBytes 4 0, false), (at_, leBytes 8 s.hash.toNat, true)]
/-- The string copy: each name once with its offset; a new name follows the last (R57). -/
def internName (strs : List (List Byte × Nat)) (next : Nat) (name : List Byte) : List (List Byte × Nat) × Nat × Nat :=
  match strs.find? (·.1 == name) with
  | some x => (strs, next, x.2)
  | none => (strs ++ [(name, next)], next + name.length + 1, next)
/-- An entry of an import-name table (R57). -/
def importName (nameoff len : Nat) : List Byte := leBytes 8 (packFields [(nameoff, 32), (len, 8)])
/-- The linkage table of an object with its import-name table below it: what Jialmush writes from LINKOFF − 8n on (R57, R58). -/
def linkTable (names : List (Nat × Nat)) (trampolines : List Nat) : List Byte :=
  names.reverse.flatMap (fun x => importName x.1 x.2) ++ trampolines.flatMap (leBytes 8)

/-- What the resolver comes to (R58): the target with the area as it leaves it, the trap of an unresolved import, or a probe without end. -/
inductive Resolution where
  | jump (target : BitVec 64) (area : List Byte)
  | unresolved
  | endless
  deriving DecidableEq, Repr
/-- The slot that ends the resolver's probe: empty, or the name's. -/
def probeEnd (area : List Byte) (h : BitVec 64) (nameoff : Nat) : Option Nat :=
  (probes area h).find? fun j => let s := linkSlotAt area j; s.empty || (s.hash == h && s.nameoff == nameoff)
/-- The resolver on one strand, over the bytes of the linkage area (R58). -/
def resolve (area : List Byte) (linkoff i : Nat) : Resolution :=
  let ne := numAt area (linkoff - 8 * (i + 1)) 8
  let nameoff := bits ne 0 32
  let h := fnv1a (slice area nameoff (bits ne 32 8))
  match probeEnd area h nameoff with
  | none => .endless
  | some j =>
    let s := linkSlotAt area j
    if s.empty then .unresolved
    else
      let counted := patch area (numAt area 4 4 + 32 * j + 20) (leBytes 4 (s.resolves + 1))
      .jump s.target (patch counted (linkoff + 8 * i) (leBytes 8 s.target.toNat))

/-! ## The calling convention (R55) -/

/-- Elements and flags over a call: e16 to e31 come back unchanged, and no flag that was set is clear. -/
def callKeeps (before after : Strand) : Bool :=
  after.e.drop 16 == before.e.drop 16 &&
    (!before.flags.nv || after.flags.nv) && (!before.flags.dz || after.flags.dz) && (!before.flags.of || after.flags.of)
    && (!before.flags.uf || after.flags.uf) && (!before.flags.am || after.flags.am)
/-- The instruction reads the decision queue. -/
def readsQueue : Form → Bool
  | .e _ f => f.b == .dq
  | _ => false
/-- Instructions that an exported function may hold: no `put` and no `drop`, no decision queue, no `lend`, no crew instruction. -/
def calleeMay (i : Instr) : Bool :=
  match i with
  | .put _ _ _ _ | .drop _ _ | .lend _ | .sPut1 _ _ | .sPutSticky _ _ | .sDrop _ _ | .voteAny _ | .voteAll _ | .voteBallot _ | .perm _ | .shfx _
  | .shup _ | .shdn _ | .csum _ | .cmax _ => false
  | _ => match i.form with | some f => !readsQueue f | none => false

end Sys2Proof.Machine
end

