-- ==== Sys2Proof/Machine/Assembly.lean ====
section
/-! DEFINITION. The assembly language of 05_encoding R99 and R117 to R120, as a function from text to words and kernel headers. Like the loader it
is host software: the machine's step never reaches it. -/

namespace Sys2Proof.Asm

open Sys2Proof.Machine

/-- Why a line does not assemble (R117 to R120). -/
inductive AsmError where
  | syntax_
  | mnemonic (m : String)
  | suffix (m : String)
  | operands (m : String)
  | range (m : String)
  | fields (m : String)
  | label (n : String)
  | reach (n : String)
  | directive (d : String)
  deriving DecidableEq, Repr

/-! ## Characters and numbers -/

/-- The parts of a text between separators. -/
def pieces (sep : Char → Bool) (cs : List Char) : List (List Char) :=
  cs.foldr (fun c acc => if sep c then [] :: acc else match acc with | x :: xs => (c :: x) :: xs | [] => [[c]]) [[]]
/-- A blank. -/
def blank (c : Char) : Bool := c == ' ' || c == '\t'
/-- Without the blanks around it. -/
def trim (cs : List Char) : List Char := ((cs.dropWhile blank).reverse.dropWhile blank).reverse
/-- A character of a name. -/
def nameChar (c : Char) : Bool := c.isAlphanum || c == '_' || c == '.'
/-- The value of a digit. -/
def digit? (base : Nat) (c : Char) : Option Nat :=
  let v := if '0' ≤ c ∧ c ≤ '9' then c.toNat - 48 else if 'a' ≤ c ∧ c ≤ 'f' then c.toNat - 87 else if 'A' ≤ c ∧ c ≤ 'F' then c.toNat - 55 else 99
  if v < base then some v else none
/-- Digits of a base, underscores between them. -/
def digits? (base : Nat) (cs : List Char) : Option Nat :=
  let ds := cs.filter (· != '_')
  if ds.isEmpty then none else ds.foldl (fun acc c => match acc, digit? base c with | some v, some d => some (v * base + d) | _, _ => none) (some 0)
/-- A number without a sign: decimal, or hexadecimal after 0x. -/
def natOf? : List Char → Option Nat
  | '0' :: 'x' :: cs => digits? 16 cs
  | cs => digits? 10 cs
/-- A number with a sign. -/
def intOf? : List Char → Option Int
  | '-' :: cs => (digits? 10 cs).map fun n => -(n : Int)
  | cs => (natOf? cs).map Int.ofNat

/-- The FP32 code nearest to `p / q` by RNE, subnormal codes kept, a value beyond the range to infinity (R117). -/
def floatCode (neg : Bool) (p q : Nat) : Word :=
  let near (e : Int) : Nat :=               -- p / q in units of 2^e
    let a := if e < 0 then p * 2 ^ e.natAbs else p
    let b := if e < 0 then q else q * 2 ^ e.natAbs
    let n := a / b
    let r := a % b
    if 2 * r > b ∨ (2 * r = b ∧ n % 2 = 1) then n + 1 else n
  let up (e : Int) : Bool := if e < 0 then decide (q ≤ p * 2 ^ e.natAbs) else decide (q * 2 ^ e.natAbs ≤ p)   -- 2^e ≤ p / q
  let e0 : Int := (p.log2 : Int) - q.log2
  let e := max (if up e0 then e0 else e0 - 1) (-126)
  let code := if p = 0 then 0 else (e + 126).toNat * 2 ^ 23 + near (e - 23)
  BitVec.ofBool neg ++ BitVec.ofNat 31 (min code 0x7F800000)
/-- A decimal fraction such as 1.5 (R117). -/
def floatOf? (cs : List Char) : Option Word :=
  let (neg, cs) := match cs with | '-' :: r => (true, r) | _ => (false, cs)
  match pieces (· == '.') cs with
  | [whole, part] =>
    match digits? 10 whole, digits? 10 part with
    | some _, some _ => (digits? 10 (whole ++ part)).map fun p => floatCode neg p (10 ^ (part.filter (· != '_')).length)
    | _, _ => none
  | _ => none

/-! ## Operands (R117) -/

/-- An operand as it is written. -/
inductive Opd where
  | elem (n : Nat)
  | win (w : Win)
  | swap                                    -- lo<hi, hi<lo
  | gpr (n : Nat)
  | coins (n k : Nat)                       -- gN:k; k = 0 is gN:s
  | int (v : Int)
  | flt (w : Word)
  | dq
  | mem (seg g : Nat) (off : Int)
  | memName (seg g : Nat) (name : String)   -- an imported name for its offset
  | sreg (n : Nat)
  | nf (k : Nat)
  | name (s : String)
  deriving DecidableEq, Repr

/-- `xN` with N below a bound. -/
def numbered (pre : List Char) (bound : Nat) (cs : List Char) : Option Nat :=
  if pre.isPrefixOf cs && (cs.drop pre.length).all (·.isDigit) then (digits? 10 (cs.drop pre.length)).filter (· < bound) else none

/-- An offset that follows a register in a memory operand: its sign and its text. -/
def offsetOf (seg g : Nat) (neg : Bool) (cs : List Char) : Option Opd :=
  match natOf? cs with
  | some n => some (.mem seg g (if neg then -(n : Int) else n))
  | none => if !neg && !cs.isEmpty && cs.all nameChar && !(cs.headD '0').isDigit then some (.memName seg g (String.ofList cs)) else none
/-- What stands between the brackets of a memory operand. -/
def memOf? (cs : List Char) : Option Opd :=
  match (pieces (· == '+') cs).map trim with
  | [g] =>
    match numbered ['g'] 64 g with
    | some n => some (.mem 0 n 0)
    | none => none
  | [s, r] =>
    match numbered ['s'] 8 s, pieces (· == '-') r with
    | some k, [g] => (numbered ['g'] 64 g).map fun n => .mem k n 0
    | some k, [g, o] => (numbered ['g'] 64 (trim g)).bind fun n => offsetOf k n true (trim o)
    | _, _ => none
  | [s, g, o] =>
    match numbered ['s'] 8 s, numbered ['g'] 64 g with
    | some k, some n => offsetOf k n false o
    | _, _ => none
  | _ => none

/-- One operand. -/
def opdOf? (cs : List Char) : Option Opd :=
  if cs == ['l', 'o'] then some (.win .lo) else if cs == ['h', 'i'] then some (.win .hi) else if cs == ['a', 'l', 'l'] then some (.win .all)
  else if cs == ['l', 'o', '<', 'h', 'i'] ∨ cs == ['h', 'i', '<', 'l', 'o'] then some .swap
  else if cs == ['d', 'q'] then some .dq
  else match cs with
  | '#' :: v => match intOf? v with | some i => some (.int i) | none => (floatOf? v).map .flt
  | '[' :: r => if r.getLast? == some ']' then memOf? r.dropLast else none
  | _ =>
    match numbered ['e'] 32 cs, numbered ['g'] 64 cs, numbered ['s'] 64 cs, numbered ['n', 'f'] 8 cs with
    | some n, _, _, _ => some (.elem n)
    | _, some n, _, _ => some (.gpr n)
    | _, _, some n, _ => some (.sreg n)
    | _, _, _, some n => some (.nf n)
    | none, none, none, none =>
      match pieces (· == ':') cs with
      | [g, k] => (numbered ['g'] 64 g).bind fun n => if k == ['s'] then some (.coins n 0) else ((digits? 10 k).filter fun k => decide (1 ≤ k ∧ k ≤ 7)).map (.coins n)
      | [n] => if !n.isEmpty && n.all nameChar && !(n.headD '0').isDigit then some (.name (String.ofList n)) else none
      | _ => none

/-! ## Lines (R117) -/

/-- A statement: label, then an instruction with its operands and `!n`, or a directive with its words. -/
inductive Body where
  | none
  | inst (mnem : List String) (ops : List Opd) (w : Option (BitVec 3))
  | dir (name : String) (args : List (List Char))
  deriving DecidableEq, Repr

/-- A line of the source. -/
structure Line where
  label : Option String
  body : Body
  deriving DecidableEq, Repr

/-- The label that opens a line, and what follows it. -/
def labelOf (cs : List Char) : Option String × List Char :=
  let cs := trim cs
  let n := cs.takeWhile nameChar
  if n.isEmpty then (none, cs) else match cs.drop n.length with | ':' :: rest => (some (String.ofList n), trim rest) | _ => (none, cs)
/-- Operands, or none where one cannot be read. -/
def opdsOf (cs : List Char) : Option (List Opd) :=
  if (trim cs).isEmpty then some [] else (pieces (· == ',') cs).mapM fun c => opdOf? (trim c)
/-- `!n`, where it is written, and the text before it. -/
def stallOf (cs : List Char) : Option (List Char × Option (BitVec 3)) :=
  match pieces (· == '!') cs with
  | [a] => some (a, none)
  | [a, n] => match trim n with | [c] => (digit? 8 c).map fun d => (a, some (BitVec.ofNat 3 d)) | _ => none
  | _ => none
/-- One line. -/
def lineOf (cs : List Char) : Except AsmError Line :=
  let (label, rest) := labelOf (cs.takeWhile (· != ';'))
  if rest.isEmpty then .ok { label := label, body := .none }
  else
    let word := rest.takeWhile (fun c => !blank c)
    let args := trim (rest.drop word.length)
    match word with
    | '.' :: d => .ok { label := label, body := .dir (String.ofList d) ((pieces (fun c => c == ',' || blank c) args).filter (!·.isEmpty)) }
    | _ =>
      match stallOf args with
      | none => .error .syntax_
      | some (a, w) =>
        match opdsOf a with
        | none => .error (.operands (String.ofList word))
        | some ops => .ok { label := label, body := .inst ((pieces (· == '.') word).map String.ofList) ops w }

/-! ## Mnemonics (R105 to R108, R111) -/

/-- How a strand mnemonic takes its operands. -/
inductive Op where
  | two (op : Nat)                 -- d, b: two-operand, unary and window shapes (R153)
  | withX (op : Nat)               -- d, x, b
  | shuffle (op : Nat)             -- d, x, b; win, b
  | clr | put | drop | sread | lend
  | vote (x : Nat)
  | nf (op : Nat)                  -- d, b, nfK
  | scalar (op : Nat)              -- ed, mem
  | window (op : Nat)              -- win, mem
  | windowNf (op : Nat)            -- win, mem, nfK
  | noDest (op win : Nat)          -- mem
  | atom (op aop : Nat)            -- ed, mem
  | fence (scope : Nat)
  | jump (op : Nat)                -- label
  | gprJump (op : Nat)             -- gN, label
  | elemJump (op sop : Nat)        -- gN, label; e0, label
  | low (op : Nat)                 -- ed in IMM13[4:0]
  | high (op v : Nat)              -- ed in IMM13[9:5]
  | hint (v : Nat)
  | code (op : Nat)
  | nullary (op sop : Nat)         -- sop 0x40: no short form
  | barrier (op : Nat)             -- #b, #n
  | barw | evpost
  | sync (op v : Nat)              -- ed, gN
  deriving DecidableEq, Repr

/-- Names in ascending code order from a first code, as R108 lists them. -/
def codes (mk : Nat → Op) (first : Nat) (names : List String) : List (String × Op) :=
  (List.range names.length).zip names |>.map fun x => (x.2, mk (first + x.1))

/-- The E class (R108), by the shapes of R153, R155 to R190. -/
def eNames : List (String × Op) :=
  codes .two 0x00 ["add", "sub", "rsub", "mul", "mulhs", "mulhn"] ++ codes .withX 0x06 ["mad"]
  ++ codes .two 0x07 ["mins", "maxs", "minn", "maxn", "and", "or", "xor", "andn", "shl", "shrn", "shrs", "rol", "popc", "clz", "brev", "bfxs", "bfxn"]
  ++ codes .withX 0x18 ["bfi", "lea"] ++ codes .two 0x1A ["ceq", "cne", "clts", "cles", "cltn", "clen"]
  ++ codes .two 0x20 ["fadd", "fsub", "fmul"] ++ codes .withX 0x23 ["ffma", "ffms", "fnma"]
  ++ codes .two 0x26 ["fmin", "fmax", "fminnm", "fmaxnm", "fceq", "fclt", "fcle", "fcun"] ++ codes .withX 0x2E ["fsel"]
  ++ codes .two 0x2F ["fcpsgn", "ffloor", "fceil", "ftrunc", "frnd"] ++ codes .withX 0x34 ["fsacc"]
  ++ codes .two 0x35 ["hadd2", "hmul2"] ++ codes .withX 0x37 ["hfma2"] ++ codes .two 0x38 ["badd2", "bmul2"] ++ codes .withX 0x3A ["bfma2"]
  ++ codes .two 0x40 ["cvt.f32.s32", "cvt.f32.n32", "cvt.s32.f32", "cvt.n32.f32", "cvt.f32.f16", "cvt.f16.f32", "cvt.f32.bf16", "cvt.bf16.f32"]
  ++ codes .two 0x48 ["cvt.f32.e4m3", "cvt.e4m3.f32", "cvt.f32.e5m2", "cvt.e5m2.f32"] ++ codes .nf 0x4C ["cvt.f32.nf", "cvt.nf.f32"]
  ++ codes .two 0x4E ["pack4"] ++ codes .withX 0x4F ["unpk4"]
  ++ codes .two 0x50 ["rcpsd", "rsqsd", "rcp", "rsq", "ex2", "lg2", "sinpi", "cospi", "tanh", "sigm", "rmax", "rsum", "cmax", "csum", "mskr", "ex2m"]
  ++ codes .two 0x60 ["mov"] ++ codes .shuffle 0x61 ["movw"] ++ [("put", .put), ("drop", .drop)] ++ codes .two 0x64 ["bcast", "iota"]
  ++ [("clr", .clr)] ++ codes .shuffle 0x67 ["perm", "shfx", "shup", "shdn"]
  ++ [("vote.any", .vote 0), ("vote.all", .vote 1), ("vote.ballot", .vote 2), ("sread", .sread), ("lend", .lend)]

/-- The atomics (R105, R237, R238). -/
def atomNames : List (String × Op) :=
  let ints (pre : String) (op : Nat) (ns : List String) := codes (.atom op) 0 (ns.map fun n => pre ++ n)
  let int8 := ["add", "and", "or", "xor", "mins", "maxs", "minn", "maxn"]
  ints "atom." 0x84 (int8 ++ ["xchg"]) ++ ints "atomf." 0x85 ["add", "min", "max"] ++ [("cas", .atom 0x86 0), ("cas64", .atom 0x87 0)]
  ++ ints "red." 0x88 int8 ++ ints "redf." 0x89 ["add", "min", "max", "ord"]

/-- The memory, branch, sync and system classes (R105 to R108). -/
def otherNames : List (String × Op) :=
  codes .scalar 0x70 ["ld.b8s", "ld.b8z", "ld.b16s", "ld.b16z", "ld.b32", "ld.b64"] ++ codes .window 0x76 ["ld.v16", "ld.v32", "ld.bf16v"]
  ++ codes .windowNf 0x79 ["ld.nfv"] ++ [("pf", .noDest 0x7A 0), ("pf.l2", .noDest 0x7A 1)]
  ++ codes .scalar 0x7C ["st.b8", "st.b16", "st.b32", "st.b64"] ++ codes .window 0x80 ["st.v16", "st.v32", "st.bf16v"]
  ++ codes .windowNf 0x83 ["st.nfv"] ++ [("cwb", .noDest 0x8B 0)] ++ codes .fence 0 ["fence.grp", "fence.dev", "fence.sys"]
  ++ [("bra", .jump 0x90), ("bz", .gprJump 0x91), ("bnz", .gprJump 0x92), ("bez", .elemJump 0x93 0x2C), ("benz", .elemJump 0x94 0x2D)]
  ++ [("call", .jump 0x95), ("callx", .low 0x96), ("ret", .nullary 0x97 0x37), ("blk", .nullary 0x98 0x2E), ("end", .nullary 0x99 0x2F)]
  ++ [("exit", .low 0x9A)] ++ codes .code 0x9B ["trap", "brk"] ++ [("bara", .barrier 0xA0), ("barw", .barw), ("bars", .barrier 0xA2)]
  ++ [("barx", .barrier 0xA3), ("sexp", .sync 0xA4 0), ("sarr", .sync 0xA5 0), ("swait", .sync 0xA6 0), ("swait.ge", .sync 0xA6 1)]
  ++ [("evpost", .evpost), ("nop", .nullary 0xB0 0x30), ("ifence", .nullary 0xB1 0x40), ("stflag", .high 0xB2 0), ("stflag.clr", .high 0xB2 1)]
  ++ [("hint.yield", .hint 0), ("hint.urgent", .hint 1)]

/-- The strand mnemonics. -/
def strandNames : List (String × Op) := eNames ++ atomNames ++ otherNames

/-- The special registers' names (R121). -/
def specialNames : List String :=
  ["LANE", "TURN", "TID", "CREW", "GRPX", "GRPY", "GRPZ", "NGRPX", "NGRPY", "NGRPZ", "STAGE", "LAUNCH", "CORE", "DIE", "TIME", "CYCLE", "GRANT"]
  ++ ["GRANTSEQ", "WSREF", "ACCSTAT"]

/-- Words joined by dots. -/
def dotted : List String → String
  | [] => ""
  | [a] => a
  | a :: r => a ++ "." ++ dotted r
/-- The longest mnemonic of a table that opens a dotted word, and the suffixes after it. -/
def longest {α : Type} (table : List (String × α)) (ws : List String) : Nat → Option (α × List String)
  | 0 => none
  | n + 1 =>
    match table.find? fun x => x.1 == dotted (ws.take (n + 1)) with
    | some x => some (x.2, ws.drop (n + 1))
    | none => longest table ws n

/-! ## Suffixes (R118) -/

/-- A suffix, with its place in the order of R118. -/
inductive Suffix where
  | satm (m : SatMode) | abs | neg | rm (m : RMode) | scale (s : Int) | scope (s : Scope) | order (o : Order) | hint (h : Hint) | long
  deriving DecidableEq, Repr
/-- Scope and order share a place. -/
def Suffix.place : Suffix → Nat
  | .satm _ => 0 | .abs => 1 | .neg => 2 | .rm _ => 3 | .scale _ => 4 | .scope _ => 5 | .order _ => 5 | .hint _ => 6 | .long => 7
/-- Two suffixes of one kind. -/
def Suffix.sameKind : Suffix → Suffix → Bool
  | .scope _, .order _ => false
  | .order _, .scope _ => false
  | a, b => a.place == b.place
/-- `.scpK` and `.scmK`: K a multiple of 4, up to 124 and 128. -/
def scaleOf (s : String) : Option Suffix :=
  let cs := s.toList
  let k? (pre : List Char) (top : Nat) := (numbered pre (top + 1) cs).filter fun k => k % 4 == 0 && k != 0
  match k? ['s', 'c', 'p'] 124, k? ['s', 'c', 'm'] 128 with
  | some k, _ => some (.scale ((k / 4 : Nat) : Int))
  | _, some k => some (.scale (-((k / 4 : Nat) : Int)))
  | _, _ => none
/-- One suffix. -/
def suffixOf (s : String) : Option Suffix :=
  match ([("sat", .satm .sat), ("clamp01", .satm .clamp01), ("clampsym", .satm .clampSym), ("abs", .abs), ("neg", .neg), ("rtz", .rm .rtz), ("rdn", .rm .rdn), ("rup", .rm .rup), ("grp", .scope .grp), ("dev", .scope .dev), ("sys", .scope .sys), ("acq", .order .acquire), ("rel", .order .release), ("ar", .order .acqRel), ("stream", .hint .stream), ("keep", .hint .keep), ("long", .long)] : List (String × Suffix)).find? (·.1 == s) with
  | some x => some x.2
  | none => scaleOf s
/-- Suffixes in order, each kind once. -/
def ordered : List Suffix → Bool
  | [] => true
  | a :: r => r.all (fun b => decide (a.place ≤ b.place) && !a.sameKind b) && ordered r
/-- The suffixes of an instruction. -/
def suffixesOf (ws : List String) : Option (List Suffix) := (ws.mapM suffixOf).filter ordered

/-- Suffixes of the modifier word. -/
def Suffix.modifies (s : Suffix) : Bool := decide (s.place ≤ 4)
/-- Suffixes of the address word. -/
def Suffix.addresses (s : Suffix) : Bool := s.place == 5 || s.place == 6
/-- The modifier word that suffixes ask for, none without one. -/
def modifierOf (ss : List Suffix) : Option Modifier :=
  if ss.any (·.modifies) then
    some (ss.foldl (fun m s => match s with | .satm x => { m with satm := x } | .abs => { m with abs := true } | .neg => { m with neg := true } | .rm x => { m with rm := x } | .scale k => { m with scale := BitVec.ofInt 6 k } | _ => m) Modifier.zero)
  else none
/-- The address word that suffixes and an offset ask for; an imported name always asks for one (R50). -/
def addressOf (ss : List Suffix) (off : Int) (named : Bool) : Option AddrWord :=
  if ss.any (·.addresses) || off != 0 || named then
    some (ss.foldl (fun a s => match s with | .scope x => { a with scope := x } | .order x => { a with order := x } | .hint x => { a with hint := x } | _ => a) { AddrWord.zero with off := BitVec.ofInt 26 off })
  else none

/-! ## Fields (R102 to R107) -/

/-- B is read as an FP32 value, so that an FP32 literal may stand there (R117, R178). -/
def floatB (op : Nat) : Bool :=
  decide (0x20 ≤ op ∧ op ≤ 0x33 ∨ 0x50 ≤ op ∧ op ≤ 0x59 ∨ op = 0x5C ∨ op = 0x5D ∨ op = 0x5F ∨ op = 0x4E)
    || [0x42, 0x43, 0x45, 0x47, 0x49, 0x4B, 0x4D].contains op
/-- The word of an integer literal. -/
def literal (v : Int) : Option Word := if -(2 ^ 31) ≤ v ∧ v < 2 ^ 32 then some (BitVec.ofInt 32 v) else none
/-- B, G and the element B names, for a destination element. -/
def bOf (op : Nat) : Opd → Option (BSrc × Nat × Option Nat)
  | .gpr n => some (.gpr, n, none)
  | .elem n => some (.elem, 0, some n)
  | .int v => (literal v).map fun w => (.lit w, 0, none)
  | .flt w => if floatB op then some (.lit w, 0, none) else none
  | .dq => some (.dq, 0, none)
  | _ => none
/-- Whether a source window is the swapped one. -/
def swapOf (wn : Win) : Opd → Option Bool
  | .win w => if w = wn then some false else none
  | .swap => some true
  | _ => none
/-- An E-class form. -/
def eForm (op : Nat) (ss : List Suffix) (g : Nat) (b : BSrc) (d : Dst) (w : BitVec 3) : Form :=
  .e (BitVec.ofNat 8 op) { mods := modifierOf ss, g := BitVec.ofNat 6 g, w := w, b := b, dst := d }
/-- One destination element and one source element. -/
def one (d x : Nat) : Dst := .one (BitVec.ofNat 5 d) (BitVec.ofNat 5 x)

/-- d, b (R102, R153). -/
def twoForm (op : Nat) (ss : List Suffix) (ops : List Opd) (w : BitVec 3) : Option Form :=
  match ops with
  | [.elem d, b] => (bOf op b).map fun (bs, g, x) => eForm op ss g bs (one d (x.getD 0)) w
  | [.win wn, b] =>
    match swapOf wn b with
    | some sw => some (eForm op ss 0 .elem (.win wn sw) w)
    | none => match b with | .elem _ => none | _ => (bOf op b).map fun (bs, g, _) => eForm op ss g bs (.win wn false) w
  | _ => none
/-- d, x, b: with BS = 01, X and B are one (R153). -/
def withXForm (op : Nat) (ss : List Suffix) (ops : List Opd) (w : BitVec 3) : Option Form :=
  match ops with
  | [.elem d, .elem x, b] =>
    (bOf op b).bind fun (bs, g, y) => if y.isNone || y == some x then some (eForm op ss g bs (one d x) w) else none
  | [.win wn, x, b] =>
    (swapOf wn x).bind fun sw =>
      match swapOf wn b with
      | some sb => if sb = sw then some (eForm op ss 0 .elem (.win wn sw) w) else none
      | none => match b with | .elem _ => none | _ => (bOf op b).map fun (bs, g, _) => eForm op ss g bs (.win wn sw) w
  | _ => none

/-- A memory operand: segment, register, offset, and the imported name whose index it needs. -/
def memoryOf (imports : List String) : Opd → Option (Nat × Nat × Int × Bool)
  | .mem s g o => some (s, g, o, false)
  | .memName s g n => (imports.idxOf? n).map fun i => (s, g, 8 * (i : Int), true)
  | _ => none
/-- An offset that OFFSET holds. -/
def offsetOk (o : Int) : Bool := decide (-(2 ^ 25) ≤ o ∧ o < 2 ^ 25)
/-- A load, store, prefetch or write-back. -/
def memForm (imports : List String) (op win d : Nat) (ss : List Suffix) (m : Opd) (w : BitVec 3) : Option (Form × Bool) :=
  (memoryOf imports m).bind fun (s, g, o, named) =>
    if offsetOk o then
      some (.mem (BitVec.ofNat 8 op) { addr := addressOf ss o named, g := BitVec.ofNat 6 g, w := w, seg := BitVec.ofNat 3 s, win := BitVec.ofNat 2 win, d := BitVec.ofNat 5 d }, named)
    else none
/-- An atomic or a reduction. -/
def atomForm (imports : List String) (op aop d : Nat) (ss : List Suffix) (m : Opd) (w : BitVec 3) : Option (Form × Bool) :=
  (memoryOf imports m).bind fun (s, g, o, named) =>
    if offsetOk o then
      some (.atom (BitVec.ofNat 8 op) (BitVec.ofNat 4 aop) { addr := addressOf ss o named, g := BitVec.ofNat 6 g, w := w, seg := BitVec.ofNat 3 s, d := BitVec.ofNat 5 d }, named)
    else none
/-- A form whose fields are G and IMM13. -/
def plain (op g imm : Nat) (w : BitVec 3) : Form := .plain (BitVec.ofNat 8 op) (BitVec.ofNat 6 g) w (BitVec.ofNat 13 imm)

/-! ## The short form (R99, R100) -/

/-- The arithmetic rows of the short map: SOP, long op8, whether X is 1. -/
def shortRegs : List (Nat × Nat × Nat) :=
  [(0x00, 0x00, 0), (0x01, 0x01, 0), (0x02, 0x03, 0), (0x03, 0x06, 1), (0x04, 0x0B, 0), (0x05, 0x0C, 0), (0x06, 0x0D, 0), (0x07, 0x0F, 0)]
  ++ [(0x08, 0x10, 0), (0x09, 0x11, 0), (0x0A, 0x07, 0), (0x0B, 0x08, 0), (0x0C, 0x1A, 0), (0x0D, 0x1C, 0), (0x0E, 0x1E, 0), (0x0F, 0x19, 1)]
  ++ [(0x18, 0x20, 0), (0x19, 0x21, 0), (0x1A, 0x22, 0), (0x1B, 0x23, 1), (0x1C, 0x24, 1), (0x1D, 0x26, 0), (0x1E, 0x27, 0), (0x1F, 0x2B, 0)]
  ++ [(0x20, 0x2C, 0), (0x21, 0x34, 1), (0x22, 0x60, 0), (0x31, 0x40, 0), (0x32, 0x42, 0), (0x33, 0x51, 0), (0x34, 0x50, 0), (0x35, 0x54, 0)]
/-- Its rows with an immediate: SOP, long op8. -/
def shortImms : List (Nat × Nat) :=
  [(0x10, 0x00), (0x11, 0x0B), (0x12, 0x0F), (0x13, 0x10), (0x14, 0x11), (0x15, 0x1A), (0x16, 0x1C), (0x17, 0x60)]
/-- Its rows with a memory operand: SOP, long op8. -/
def shortMems : List (Nat × Nat) := [(0x25, 0x74), (0x26, 0x7E), (0x27, 0x76), (0x28, 0x80), (0x29, 0x75), (0x2A, 0x7F)]

/-- The L form that an S form stands for; none for the branches and for what has no field (R99). -/
def longOf (sop : Nat) (x : BitVec 6) (w : BitVec 3) : Option Form :=
  match shortRegs.find? (·.1 == sop), shortImms.find? (·.1 == sop), shortMems.find? (·.1 == sop) with
  | some r, _, _ => some (eForm r.2.1 [] x.toNat .gpr (one 0 r.2.2) w)
  | _, some r, _ => some (eForm r.2 [] 0 (.lit (x.signExtend 32)) (one 0 0) w)
  | _, _, some r => some (.mem (BitVec.ofNat 8 r.2) { addr := none, g := x, w := w, seg := 0, win := 0, d := 0 })
  | _, _, _ => if sop = 0x23 then some (eForm 0x62 [] x.toNat .gpr (one 0 1) w) else if sop = 0x24 then some (eForm 0x62 [] x.toNat .gpr (one 0 0) w) else if sop = 0x36 then some (eForm 0x63 [] x.toNat .gpr (one 0 0) w) else none

/-- The X6 field that an L form would have in the short form. -/
def x6Of : Form → BitVec 6
  | .e _ f => match f.b with | .lit v => v.extractLsb' 0 6 | _ => f.g
  | .mem _ f => f.g
  | _ => 0
/-- The S form of an L form, where an alias matches. -/
def shortOf (f : Form) (w : BitVec 3) : Option Form :=
  ((List.range 0x37).find? fun sop => longOf sop (x6Of f) w == some f).map fun sop => .short (BitVec.ofNat 6 sop) (x6Of f) w

/-! ## Latencies (R131, R179) -/

/-- The fixed latency that the assembler counts: 0 for an interlocked instruction, 3 for a branch. -/
def latency (op : Nat) (d : Dst) : Nat :=
  let scalar := if 0x03 ≤ op ∧ op ≤ 0x06 ∨ op = 0x50 ∨ op = 0x51 then 6 else if 0x52 ≤ op ∧ op ≤ 0x59 ∨ op = 0x5F then 10
    else if op = 0x5C ∨ op = 0x5D ∨ 0x67 ≤ op ∧ op ≤ 0x6B then 14 else 4
  if op = 0x62 ∨ op = 0x63 ∨ op = 0x6D then 0 else if op = 0x5A ∨ op = 0x5B then 12
  else match d with | .one _ _ => scalar | .win .all _ => scalar + 16 | .win _ _ => scalar + 8
/-- The latency of a form. -/
def Form.latency : Form → Nat
  | .e op f => Asm.latency op.toNat f.dst
  | .plain op _ _ _ => if 0x90 ≤ op.toNat ∧ op.toNat ≤ 0x97 then 3 else if op = 0xB2#8 then 4 else 0
  | _ => 0
/-- Latencies end before it: a branch, call, `ret`, `end` or `exit` (R119). -/
def Form.flows : Form → Bool
  | .plain op _ _ _ => decide (0x90 ≤ op.toNat ∧ op.toNat ≤ 0x97) || op == 0x99#8 || op == 0x9A#8
  | _ => false
/-- With a stall count. -/
def Form.withStall (w : BitVec 3) : Form → Form
  | .short sop x _ => .short sop x w
  | .e op f => .e op { f with w := w }
  | .mem op f => .mem op { f with w := w }
  | .atom op aop f => .atom op aop { f with w := w }
  | .plain op g _ imm => .plain op g w imm
  | .far op g _ o => .far op g w o

/-! ## Items of a block -/

/-- What a block of code is made of before its branches have offsets. -/
inductive Item where
  | label (n : String)
  | op (f : Form) (named : Bool)                                   -- `named`: its offset carries a relocation (R50)
  | branch (op g : Nat) (sop : Option Nat) (long? : Bool) (to_ : String) (w : BitVec 3)
  | word (w : Word)                                                -- teller code
  | tellerBranch (op a b : Nat) (to_ : String)
  | tellerJump (op : Nat) (to_ : String)
  | bytes (bs : List Byte)
  | align (n : Nat)
  deriving DecidableEq, Repr

/-- A strand statement before its stall count. -/
inductive Draft where
  | form (f : Form) (named : Bool)
  | branch (op g : Nat) (sop : Option Nat) (long? : Bool) (to_ : String)
  deriving DecidableEq, Repr

/-- Operands against a mnemonic; `ss` are the suffixes but for `.long`. -/
def draftOf (imports : List String) (o : Op) (ss : List Suffix) (long? : Bool) (ops : List Opd) : Option Draft :=
  let form (f : Option Form) : Option Draft := f.map fun f => .form f false
  let noMem (r : Option Draft) : Option Draft := if ss.any (·.addresses) then none else r
  let noMods (r : Option Draft) : Option Draft := if ss.any (·.modifies) then none else r
  let bare (r : Option Draft) : Option Draft := if ss.isEmpty then r else none
  match o, ops with
  | .two op, _ => noMem (form (twoForm op ss ops 0))
  | .withX op, _ => noMem (form (withXForm op ss ops 0))
  | .shuffle op, [.win wn, b] =>
    bare (match b with | .win _ => none | .swap => none | .elem _ => none | _ => form ((bOf op b).map fun (bs, g, _) => eForm op ss g bs (.win wn false) 0))
  | .shuffle op, [.elem d, .elem x, b] =>
    bare (match b with | .elem _ => none | _ => form ((bOf op b).map fun (bs, g, _) => eForm op ss g bs (one d x) 0))
  | .clr, [.elem d] => bare (form (some (eForm 0x66 [] 0 .gpr (one d 0) 0)))
  | .clr, [.win wn] => bare (form (some (eForm 0x66 [] 0 .gpr (.win wn false) 0)))
  | .put, [.gpr g, .elem d] => bare (form (some (eForm 0x62 [] g .gpr (one d 1) 0)))
  | .put, [.coins g k, .elem d] => bare (form (some (eForm 0x62 [] g .gpr (one d k) 0)))
  | .drop, [.gpr g] => bare (form (some (eForm 0x63 [] g .gpr (one 0 0) 0)))
  | .sread, [.elem d, .name n] => bare (form ((specialNames.idxOf? n).map fun i => eForm 0x6C [] 0 .gpr (one d i) 0))
  | .lend, [] => bare (form (some (eForm 0x6D [] 0 .gpr (one 0 0) 0)))
  | .vote x, [.elem d] => bare (form (some (eForm 0x6B [] 0 .elem (one d x) 0)))
  | .vote x, [.elem d, b] =>
    bare (match b with | .elem _ => none | _ => form ((bOf 0x6B b).map fun (bs, g, _) => eForm 0x6B [] g bs (one d x) 0))
  | .nf op, [d, b, .nf k] =>
    match twoForm op ss [d, b] 0 with
    | some (.e o f) => if f.b == .gpr then none else noMem (form (some (.e o { f with g := BitVec.ofNat 6 k })))
    | _ => none
  | .scalar op, [.elem d, m] => noMods ((memForm imports op 0 d ss m 0).map fun x => .form x.1 x.2)
  | .window op, [.win wn, m] => noMods ((memForm imports op wn.code.toNat 0 ss m 0).map fun x => .form x.1 x.2)
  | .windowNf op, [.win wn, m, .nf k] => noMods ((memForm imports op wn.code.toNat k ss m 0).map fun x => .form x.1 x.2)
  | .noDest op win, [m] => noMods ((memForm imports op win 0 ss m 0).map fun x => .form x.1 x.2)
  | .atom op aop, [.elem d, m] => noMods ((atomForm imports op aop d ss m 0).map fun x => .form x.1 x.2)
  | .fence s, [] => bare (form (some (plain 0x8A 0 (s * 2048) 0)))
  | .jump op, [.name t] => bare (some (.branch op 0 (if op = 0x90 then some 0x2B else none) long? t))
  | .gprJump op, [.gpr g, .name t] => bare (some (.branch op g none long? t))
  | .elemJump op _, [.gpr g, .name t] => bare (some (.branch op g none long? t))
  | .elemJump op sop, [.elem d, .name t] => if d = 0 ∧ !long? then bare (some (.branch op 64 (some sop) false t)) else none
  | .low op, [.elem d] => bare (form (some (plain op 0 d 0)))
  | .high op v, [.elem d] => bare (form (some (plain op 0 (32 * d + v) 0)))
  | .hint v, [.int d] => bare (if 0 ≤ d ∧ d < 32 then form (some (plain 0xB3 0 (32 * d.toNat + v) 0)) else none)
  | .code op, [.int c] => bare (if 0 ≤ c ∧ c < 8192 then form (some (plain op 0 c.toNat 0)) else none)
  | .nullary op _, [] => bare (form (some (plain op 0 0 0)))
  | .barrier op, [.int b, .int n] => bare (if 0 ≤ b ∧ b < 16 ∧ 0 ≤ n ∧ n < 512 then form (some (plain op 0 (512 * b.toNat + n.toNat) 0)) else none)
  | .barw, [.int b] => bare (if 0 ≤ b ∧ b < 16 then form (some (plain 0xA1 0 (512 * b.toNat) 0)) else none)
  | .evpost, [.int n] => bare (if 0 ≤ n ∧ n < 15 then form (some (plain 0xA7 0 n.toNat 0)) else none)
  | .sync op v, [.elem d, .gpr g] => bare (form (some (plain op g (32 * d + v) 0)))
  | _, _ => none

/-- The short form of a form without a field (R100), or an alias. -/
def shorten (long? : Bool) (f : Form) : Form :=
  if long? then f
  else match f with
  | .plain op g w imm =>
    if g == 0 && imm == 0 then
      if op == 0x97#8 then .short 0x37 0 w else if op == 0x98#8 then .short 0x2E 0 w else if op == 0x99#8 then .short 0x2F 0 w
      else if op == 0xB0#8 then .short 0x30 0 w else f
    else f
  | .e _ g => (shortOf f g.w).getD f
  | .mem _ g => (shortOf f g.w).getD f
  | _ => f

/-! ## Stall counts (R119) -/

/-- Where the assembler stands: the earliest cycle of the next instruction, and when the latencies it tracks have ended. -/
structure Clock where
  now : Nat
  due : Nat
  deriving DecidableEq, Repr

/-- The `nop` instructions that bring `now` to `due`. -/
def padding : Nat → Clock → List Form × Clock
  | 0, k => ([], k)
  | n + 1, k =>
    if k.due ≤ k.now then ([], k)
    else
      let w := min (k.due - k.now - 1) 7
      let (fs, k) := padding n { k with now := k.now + w + 1 }
      (.short 0x30 0 (BitVec.ofNat 3 w) :: fs, k)
/-- `due` never lies more than 30 cycles ahead. -/
def padded (k : Clock) : List Form × Clock := padding 8 k
/-- The stall count of an instruction, and the clock after it. -/
def stall (lat : Nat) (w : Option (BitVec 3)) (tracked : Bool) (k : Clock) : BitVec 3 × Clock :=
  match w with
  | some n => (n, { k with now := k.now + n.toNat + 1 })
  | none =>
    let n := min (lat - 1) 7
    (BitVec.ofNat 3 n, { now := k.now + n + 1, due := if tracked then max k.due (k.now + lat) else k.due })

/-- One strand statement: the padding it needs and itself. -/
def place (d : Draft) (long? : Bool) (w : Option (BitVec 3)) (k : Clock) : List Item × Clock :=
  match d with
  | .branch op g sop l t =>
    let (fs, k) := padded k
    let (n, k) := stall 3 w false k
    (fs.map (fun f => .op f false) ++ [.branch op g sop l t n], k)
  | .form f named =>
    let (fs, k) := if Form.flows f || f.use.touch then padded k else ([], k)
    let (n, k) := stall (Form.latency f) w (f.use.touch) k
    (fs.map (fun f => .op f false) ++ [.op (shorten long? (Form.withStall n f)) named], k)

noncomputable section

/-- The instruction an item's form names keeps the rules of R102 to R107, R154 and R178. -/
def accepted (f : Form) : Bool := match f.instr with | .ok i => i.wf | .error _ => false

/-- A strand statement. -/
def strandItems (imports : List String) (ws : List String) (ops : List Opd) (w : Option (BitVec 3)) (k : Clock) : Except AsmError (List Item × Clock) :=
  match longest strandNames ws (min ws.length 3) with
  | none => .error (.mnemonic (dotted ws))
  | some (o, rest) =>
    match suffixesOf rest with
    | none => .error (.suffix (dotted ws))
    | some ss =>
      let long? := ss.contains .long
      match draftOf imports o (ss.filter (· != .long)) long? ops with
      | none => .error (.operands (dotted ws))
      | some d =>
        match d with
        | .form f _ => if accepted f then .ok (place d long? w k) else .error (.fields (dotted ws))
        | _ => .ok (place d long? w k)

end

/-! ## Teller statements (R110, R111, R258 to R284) -/

/-- How a teller mnemonic takes its operands. -/
inductive TOp where
  | dab (op fn : Nat)        -- sd, sa, sb
  | dai (op : Nat) (signed : Bool) (bits : Nat)
  | lui | qwait | read | trap | mode
  | br (op : Nat)            -- sa, sb, label
  | jump (op : Nat)          -- label
  | none_ (op imm : Nat)
  | da (op fn : Nat)         -- sd, sa
  | ab (op : Nat)            -- sa, sb
  | a (op : Nat)             -- sa
  | d (op : Nat)             -- sd
  | nfA (op : Nat)           -- nfK, sa
  | bar (v : Nat)            -- #b, sa
  deriving DecidableEq, Repr

/-- The teller mnemonics (R111). -/
def tellerNames : List (String × TOp) :=
  let fns (pre : String) (op : Nat) (ns : List String) := (List.range ns.length).zip ns |>.map fun x => (pre ++ x.2, TOp.dab op x.1)
  fns "tal." 0xC0 ["add", "sub", "mul", "mulhs", "and", "or", "xor", "shl", "shrn", "shrs", "mins", "maxs", "minn", "maxn", "slt", "sltn"]
  ++ [("taddi", .dai 0xC1 true 12), ("tandi", .dai 0xC2 false 12), ("tori", .dai 0xC3 false 12), ("txori", .dai 0xC4 false 12)]
  ++ [("tshli", .dai 0xC5 false 5), ("tshri", .dai 0xC6 false 5), ("tslti", .dai 0xC7 true 12), ("tlui", .lui)]
  ++ [("tld", .dab 0xC9 0), ("tld.d", .dab 0xC9 1), ("tst", .dab 0xCA 0), ("tst.d", .dab 0xCA 1)]
  ++ fns "tatom." 0xCB ["add", "and", "or", "xor", "mins", "maxs", "minn", "maxn", "xchg", "cas"]
  ++ [("tbeq", .br 0xCC), ("tbne", .br 0xCD), ("tblt", .br 0xCE), ("tbge", .br 0xCF), ("tjmp", .jump 0xD0), ("tcall", .jump 0xD1)]
  ++ [("tret", .none_ 0xD2 0), ("push", .da 0xD3 0), ("tqwait", .qwait), ("dqput", .ab 0xD5), ("evwait", .da 0xD6 0), ("evwait.clr", .da 0xD6 1)]
  ++ [("evroute", .ab 0xD7), ("tswait", .dab 0xD8 0), ("tsexp", .ab 0xD9), ("frz", .dab 0xDA 0), ("thaw", .a 0xDB), ("thwait", .a 0xDC)]
  ++ [("publ", .a 0xDD), ("setfmt", .nfA 0xDE), ("setxv", .nfA 0xDF), ("ratio", .d 0xE0), ("rreq", .a 0xE1), ("tbar.arv", .bar 0), ("tbar.sync", .bar 1)]
  ++ [("tread", .read), ("gdone", .none_ 0xE4 0), ("ttrap", .trap), ("tfence.grp", .none_ 0xE6 0), ("tfence.dev", .none_ 0xE6 1)]
  ++ [("tfence.sys", .none_ 0xE6 2), ("sfmode", .mode), ("tnop", .none_ 0xE8 0)]

/-- A TR word. -/
def tr (op d a b fn : Nat) : Word := wordTR (BitVec.ofNat 8 op) (BitVec.ofNat 6 d) (BitVec.ofNat 6 a) (BitVec.ofNat 6 b) (BitVec.ofNat 6 fn)
/-- A TI word. -/
def ti (op d a : Nat) (i : Int) : Word := wordTI (BitVec.ofNat 8 op) (BitVec.ofNat 6 d) (BitVec.ofNat 6 a) (BitVec.ofInt 12 i)
/-- A TU word. -/
def tu (op d : Nat) (i : Int) : Word := wordTU (BitVec.ofNat 8 op) (BitVec.ofNat 6 d) (BitVec.ofInt 18 i)
/-- An immediate without a sign. -/
def below (v : Int) (n : Nat) : Bool := decide (0 ≤ v ∧ v < n)

/-- Operands against a teller mnemonic. -/
def tellerItem (o : TOp) (ops : List Opd) : Option Item :=
  match o, ops with
  | .dab op fn, [.sreg d, .sreg a, .sreg b] => some (.word (tr op d a b fn))
  | .dai op sg n, [.sreg d, .sreg a, .int i] =>
    if (if sg then decide (-(2 ^ (n - 1)) ≤ i ∧ i < 2 ^ (n - 1)) else below i (2 ^ n)) then some (.word (ti op d a i)) else none
  | .lui, [.sreg d, .int i] => if below i (2 ^ 18) then some (.word (tu 0xC8 d i)) else none
  | .qwait, [.int q] => if below q 7 then some (.word (ti 0xD4 0 0 q)) else none
  | .read, [.sreg d, .int n] => if below n (2 ^ 18) then some (.word (tu 0xE3 d n)) else none
  | .trap, [.int c] => if below c 8192 then some (.word (tu 0xE5 0 c)) else none
  | .mode, [.int m] => if below m 2 then some (.word (tu 0xE7 0 m)) else none
  | .br op, [.sreg a, .sreg b, .name t] => some (.tellerBranch op a b t)
  | .jump op, [.name t] => some (.tellerJump op t)
  | .none_ op i, [] => some (.word (tu op 0 i))
  | .da op fn, [.sreg d, .sreg a] => some (.word (tr op d a 0 fn))
  | .ab op, [.sreg a, .sreg b] => some (.word (tr op 0 a b 0))
  | .a op, [.sreg a] => some (.word (tr op 0 a 0 0))
  | .d op, [.sreg d] => some (.word (tr op d 0 0 0))
  | .nfA op, [.nf k, .sreg a] => some (.word (tr op 0 a 0 k))
  | .bar v, [.int b, .sreg a] => if below b 16 then some (.word (tr 0xE2 0 a 0 (2 * b.toNat + v))) else none
  | _, _ => none

noncomputable section

/-- A teller statement: no suffix, no `!n`. -/
def tellerItems (ws : List String) (ops : List Opd) (w : Option (BitVec 3)) : Except AsmError (List Item) :=
  match longest tellerNames ws (min ws.length 2), w with
  | some (o, []), none =>
    match tellerItem o ops with
    | none => .error (.operands (dotted ws))
    | some (.word c) =>
      match decodeTeller c with
      | .ok i => if i.wf then .ok [.word c] else .error (.fields (dotted ws))
      | .error _ => .error (.fields (dotted ws))
    | some x => .ok [x]
  | _, _ => .error (.mnemonic (dotted ws))

/-! ## Blocks: data directives, layout and offsets -/

/-- The bytes of a data directive (R120). -/
def dataOf (name : String) (args : List (List Char)) : Option (List Byte) :=
  let ints (n : Nat) : Option (List Byte) :=
    (args.mapM fun a => (intOf? a).filter fun v => decide (-(2 ^ (8 * n - 1) : Int) ≤ v ∧ v < (2 ^ (8 * n) : Int))).map fun vs =>
      vs.flatMap fun v => leBytes n (v % (2 ^ (8 * n) : Int)).toNat
  if name = "byte" then ints 1 else if name = "half" then ints 2 else if name = "word" then ints 4 else if name = "dword" then ints 8
  else if name = "float" then (args.mapM floatOf?).map fun ws => ws.flatMap fun w => leBytes 4 w.toNat
  else none

/-- What a block holds (R120). -/
inductive Kind where
  | strand | teller | data
  deriving DecidableEq, Repr

/-- The items of a block, in order; the directives that are neither data nor `.align` are no part of it. -/
def itemsOf (kind : Kind) (imports : List String) : List Line → Clock → Except AsmError (List Item)
  | [], _ => .ok []
  | l :: ls, k =>
    let (pad, k) := if l.label.isSome && kind == .strand then padded k else ([], k)
    let head := pad.map (fun f => Item.op f false) ++ (match l.label with | some n => [.label n] | none => [])
    let rest : Except AsmError (List Item × Clock) :=
      match l.body with
      | .none => .ok ([], k)
      | .dir d args =>
        if d = "align" then
          match args with
          | [a] => match natOf? a with | some n => .ok ([.align n], k) | none => .error (.directive d)
          | _ => .error (.directive d)
        else match dataOf d args with | some bs => .ok ([.bytes bs], k) | none => .error (.directive d)
      | .inst ws ops w =>
        match kind with
        | .strand => strandItems imports ws ops w k
        | .teller => (tellerItems ws ops w).map fun is => (is, k)
        | .data => .error .syntax_
    match rest with
    | .error r => .error r
    | .ok (is, k) => (itemsOf kind imports ls k).map fun more => head ++ is ++ more

end

/-- Bytes of an item at an address, a branch at its current size in parcels. -/
def Item.size (addr sz : Nat) : Item → Nat
  | .label _ => 0
  | .op f _ => 2 * f.size
  | .branch _ _ _ _ _ _ => 2 * sz
  | .word _ => 4
  | .tellerBranch _ _ _ _ => 4
  | .tellerJump _ _ => 4
  | .bytes bs => bs.length
  | .align n => (2 ^ n - addr % 2 ^ n) % 2 ^ n
/-- The first address after items at an address, and each item's own. -/
def layout : Nat → List (Item × Nat) → List Nat × Nat
  | a, [] => ([], a)
  | a, (i, sz) :: r => let (as, e) := layout (a + i.size a sz) r; (a :: as, e)
/-- The labels of a block, with their addresses. -/
def labelsOf (items : List Item) (addrs : List Nat) : List (String × Nat) :=
  (items.zip addrs).filterMap fun x => match x.1 with | .label n => some (n, x.2) | _ => none
/-- The address of a name: the block's own label first, then one from outside it. -/
def lookup (own out : List (String × Nat)) (n : String) : Option Nat :=
  match own.find? (·.1 == n) with
  | some x => some x.2
  | none => (out.find? (·.1 == n)).map (·.2)
/-- The smallest size in parcels for a branch over an offset in parcels (R192). -/
def sizeFor (sop : Option Nat) (long? : Bool) (off : Int) : Nat :=
  if sop.isSome ∧ !long? ∧ -32 ≤ off ∧ off ≤ 31 then 1 else if -4095 ≤ off ∧ off ≤ 4095 then 2 else 4
/-- Sizes grown to what their offsets need. -/
def growOnce (base : Nat) (out : List (String × Nat)) (items : List Item) (sizes : List Nat) : List Nat :=
  let addrs := (layout base (items.zip sizes)).1
  let own := labelsOf items addrs
  ((items.zip addrs).zip sizes).map fun x =>
    match x.1.1 with
    | .branch _ _ sop l t _ => match lookup own out t with | some v => max x.2 (sizeFor sop l (((v : Int) - x.1.2) / 2)) | none => x.2
    | _ => x.2
/-- Until nothing grows. -/
def grow (base : Nat) (out : List (String × Nat)) (items : List Item) : Nat → List Nat → List Nat
  | 0, sizes => sizes
  | n + 1, sizes =>
    let next := growOnce base out items sizes
    if next = sizes then sizes else grow base out items n next
/-- Every branch in its shortest form. -/
def Item.least : Item → Nat
  | .branch _ _ sop l _ _ => if sop.isSome ∧ !l then 1 else 2
  | _ => 0

/-- The bytes of padding (R120). -/
def fill (kind : Kind) (n : Nat) : List Byte :=
  match kind with
  | .strand => (List.replicate (n / 2) [0x00#8, 0x60#8]).flatten ++ List.replicate (n % 2) 0#8
  | .teller => (List.replicate (n / 4) [0x00#8, 0x00#8, 0x00#8, 0xE8#8]).flatten ++ List.replicate (n % 4) 0#8
  | .data => List.replicate n 0#8
/-- Parcels as bytes. -/
def parcelBytes (ps : List (BitVec 16)) : List Byte := ps.flatMap fun p => leBytes 2 p.toNat
/-- The bytes of an item. -/
def Item.emit (kind : Kind) (own out : List (String × Nat)) (addr sz : Nat) : Item → Except AsmError (List Byte)
  | .label _ => .ok []
  | .op f _ => .ok (parcelBytes f.parcels)
  | .word w => .ok (leBytes 4 w.toNat)
  | .bytes bs => .ok bs
  | .align n => .ok (fill kind (Item.size addr sz (.align n)))
  | .branch o g sop _ t w =>
    match lookup own out t with
    | none => .error (.label t)
    | some v =>
      let off : Int := ((v : Int) - addr) / 2
      let b : Nat := match sop with | some s => s | none => 0
      if sz = 1 then .ok (parcelBytes (Form.short (BitVec.ofNat 6 b) (BitVec.ofInt 6 off) w).parcels)
      else if g = 64 then .error (.reach t)
      else if sz = 2 then .ok (parcelBytes (Form.plain (BitVec.ofNat 8 o) (BitVec.ofNat 6 g) w (BitVec.ofInt 13 off)).parcels)
      else
        if -(2 ^ 31) ≤ off ∧ off < 2 ^ 31 then .ok (parcelBytes (Form.far (BitVec.ofNat 8 o) (BitVec.ofNat 6 g) w (BitVec.ofInt 32 off)).parcels)
        else .error (.reach t)
  | .tellerBranch o a b t =>
    match lookup own out t with
    | none => .error (.label t)
    | some v =>
      let off : Int := ((v : Int) - addr) / 4
      if -2048 ≤ off ∧ off ≤ 2047 then .ok (leBytes 4 (ti o a b off).toNat) else .error (.reach t)
  | .tellerJump o t =>
    match lookup own out t with
    | none => .error (.label t)
    | some v =>
      let off : Int := ((v : Int) - addr) / 4
      if -(2 ^ 17) ≤ off ∧ off < 2 ^ 17 then .ok (leBytes 4 (tu o 0 off).toNat) else .error (.reach t)

/-- An assembled block: its bytes, its labels, and where its relocated address words lie (R50). -/
structure Code where
  base : Nat
  bytes : List Byte
  labels : List (String × Nat)
  relocs : List Nat
  deriving DecidableEq, Repr

/-- Concatenation that stops at the first error. -/
def joined : List (Except AsmError (List Byte)) → Except AsmError (List Byte)
  | [] => .ok []
  | .error r :: _ => .error r
  | .ok bs :: rest => match joined rest with | .ok more => .ok (bs ++ more) | .error r => .error r
/-- A block at an address; `out` are the labels outside it. -/
def linkItems (kind : Kind) (base : Nat) (out : List (String × Nat)) (items : List Item) : Except AsmError Code :=
  let sizes := grow base out items (2 * items.length + 1) (items.map Item.least)
  let addrs := (layout base (items.zip sizes)).1
  let own := labelsOf items addrs
  match joined (((items.zip addrs).zip sizes).map fun x => x.1.1.emit kind own out x.1.2 x.2) with
  | .error r => .error r
  | .ok bs =>
    .ok { base := base, bytes := bs, labels := own, relocs := (items.zip addrs).filterMap fun x => match x.1 with | Item.op _ true => some (x.2 + 4) | _ => none }

noncomputable section

/-- Lines of a block, assembled at an address. -/
def assemble (kind : Kind) (base : Nat) (imports : List String) (out : List (String × Nat)) (lines : List Line) : Except AsmError Code :=
  match itemsOf kind imports lines ⟨0, 0⟩ with
  | .error r => .error r
  | .ok items => linkItems kind base out items

end

/-- The lines of a text. -/
def linesOf (text : String) : Except AsmError (List Line) := (pieces (· == '\n') text.toList).mapM lineOf

end Sys2Proof.Asm
end

