-- ==== Sys2Proof/Machine/Clound.lean ====
section
/-! DEFINITION. The Clound bytecode: modules, their verification, and the virtual machine of one invocation: 03_clound R61 to R73. Jialmush, on
the host, verifies and translates modules; the machine's step never reaches this file. -/

namespace Sys2Proof.Clound

open Sys2Proof.Machine

/-! ## Types and opcodes (R62, R67) -/

/-- The value types (R62). -/
inductive VType where
  | i32 | i64 | f32 | tile
  deriving DecidableEq, Repr
/-- A type's byte. -/
def VType.ofByte (b : Nat) : Option VType :=
  if b = 0x7F then some .i32 else if b = 0x7E then some .i64 else if b = 0x7D then some .f32 else if b = 0x70 then some .tile else none

/-- A value; a tile is one invocation's row, its 16 product columns and the 16 of its STG half (R62, R69). -/
inductive Val where
  | i32 (v : Word)
  | i64 (v : BitVec 64)
  | f32 (v : Word)
  | tile (e : List Word)
  deriving DecidableEq, Repr
/-- A local before it is set (R62). -/
def VType.zero : VType → Val
  | .i32 => .i32 0
  | .i64 => .i64 0
  | .f32 => .f32 0
  | .tile => .tile (List.replicate 32 0)

/-- 0x20 to 0x2F. -/
inductive I32Bin where
  | add | sub | mul | mulhs | mulhn | divs | divn | rems | remn | and | or | xor | shl | shrn | shrs | rotl
  deriving DecidableEq, Repr
/-- 0x30 to 0x37. -/
inductive I32Cmp where
  | eq | ne | lts | les | ltn | len | gts | ges
  deriving DecidableEq, Repr
/-- 0x38 to 0x3B. -/
inductive I32Un where
  | clz | popc | brev | eqz
  deriving DecidableEq, Repr
/-- 0x3C to 0x3E. -/
inductive I64Bin where
  | add | sub | mul
  deriving DecidableEq, Repr
/-- 0x48 to 0x4D. -/
inductive F32Bin where
  | add | sub | mul | div | min | max
  deriving DecidableEq, Repr
/-- 0x4F to 0x55, 0x5A to 0x61. -/
inductive F32Un where
  | sqrt | neg | abs | floor | ceil | trunc | nearest | rcp | rsq | ex2 | lg2 | sinpi | cospi | tanh | sigm
  deriving DecidableEq, Repr
/-- 0x56 to 0x59. -/
inductive F32Cmp where
  | eq | lt | le | unord
  deriving DecidableEq, Repr
/-- 0x40 to 0x42, 0x68 to 0x6F. -/
inductive Conv where
  | extendS | extendN | wrap | fromS32 | fromN32 | toS32 | toN32 | fromBits | toBits | pack | unpack
  deriving DecidableEq, Repr
/-- 0x70 to 0x76. -/
inductive LoadOp where
  | i32 | i64 | f32 | s8 | n8 | s16 | n16
  deriving DecidableEq, Repr
/-- 0x77 to 0x7B. -/
inductive StoreOp where
  | i32 | i64 | f32 | b8 | b16
  deriving DecidableEq, Repr
/-- The subgroup operations (R70): 0x80 to 0x8A. -/
inductive SgOp where
  | shuffle | up (d : Nat) | down (d : Nat) | xor (d : Nat) | any | all | ballot | sumI32 | maxS32 | sumF32 | maxF32
  deriving DecidableEq, Repr

/-- A memory argument (R68). -/
structure MemArg where
  order : Order
  scope : Scope
  window : Bool
  stream : Bool
  offset : Nat
  deriving DecidableEq, Repr

/-- An opcode with its immediates (R67). -/
inductive Op where
  | unreachable | nop
  | block (t : Option VType) | loop (t : Option VType) | cond (t : Option VType)
  | elseArm | endFrame
  | br (d : Nat) | brIf (d : Nat) | brTable (ds : List Nat) (dflt : Nat)
  | ret | call (f : Nat) | callImport (i : Nat)
  | drop | select | exit
  | localGet (i : Nat) | localSet (i : Nat) | localTee (i : Nat)
  | args | sreg (n : Nat)
  | i32Const (v : Word) | i64Const (v : BitVec 64) | f32Const (v : Word)
  | i32Bin (o : I32Bin) | i32Cmp (o : I32Cmp) | i32Un (o : I32Un)
  | i64Bin (o : I64Bin) | i64Shl | i64Eq
  | f32Bin (o : F32Bin) | f32Fma | f32Un (o : F32Un) | f32Cmp (o : F32Cmp)
  | conv (o : Conv)
  | load (o : LoadOp) (m : MemArg) | store (o : StoreOp) (m : MemArg)
  | rmw (m : MemArg) (o : AtomOp) | cas (m : MemArg) | fence (s : Scope)
  | sg (o : SgOp)
  | tileZero | tileMma (fa fb pa pb k flags : Nat) | tileGet | tileSet
  | copy (flags : Nat) | wait | barrier (b : Nat) | frz | thaw
  deriving DecidableEq, Repr

/-! ## Reading bytes (R61) -/

/-- The rule that a rejected module breaks (R63, R64). -/
inductive Rule where
  | magic | version | sectionOrder | longNumber | sectionEnd | index | kernel | bodySize | types | frames | depth | tiles | memory | uniform | opcode
  deriving DecidableEq, Repr

/-- The rule broken, with the number of bytes left there. -/
abbrev Bad := Rule × Nat

/-- One byte. -/
def byte : List Byte → Except Bad (Nat × List Byte)
  | [] => .error (.sectionEnd, 0)
  | b :: rest => .ok (b.toNat, rest)
/-- `n` bytes. -/
def takeN (n : Nat) (bs : List Byte) : Except Bad ((List Byte) × List Byte) := if bs.length < n then .error (.sectionEnd, 0) else .ok (bs.take n, bs.drop n)
/-- Unsigned LEB128 of at most `n` bytes. -/
def uleb : Nat → List Byte → Except Bad (Nat × List Byte)
  | 0, bs => .error (.longNumber, bs.length)
  | _, [] => .error (.sectionEnd, 0)
  | n + 1, b :: rest =>
    if b.toNat < 128 then .ok (b.toNat, rest)
    else match uleb n rest with
      | .ok (v, rest) => .ok (b.toNat % 128 + 128 * v, rest)
      | .error e => .error e
/-- Signed LEB128 of at most `n` bytes. -/
def sleb : Nat → List Byte → Except Bad (Int × List Byte)
  | 0, bs => .error (.longNumber, bs.length)
  | _, [] => .error (.sectionEnd, 0)
  | n + 1, b :: rest =>
    if b.toNat < 128 then .ok (if b.toNat < 64 then b.toNat else (b.toNat : Int) - 128, rest)
    else match sleb n rest with
      | .ok (v, rest) => .ok ((b.toNat % 128 : Nat) + 128 * v, rest)
      | .error e => .error e
/-- Unsigned LEB128 of a quantity of `bits` bits, at most `n` bytes, of which the low `bits` bits are kept (log 112). -/
def ulebOf (n bits : Nat) (bs : List Byte) : Except Bad (Nat × List Byte) := (uleb n bs).map fun x => (x.1 % 2 ^ bits, x.2)
/-- A count or an index. -/
def u32 (bs : List Byte) : Except Bad (Nat × List Byte) := ulebOf 5 32 bs
/-- `n` items. -/
def items {α : Type} (f : List Byte → Except Bad (α × List Byte)) : Nat → List Byte → Except Bad ((List α) × List Byte)
  | 0, bs => .ok ([], bs)
  | n + 1, bs => do
    let (x, bs) ← f bs
    let (xs, bs) ← items f n bs
    .ok (x :: xs, bs)
/-- A count, then that many items. -/
def counted {α : Type} (f : List Byte → Except Bad (α × List Byte)) (bs : List Byte) : Except Bad ((List α) × List Byte) := do
  let (n, bs) ← u32 bs
  items f n bs
/-- A value type. -/
def valType (bs : List Byte) : Except Bad (VType × List Byte) := do
  let (b, rest) ← byte bs
  match VType.ofByte b with
  | some t => .ok (t, rest)
  | none => .error (.types, bs.length)
/-- A block type: 0x40 for no result, or a value type. -/
def blockType (bs : List Byte) : Except Bad ((Option VType) × List Byte) := do
  let (b, rest) ← byte bs
  if b = 0x40 then .ok (none, rest) else match VType.ofByte b with
  | some t => .ok (some t, rest)
  | none => .error (.types, bs.length)
/-- A memory argument; the flags word is of 32 bits, SCOPE 11 and other bits are rejected, as is an offset of 2^25 or more (R68). -/
def memArg (bs : List Byte) : Except Bad (MemArg × List Byte) := do
  let (f, rest) ← u32 bs
  let (off, rest) ← u32 rest
  match Scope.ofCode (BitVec.ofNat 2 (f / 4)) with
  | some sc =>
    if 64 ≤ f ∨ 2 ^ 25 ≤ off ∨ (f.testBit 4 ∧ sc ≠ .grp) then .error (.memory, bs.length)
    else .ok ({ order := Order.ofCode (BitVec.ofNat 2 f), scope := sc, window := f.testBit 4, stream := f.testBit 5, offset := off }, rest)
  | none => .error (.memory, bs.length)

/-- The opcodes without immediates. -/
def plainOp (c : Nat) : Option Op :=
  let pick {α : Type} (base : Nat) (xs : List α) (f : α → Op) : Option Op := if base ≤ c then xs[c - base]?.map f else none
  let first : List (Option Op) :=
    [pick 0x00 [Op.unreachable, .nop] id, pick 0x05 [Op.elseArm, .endFrame] id, pick 0x0A [Op.ret] id, pick 0x0D [Op.drop, .select, .exit] id,
     pick 0x13 [Op.args] id,
     pick 0x20 [.add, .sub, .mul, .mulhs, .mulhn, .divs, .divn, .rems, .remn, .and, .or, .xor, .shl, .shrn, .shrs, .rotl] .i32Bin,
     pick 0x30 [.eq, .ne, .lts, .les, .ltn, .len, .gts, .ges] .i32Cmp, pick 0x38 [.clz, .popc, .brev, .eqz] .i32Un,
     pick 0x3C [.add, .sub, .mul] .i64Bin, pick 0x3F [Op.i64Shl] id, pick 0x40 [.extendS, .extendN, .wrap] .conv, pick 0x43 [Op.i64Eq] id,
     pick 0x48 [.add, .sub, .mul, .div, .min, .max] .f32Bin, pick 0x4E [Op.f32Fma] id,
     pick 0x4F [.sqrt, .neg, .abs, .floor, .ceil, .trunc, .nearest] .f32Un, pick 0x56 [.eq, .lt, .le, .unord] .f32Cmp,
     pick 0x5A [.rcp, .rsq, .ex2, .lg2, .sinpi, .cospi, .tanh, .sigm] .f32Un,
     pick 0x68 [.fromS32, .fromN32, .toS32, .toN32, .fromBits, .toBits, .pack, .unpack] .conv, pick 0x80 [Op.sg .shuffle] id,
     pick 0x84 [.any, .all, .ballot, .sumI32, .maxS32, .sumF32, .maxF32] .sg, pick 0x90 [Op.tileZero] id, pick 0x92 [Op.tileGet, .tileSet] id,
     pick 0xA1 [Op.wait] id, pick 0xA3 [Op.frz, .thaw] id]
  first.findSome? id

/-- The largest PLANES of a format: its stored significand planes (R69). -/
def maxPlanes (code : Nat) : Nat := let f := opFmt code 0; if f.int then f.w else f.fmt.m
/-- The immediates of `tile.mma` are in their ranges (R69). -/
def mmaOk (fa fb pa pb k flags : Nat) : Bool :=
  decide (fa ≤ 7 ∧ fb ≤ 7 ∧ 1 ≤ pa ∧ pa ≤ maxPlanes fa ∧ 1 ≤ pb ∧ pb ≤ maxPlanes fb ∧ 1 ≤ k ∧ k ≤ 128 ∧ flags < 16)
/-- The operation byte of `atomic.rmw`. -/
def rmwOp (b : Nat) : Option AtomOp := [AtomOp.add, .and, .or, .xor, .mins, .maxs, .minn, .maxn, .xchg][b]?
/-- A byte in a range, with the rule it breaks otherwise. -/
def byteBelow (n : Nat) (r : Rule) (bs : List Byte) : Except Bad (Nat × List Byte) := do
  let (b, rest) ← byte bs
  if b < n then .ok (b, rest) else .error (r, bs.length)

/-- One opcode with its immediates (R67). -/
def readOp (bs : List Byte) : Except Bad (Op × List Byte) := do
  let (c, r) ← byte bs
  let with32 (f : Nat → Op) : Except Bad (Op × List Byte) := do
    let (v, r) ← u32 r
    .ok (f v, r)
  let withType (f : Option VType → Op) : Except Bad (Op × List Byte) := do
    let (t, r) ← blockType r
    .ok (f t, r)
  let withMem (f : MemArg → Op) : Except Bad (Op × List Byte) := do
    let (m, r) ← memArg r
    .ok (f m, r)
  let withByte (n : Nat) (rule : Rule) (f : Nat → Op) : Except Bad (Op × List Byte) := do
    let (v, r) ← byteBelow n rule r
    .ok (f v, r)
  match c with
  | 0x02 => withType .block
  | 0x03 => withType .loop
  | 0x04 => withType .cond
  | 0x07 => with32 .br
  | 0x08 => with32 .brIf
  | 0x09 => do
    let (ds, r) ← counted u32 r
    let (d, r) ← u32 r
    .ok (.brTable ds d, r)
  | 0x0B => with32 .call
  | 0x0C => with32 .callImport
  | 0x10 => with32 .localGet
  | 0x11 => with32 .localSet
  | 0x12 => with32 .localTee
  | 0x14 => do
    let (v, r2) ← u32 r
    if v ≤ 9 then .ok (.sreg v, r2) else .error (.index, r.length)
  | 0x18 => do
    let (v, r) ← sleb 5 r
    .ok (.i32Const (BitVec.ofInt 32 v), r)
  | 0x19 => do
    let (v, r) ← sleb 10 r
    .ok (.i64Const (BitVec.ofInt 64 v), r)
  | 0x1A => do
    let (v, r) ← takeN 4 r
    .ok (.f32Const (wordOf v), r)
  | 0x70 => withMem (.load .i32)
  | 0x71 => withMem (.load .i64)
  | 0x72 => withMem (.load .f32)
  | 0x73 => withMem (.load .s8)
  | 0x74 => withMem (.load .n8)
  | 0x75 => withMem (.load .s16)
  | 0x76 => withMem (.load .n16)
  | 0x77 => withMem (.store .i32)
  | 0x78 => withMem (.store .i64)
  | 0x79 => withMem (.store .f32)
  | 0x7A => withMem (.store .b8)
  | 0x7B => withMem (.store .b16)
  | 0x7C => do
    let (m, r) ← memArg r
    let (b, r2) ← byte r
    match rmwOp b with
    | some o => .ok (.rmw m o, r2)
    | none => .error (.opcode, r.length)
  | 0x7D => withMem .cas
  | 0x7E => withByte 3 .memory fun b => .fence (if b = 0 then .grp else if b = 1 then .dev else .sys)
  | 0x81 => withByte 256 .opcode fun d => .sg (.up d)
  | 0x82 => withByte 256 .opcode fun d => .sg (.down d)
  | 0x83 => withByte 256 .opcode fun d => .sg (.xor d)
  | 0x91 => do
    let (xs, r2) ← takeN 6 r
    let x (i : Nat) : Nat := (xs.getD i 0).toNat
    if mmaOk (x 0) (x 1) (x 2) (x 3) (x 4) (x 5) then .ok (.tileMma (x 0) (x 1) (x 2) (x 3) (x 4) (x 5), r2) else .error (.tiles, r.length)
  | 0xA0 => withByte 256 .opcode .copy
  | 0xA2 => withByte 16 .index .barrier
  | _ => match plainOp c with
    | some o => .ok (o, r)
    | none => .error (.opcode, bs.length)

/-! ## Modules (R61 to R63) -/

/-- A signature. -/
structure FuncType where
  params : List VType
  result : Option VType
  deriving DecidableEq, Repr
/-- A function: its type's index, its declared locals as (count, type), its body and the body's offset in the module. -/
structure Func where
  typ : Nat
  groups : List (Nat × VType)
  body : List Byte
  pos : Nat
  deriving DecidableEq, Repr
/-- A name with the index of a type or a function, and its offset in the module. -/
structure Named where
  name : List Byte
  index : Nat
  pos : Nat
  deriving DecidableEq, Repr
/-- A kernel, with its offset in the module. -/
structure Kernel where
  func : Nat
  width : Nat
  group : Nat
  scratch : Nat
  barriers : Nat
  pos : Nat
  deriving DecidableEq, Repr
/-- A module. -/
structure Module where
  types : List FuncType
  imports : List Named
  funcs : List Func
  kernels : List Kernel
  data : List (Nat × List Byte)
  exports : List Named
  deriving DecidableEq, Repr
/-- A module without sections. -/
def Module.empty : Module := { types := [], imports := [], funcs := [], kernels := [], data := [], exports := [] }

/-- A signature, without tiles (R64). -/
def readType (bs : List Byte) : Except Bad (FuncType × List Byte) := do
  let (c, r) ← byte bs
  if c ≠ 0x60 then .error (.types, bs.length) else
  let (ps, r) ← counted valType r
  let (n, r2) ← u32 r
  if 1 < n then .error (.types, r.length) else
  let (rs, r3) ← items valType n r2
  if (ps ++ rs).contains .tile then .error (.tiles, bs.length) else .ok ({ params := ps, result := rs.head? }, r3)
/-- A length and that many bytes. -/
def readBytes (bs : List Byte) : Except Bad ((List Byte) × List Byte) := do
  let (n, r) ← u32 bs
  takeN n r
/-- A name and an index; here and below an offset is first the number of bytes left in the section. -/
def readNamed (bs : List Byte) : Except Bad (Named × List Byte) := do
  let (name, r) ← readBytes bs
  let (i, r) ← u32 r
  .ok ({ name := name, index := i, pos := bs.length }, r)
/-- A function; a body of more than 16 MiB is rejected (R63), as are more than 8 tile locals (R62). -/
def readFunc (bs : List Byte) : Except Bad (Func × List Byte) := do
  let (t, r) ← u32 bs
  let (gs, r2) ← counted (fun bs => do
    let (n, r) ← u32 bs
    let (t, r) ← valType r
    .ok ((n, t), r)) r
  if 8 < ((gs.filter (·.2 == .tile)).map (·.1)).sum then .error (.tiles, r.length) else
  let (n, r3) ← u32 r2
  if 2 ^ 24 < n then .error (.bodySize, r2.length) else
  let (body, r4) ← takeN n r3
  .ok ({ typ := t, groups := gs, body := body, pos := r3.length }, r4)
/-- A kernel (R63). -/
def readKernel (bs : List Byte) : Except Bad (Kernel × List Byte) := do
  let (f, r) ← u32 bs
  let (w, r) ← u32 r
  let (g, r) ← u32 r
  let (s, r) ← u32 r
  let (b, r) ← u32 r
  if !(w == 16 || w == 32 || w == 64) || g % 16 != 0 || g % w != 0 || decide (g < 16 ∨ 512 < g ∨ 15 < b) then .error (.kernel, bs.length)
  else .ok ({ func := f, width := w, group := g, scratch := s, barriers := b, pos := bs.length }, r)
/-- A data segment: offset in the argument block, bytes. The offset is read as an unsigned LEB128 of 64 bits, not as eight fixed bytes: the
model's choice (log 128). -/
def readData (bs : List Byte) : Except Bad ((Nat × List Byte) × List Byte) := do
  let (off, r) ← ulebOf 10 64 bs
  let (b, r) ← readBytes r
  .ok ((off, b), r)

/-- A section's contents, `stop` being the offset of its end in the module; they end there (R63). A section of an id above 6 is rejected: the
model's choice (log 128). -/
def readSection (m : Module) (stop id : Nat) (bs : List Byte) : Except Bad Module := do
  let whole {α : Type} (p : α × List Byte) : Except Bad α := if p.2.isEmpty then .ok p.1 else .error (.sectionEnd, p.2.length)
  match id with
  | 0 => do
    let _ ← readBytes bs
    .ok m
  | 1 => do
    let xs ← whole (← counted readType bs)
    .ok { m with types := xs }
  | 2 => do
    let xs ← whole (← counted readNamed bs)
    .ok { m with imports := xs.map fun x => { x with pos := stop - x.pos } }
  | 3 => do
    let xs ← whole (← counted readFunc bs)
    .ok { m with funcs := xs.map fun x => { x with pos := stop - x.pos } }
  | 4 => do
    let xs ← whole (← counted readKernel bs)
    .ok { m with kernels := xs.map fun x => { x with pos := stop - x.pos } }
  | 5 => do
    let xs ← whole (← counted readData bs)
    .ok { m with data := xs }
  | 6 => do
    let xs ← whole (← counted readNamed bs)
    .ok { m with exports := xs.map fun x => { x with pos := stop - x.pos } }
  | _ => .error (.sectionOrder, bs.length)

/-- A rejection: the section, the byte offset in the module, the rule broken (R63). -/
structure Reject where
  sect : Nat
  offset : Nat
  rule : Rule
  deriving DecidableEq, Repr

/-- The sections of a module from byte `total − bs.length` on, `last` being the last numbered one. -/
def readSections (total : Nat) : Nat → Nat → Module → List Byte → Except Reject Module
  | 0, _, m, _ => .ok m
  | _, _, m, [] => .ok m
  | fuel + 1, last, m, b :: bs =>
    let id := b.toNat
    let here := total - (bs.length + 1)
    match u32 bs with
    | .error e => .error ⟨id, total - e.2, e.1⟩
    | .ok (n, r) =>
      if id ≠ 0 ∧ id ≤ last then .error ⟨id, here, .sectionOrder⟩
      else if r.length < n then .error ⟨id, total, .sectionEnd⟩
      else match readSection m (total - r.length + n) id (r.take n) with
        | .error e => .error ⟨id, total - r.length + n - e.2, e.1⟩
        | .ok m => readSections total fuel (if id = 0 then last else id) m (r.drop n)

/-- The layout of a module (R61). -/
def readModule (bs : List Byte) : Except Reject Module :=
  if bs.take 4 ≠ [0x00, 0x43, 0x4C, 0x44] then .error ⟨0, 0, .magic⟩
  else if leNat (slice bs 4 4) ≠ 1 ∨ bs.length < 8 then .error ⟨0, 4, .version⟩
  else readSections bs.length bs.length 0 .empty (bs.drop 8)

/-! ## Verification (R64 to R66) -/

/-- How a frame was opened. -/
inductive FrameKind where
  | body | block | loop | cond | elseArm
  deriving DecidableEq, Repr
/-- An open frame: its result, the height of the stack at its base, whether the stack is polymorphic there, its uniformity bit. -/
structure Frame where
  kind : FrameKind
  result : Option VType
  height : Nat
  dead : Bool
  uniform : Bool
  deriving DecidableEq, Repr
/-- What the verifier knows at an opcode: the stack, top first, with the uniformity of each value (no type after an unconditional transfer),
the frames, innermost first, and the locals. -/
structure Ver where
  stack : List (Option VType × Bool)
  frames : List Frame
  locals : List (VType × Bool)
  deriving DecidableEq, Repr

/-- Pops a value of a type. -/
def Ver.pop (v : Ver) (t : Option VType) : Except Rule (Bool × Option VType × Ver) :=
  match v.frames with
  | [] => .error .frames
  | f :: _ =>
    if v.stack.length ≤ f.height then (if f.dead then .ok (true, t, v) else .error .types)
    else match v.stack with
      | [] => .error .types
      | (u, uni) :: rest => if t.isNone || u.isNone || u == t then .ok (uni, if u.isNone then t else u, { v with stack := rest }) else .error .types
/-- Pops operands, the last pushed first; whether all are uniform. -/
def Ver.pops (v : Ver) : List VType → Except Rule (Bool × Ver)
  | [] => .ok (true, v)
  | t :: ts => do
    let (a, _, v) ← v.pop (some t)
    let (b, v) ← v.pops ts
    .ok (a && b, v)
/-- Pushes a value. -/
def Ver.push (v : Ver) (t : Option VType) (uniform : Bool) : Ver := { v with stack := (t, uniform) :: v.stack }
/-- Pushes a result, if there is one. -/
def Ver.pushOpt (v : Ver) (t : Option VType) (uniform : Bool) : Ver := match t with | some t => v.push (some t) uniform | none => v
/-- A change of the innermost frame. -/
def Ver.modFrame (v : Ver) (g : Frame → Frame) : Ver := { v with frames := match v.frames with | f :: fs => g f :: fs | [] => [] }
/-- After an unconditional transfer: the stack is that of the frame's base, and polymorphic (R64). -/
def Ver.transfer (v : Ver) : Ver :=
  let h := match v.frames with | f :: _ => f.height | [] => 0
  ({ v with stack := v.stack.drop (v.stack.length - h) }).modFrame fun f => { f with dead := true }
/-- The innermost frame is uniform. -/
def Ver.uniform (v : Ver) : Bool := match v.frames with | f :: _ => f.uniform | [] => false
/-- Opens a frame, uniform if the enclosing one is and, for `if`, its condition (R65). -/
def Ver.open_ (v : Ver) (k : FrameKind) (t : Option VType) (uniform : Bool) : Ver :=
  { v with frames := { kind := k, result := t, height := v.stack.length, dead := false, uniform := v.uniform && uniform } :: v.frames }
/-- The type a branch to a frame carries: none for `loop`. -/
def Frame.label (f : Frame) : Option VType := if f.kind = .loop then none else f.result
/-- A branch to depth `d` finds the target's label type on top, which stays there. -/
def Ver.branch (v : Ver) (d : Nat) : Except Rule Ver :=
  match v.frames[d]? with
  | none => .error .index
  | some f => match f.label with
    | none => .ok v
    | some t => do
      let (u, t, v) ← v.pop (some t)
      .ok (v.push t u)
/-- Every branch of a table finds its own target's label type on the same stack, which an unconditional transfer then leaves. -/
def Ver.branches (v : Ver) : List Nat → Except Rule Unit
  | [] => .ok ()
  | d :: ds => do
    let _ ← v.branch d
    v.branches ds
/-- A frame ends: exactly its result lies above its base. -/
def Ver.closes (v : Ver) : Except Rule (Frame × Ver) :=
  match v.frames with
  | [] => .error .frames
  | f :: _ => do
    let v ← match f.result with
      | none => pure v
      | some t => do
        let (_, _, v) ← v.pop (some t)
        pure v
    if v.stack.length = f.height then .ok (f, v) else .error .frames
/-- Operands in the order in which they are popped, and the result, of the opcodes that only compute (R67). -/
def Op.computes : Op → Option (List VType × VType)
  | .i32Const _ => some ([], .i32)
  | .i64Const _ => some ([], .i64)
  | .f32Const _ => some ([], .f32)
  | .args => some ([], .i64)
  | .i32Bin _ | .i32Cmp _ => some ([.i32, .i32], .i32)
  | .i32Un _ => some ([.i32], .i32)
  | .i64Bin _ => some ([.i64, .i64], .i64)
  | .i64Shl => some ([.i32, .i64], .i64)
  | .i64Eq => some ([.i64, .i64], .i32)
  | .f32Bin _ => some ([.f32, .f32], .f32)
  | .f32Fma => some ([.f32, .f32, .f32], .f32)
  | .f32Un _ => some ([.f32], .f32)
  | .f32Cmp _ => some ([.f32, .f32], .i32)
  | .conv o => some (match o with
    | .extendS | .extendN => ([.i32], .i64)
    | .wrap => ([.i64], .i32)
    | .fromS32 | .fromN32 | .fromBits | .unpack => ([.i32], .f32)
    | .toS32 | .toN32 | .toBits | .pack => ([.f32], .i32))
  | _ => none
/-- The uniform opcodes with their operands, popped in this order, and result (R66, R67). -/
def Op.uniformOp : Op → Option (List VType × Option VType)
  | .tileMma _ _ _ _ _ _ => some ([.i32, .i32, .tile], some .tile)
  | .copy _ => some ([.i32, .i32, .i64, .i64], none)
  | .wait => some ([.i32, .i32], some .i32)
  | .barrier _ => some ([], none)
  | .frz => some ([.i64, .i64], some .i32)
  | .thaw => some ([.i32], none)
  | _ => none
/-- The type a load pushes and a store takes. -/
def LoadOp.typ : LoadOp → VType
  | .i64 => .i64
  | .f32 => .f32
  | _ => .i32
/-- The type a load pushes and a store takes. -/
def StoreOp.typ : StoreOp → VType
  | .i64 => .i64
  | .f32 => .f32
  | _ => .i32
/-- The type of an address (R68). -/
def MemArg.addr (m : MemArg) : VType := if m.window then .i32 else .i64
/-- Operand and result of a subgroup operation, popped in this order. -/
def SgOp.sig : SgOp → List VType × VType
  | .shuffle => ([.i32, .i32], .i32)
  | .ballot => ([.i32], .i64)
  | .sumF32 | .maxF32 => ([.f32], .f32)
  | _ => ([.i32], .i32)
/-- Acquire and release stand only where R68 allows them. -/
def orderOk (acq rel : Bool) (m : MemArg) : Bool :=
  match m.order with
  | .relaxed => true
  | .acquire => acq
  | .release => rel
  | .acqRel => acq && rel
/-- Pops, checks the memory argument, pushes. -/
def Ver.memory (v : Ver) (m : MemArg) (acq rel : Bool) (ts : List VType) : Except Rule (Bool × Ver) :=
  if orderOk acq rel m then v.pops ts else .error .memory

/-- One opcode in the verifier (R64 to R66); `done` says that the body is closed. The result that a frame leaves at its `end` is not uniform
(DESIGN CHOICE, log 128). -/
def Ver.step (mod : Module) (result : Option VType) (v : Ver) (o : Op) : Except Rule (Ver × Bool) := do
  let go (v : Ver) : Except Rule (Ver × Bool) := .ok (v, false)
  match o with
  | .nop => go v
  | .unreachable => go v.transfer
  | .block t => go (v.open_ .block t true)
  | .loop t => go (v.open_ .loop t true)
  | .cond t => do
    let (u, _, v) ← v.pop (some .i32)
    go (v.open_ .cond t u)
  | .elseArm => do
    let (f, v) ← v.closes
    if f.kind = .cond then go (v.modFrame fun f => { f with kind := .elseArm, dead := false }) else .error .frames
  | .endFrame => do
    let (f, v) ← v.closes
    if f.kind = .cond ∧ f.result.isSome then .error .frames
    else .ok (({ v with frames := v.frames.drop 1 }).pushOpt f.result false, v.frames.length == 1)
  | .br d => do
    let v ← v.branch d
    go v.transfer
  | .brIf d => do
    let (u, _, v) ← v.pop (some .i32)
    let v ← v.branch d
    go (v.modFrame fun f => { f with uniform := f.uniform && u })
  | .brTable ds d => do
    let (u, _, v) ← v.pop (some .i32)
    v.branches (d :: ds)
    go (v.transfer.modFrame fun f => { f with uniform := f.uniform && u })
  | .ret => do
    let v ← match result with
      | some t => do
        let (_, _, v) ← v.pop (some t)
        pure v
      | none => pure v
    go v.transfer
  | .exit => do
    let (_, _, v) ← v.pop (some .i32)
    go v.transfer
  | .call f => match (mod.funcs[f]?).bind fun x => mod.types[x.typ]? with
    | none => .error .index
    | some t => do
      let (_, v) ← v.pops t.params.reverse
      go (v.pushOpt t.result false)
  | .callImport i => match (mod.imports[i]?).bind fun x => mod.types[x.index]? with
    | none => .error .index
    | some t => do
      let (_, v) ← v.pops t.params.reverse
      go (v.pushOpt t.result false)
  | .drop => do
    let (_, _, v) ← v.pop none
    go v
  | .select => do
    let (_, _, v) ← v.pop (some .i32)
    let (_, t, v) ← v.pop none
    let (_, t2, v) ← v.pop t
    go (v.push (if t.isNone then t2 else t) false)
  | .localGet i => match v.locals[i]? with
    | some (t, u) => go (v.push (some t) u)
    | none => .error .index
  | .localSet i => match v.locals[i]? with
    | some (t, u) => do
      let (u2, _, v) ← v.pop (some t)
      go { v with locals := v.locals.set i (t, u && u2) }
    | none => .error .index
  | .localTee i => match v.locals[i]? with
    | some (t, u) => do
      let (u2, _, v) ← v.pop (some t)
      go (({ v with locals := v.locals.set i (t, u && u2) }).push (some t) u2)
    | none => .error .index
  | .sreg n => go (v.push (some .i32) (decide (3 ≤ n)))
  | .load op m => do
    let (u, v) ← v.memory m (op == .i32 || op == .i64) false [m.addr]
    go (v.push (some op.typ) u)
  | .store op m => do
    let (_, v) ← v.memory m false (op == .i32 || op == .i64) [op.typ, m.addr]
    go v
  | .rmw m _ => do
    let (_, v) ← v.memory m true true [.i32, m.addr]
    go (v.push (some .i32) false)
  | .cas m => do
    let (_, v) ← v.memory m true true [.i32, .i32, m.addr]
    go (v.push (some .i32) false)
  | .fence _ => go v
  | .sg op => do
    let (_, v) ← v.pops op.sig.1
    go (v.push (some op.sig.2) false)
  | .tileZero => go (v.push (some .tile) false)
  | .tileGet => do
    let (_, v) ← v.pops [.i32, .tile]
    go (v.push (some .f32) false)
  | .tileSet => do
    let (_, v) ← v.pops [.f32, .i32, .tile]
    go (v.push (some .tile) false)
  | _ => match o.computes with
    | some (ts, t) => do
      let (u, v) ← v.pops ts
      go (v.push (some t) u)
    | none => match o.uniformOp with
      | some (ts, t) => do
        let (u, v2) ← v.pops (ts.filter (· != .tile))
        let (_, v2) ← v2.pops (ts.filter (· == .tile))
        if v.uniform && u then go (v2.pushOpt t false) else .error .uniform
      | none => .error .opcode

/-- The limits of R64: 1,024 open frames and stack entries, two tiles on the stack. The body's own frame is not counted. -/
def Ver.limits (v : Ver) : Except Rule Ver :=
  if 1025 < v.frames.length ∨ 1024 < v.stack.length then .error .depth
  else if 2 < (v.stack.filter (·.1 == some .tile)).length then .error .tiles
  else .ok v

/-- The body from here to its last byte; a rejection names the bytes left at the opcode that breaks a rule. -/
def verifyFrom (mod : Module) (result : Option VType) : Nat → Ver → List Byte → Except Bad Unit
  | 0, _, bs => .error (.sectionEnd, bs.length)
  | fuel + 1, v, bs =>
    match readOp bs with
    | .error e => .error e
    | .ok (o, rest) => match v.step mod result o with
      | .error r => .error (r, bs.length)
      | .ok (v, true) => if rest.isEmpty && v.frames.isEmpty then .ok () else .error (.frames, rest.length)
      | .ok (v, false) => match v.limits with
        | .error r => .error (r, bs.length)
        | .ok v => verifyFrom mod result fuel v rest
/-- The locals of a function, its parameters first. -/
def Module.localTypes (mod : Module) (f : Func) : List VType :=
  (match mod.types[f.typ]? with | some t => t.params | none => []) ++ f.groups.flatMap fun g => List.replicate g.1 g.2
/-- One function. -/
def verifyFunc (mod : Module) (f : Func) : Except Bad Unit :=
  match mod.types[f.typ]? with
  | none => .error (.index, f.body.length)
  | some t => verifyFrom mod t.result (f.body.length + 1)
      { stack := [], frames := [{ kind := .body, result := t.result, height := 0, dead := false, uniform := true }],
        locals := (mod.localTypes f).map fun t => (t, true) } f.body

/-- The opcodes of a body, each with its offset. -/
def opsFrom (total : Nat) : Nat → List Byte → List (Nat × Op)
  | 0, _ => []
  | fuel + 1, bs => match readOp bs with
    | .ok (o, rest) => (total - bs.length, o) :: opsFrom total fuel rest
    | .error _ => []
/-- The opcodes of a function. -/
def Func.ops (f : Func) : List (Nat × Op) := opsFrom f.body.length f.body.length f.body
/-- A function that holds a uniform opcode is called from kernel functions alone (R66); the offset of a call that breaks this. A kernel
function may call it from any of its frames: the model's choice (log 128). -/
def badCall? (mod : Module) (i : Nat) (f : Func) : Option Nat :=
  if mod.kernels.any (·.func == i) then none
  else (f.ops.find? fun x => match x.2 with
    | .call g => match mod.funcs[g]? with
      | some h => h.ops.any fun y => y.2.uniformOp.isSome
      | none => false
    | _ => false).map (·.1)

/-- Verifies a module that was read: its indices, its bodies, its kernels (R63, R64). -/
def Module.reject? (mod : Module) : Option Reject :=
  match mod.imports.find? fun x => decide (mod.types.length ≤ x.index) with
  | some x => some ⟨2, x.pos, .index⟩
  | none => match (List.range mod.funcs.length).zip mod.funcs |>.findSome? fun x => match verifyFunc mod x.2 with
      | .error e => some (Reject.mk 3 (x.2.pos + x.2.body.length - e.2) e.1)
      | .ok () => (badCall? mod x.1 x.2).map fun off => ⟨3, x.2.pos + off, .uniform⟩ with
  | some r => some r
  | none => match mod.kernels.findSome? fun k => match (mod.funcs[k.func]?).bind fun f => mod.types[f.typ]? with
      | none => some (Reject.mk 4 k.pos .index)
      | some t => if t.params.isEmpty && t.result.isNone then none else some ⟨4, k.pos, .kernel⟩ with
  | some r => some r
  | none => (mod.exports.find? fun x => decide (mod.funcs.length ≤ x.index)).map fun x => ⟨6, x.pos, .index⟩
/-- A module is accepted or rejected whole. -/
def accept (bs : List Byte) : Except Reject Module :=
  match readModule bs with
  | .error r => .error r
  | .ok m => match m.reject? with | some r => .error r | none => .ok m

/-! ## Translation that fails (R73) -/

/-- Why a translation fails, as the load reports it: a format whose matrix feature is unavailable, too many scratchpad bytes, too deep a call
chain (R73). -/
inductive Untranslatable where
  | format | scratch | calls
  deriving DecidableEq, Repr

/-- Matrix formats of a module whose feature is unavailable (R45, R46); s4 needs no MX_E2M1 (DESIGN CHOICE, log 128). -/
def Module.lacksFeature (mod : Module) : Bool :=
  let needs (c : Nat) : Option Nat := if c = 2 ∨ c = 3 then some 0 else if c = 4 then some 1 else if c = 7 then some 2 else none
  mod.funcs.any fun f => f.ops.any fun x => match x.2 with
    | .tileMma fa fb _ _ _ _ => [fa, fb].any fun c => match needs c with | some b => !Config.available b | none => false
    | _ => false
/-- The functions that a function calls. -/
def Func.calls (f : Func) : List Nat := f.ops.filterMap fun x => match x.2 with | .call g => some g | _ => none
/-- Some chain of more than `n` calls starts at a function; a call of an import is one more call. -/
def Module.chainAbove (mod : Module) : Nat → Nat → Bool
  | 0, g => match mod.funcs[g]? with | some f => f.ops.any (fun x => match x.2 with | .call _ | .callImport _ => true | _ => false) | none => false
  | n + 1, g => match mod.funcs[g]? with | some f => f.calls.any (mod.chainAbove n) | none => false
/-- Why translation fails, if it does, `added` being the scratchpad bytes that Jialmush adds to each kernel (R72, R73). A call of an exported
function from another object takes a return-stack entry itself (log 128). -/
def Module.untranslatable? (mod : Module) (added : Nat) : Option Untranslatable :=
  if mod.lacksFeature then some .format
  else if mod.kernels.any fun k => decide (786432 < k.scratch + added) then some .scratch
  else if (mod.kernels.any fun k => mod.chainAbove 8 k.func) || mod.exports.any fun x => mod.chainAbove 7 x.index then some .calls
  else none

/-! ## What opcodes compute (R67) -/

/-- p/q as a value that every rounding treats as the exact quotient: 64 bits and whether anything is left. -/
def quotient (neg : Bool) (p : Nat) (pe : Int) (q : Nat) (qe : Int) : XVal :=
  let k := 64 + q.log2
  let n := p * 2 ^ k / q
  .fin neg (2 * n + (if p * 2 ^ k % q = 0 then 0 else 1)) (pe - qe - k - 1)
/-- The exact quotient of two values, with its flags. -/
def xdiv (a b : XVal) : XRes :=
  match a, b with
  | .nan, _ | _, .nan => (.nan, {})
  | .inf _, .inf _ => (.nan, .invalid)
  | .inf n, .fin k _ _ => (.inf (n ^^ k), {})
  | .fin n _ _, .inf k => (.fin (n ^^ k) 0 0, {})
  | .fin n m e, .fin k p q =>
    if p = 0 then (if m = 0 then (.nan, .invalid) else (.inf (n ^^ k), { dz := true }))
    else if m = 0 then (.fin (n ^^ k) 0 0, {}) else (quotient (n ^^ k) m e p q, {})
/-- The square root likewise. -/
def xsqrt (a : XVal) : XRes :=
  match a with
  | .nan => (.nan, {})
  | .inf n => if n then (.nan, .invalid) else (.inf false, {})
  | .fin n m e =>
    if m = 0 then (.fin n 0 0, {})
    else if n then (.nan, .invalid)
    else
      let odd := (e % 2).toNat
      let v := m * 2 ^ odd * 4 ^ 64
      let r := isqrt (v.log2 / 2 + 1) v 0
      (.fin false (2 * r + (if r * r = v then 0 else 1)) ((e - odd) / 2 - 64 - 1), {})
/-- An FP32 result under RNE, flushed and flagged. -/
def f32Out (r : XRes) : Val × Flags := let x := Arith.float {} r; (.f32 x.1, x.2)
/-- An integer. -/
def i32Out (v : Word) : Val × Flags := (.i32 v, {})
/-- 1 or 0. -/
def boolOut (b : Bool) : Val × Flags := i32Out (if b then 1 else 0)
/-- The element function of a strand instruction: its integer or its FP32 result. -/
def intOf (f : ElemIn → ElemOut) (i : ElemIn) : Val × Flags := let x := f i; (.i32 x.1, x.2)
/-- The same for an FP32 result. -/
def floatOf (f : ElemIn → ElemOut) (i : ElemIn) : Val × Flags := let x := f i; (.f32 x.1, x.2)

/-- 0x20 to 0x2F; a division by 0 gives 0 and a remainder equal to the dividend, and the most negative number by −1 itself and 0. -/
def I32Bin.eval (o : I32Bin) (a b : Word) : Word :=
  match o with
  | .add => a + b
  | .sub => a - b
  | .mul => a * b
  | .mulhs => BitVec.ofInt 32 (a.toInt * b.toInt / 2 ^ 32)
  | .mulhn => BitVec.ofNat 32 (a.toNat * b.toNat / 2 ^ 32)
  | .divs => if b = 0 then 0 else BitVec.ofInt 32 (a.toInt.tdiv b.toInt)
  | .divn => BitVec.ofNat 32 (a.toNat / b.toNat)
  | .rems => if b = 0 then a else BitVec.ofInt 32 (a.toInt.tmod b.toInt)
  | .remn => BitVec.ofNat 32 (a.toNat % b.toNat)
  | .and => a &&& b
  | .or => a ||| b
  | .xor => a ^^^ b
  | .shl => a <<< (b.toNat % 32)
  | .shrn => a >>> (b.toNat % 32)
  | .shrs => a.sshiftRight (b.toNat % 32)
  | .rotl => a.rotateLeft (b.toNat % 32)
/-- 0x30 to 0x37. -/
def I32Cmp.eval (o : I32Cmp) (a b : Word) : Bool :=
  match o with
  | .eq => a == b
  | .ne => a != b
  | .lts => a.slt b
  | .les => a.sle b
  | .ltn => a.ult b
  | .len => a.ule b
  | .gts => b.slt a
  | .ges => b.sle a
/-- 0x48 to 0x4D. -/
def F32Bin.eval (o : F32Bin) (a b : Word) : Val × Flags :=
  let i : ElemIn := { a := a, b := b }
  match o with
  | .add => floatOf Arith.fadd i
  | .sub => floatOf Arith.fsub i
  | .mul => floatOf Arith.fmul i
  | .div => f32Out (xdiv (Machine.f32 a) (Machine.f32 b))
  | .min => floatOf Arith.fmin i
  | .max => floatOf Arith.fmax i
/-- 0x4F to 0x55 and 0x5A to 0x61; `compat` is SFCOMPAT. -/
def F32Un.eval (o : F32Un) (compat : Bool) (b : Word) : Val × Flags :=
  let i : ElemIn := { b := b, compat := compat }
  match o with
  | .sqrt => f32Out (xsqrt (Machine.f32 b))
  | .neg => f32Out ((Machine.f32 b).negIf true, {})
  | .abs => f32Out ((Machine.f32 b).absIf true, {})
  | .floor => floatOf Arith.ffloor i
  | .ceil => floatOf Arith.fceil i
  | .trunc => floatOf Arith.ftrunc i
  | .nearest => floatOf Arith.frnd i
  | .rcp => floatOf Arith.rcp i
  | .rsq => floatOf Arith.rsq i
  | .ex2 => floatOf Arith.ex2 i
  | .lg2 => floatOf Arith.lg2 i
  | .sinpi => floatOf Arith.sinpi i
  | .cospi => floatOf Arith.cospi i
  | .tanh => floatOf Arith.tanh i
  | .sigm => floatOf Arith.sigm i
/-- 0x56 to 0x59. -/
def F32Cmp.eval (o : F32Cmp) (a b : Word) : Val × Flags :=
  let i : ElemIn := { a := a, b := b }
  match o with
  | .eq => intOf Arith.fceq i
  | .lt => intOf Arith.fclt i
  | .le => intOf Arith.fcle i
  | .unord => intOf Arith.fcun i
/-- What an opcode that only computes makes of its operands, the last pushed first; none where they are not of its types. -/
def Op.eval (o : Op) (compat : Bool) (xs : List Val) : Option (Val × Flags) :=
  match o, xs with
  | .i32Const v, [] => some (.i32 v, {})
  | .i64Const v, [] => some (.i64 v, {})
  | .f32Const v, [] => some (.f32 v, {})
  | .i32Bin o, [.i32 b, .i32 a] => some (i32Out (o.eval a b))
  | .i32Cmp o, [.i32 b, .i32 a] => some (boolOut (o.eval a b))
  | .i32Un .clz, [.i32 a] => some (intOf Arith.clz { b := a })
  | .i32Un .popc, [.i32 a] => some (intOf Arith.popc { b := a })
  | .i32Un .brev, [.i32 a] => some (intOf Arith.brev { b := a })
  | .i32Un .eqz, [.i32 a] => some (boolOut (a == 0))
  | .i64Bin .add, [.i64 b, .i64 a] => some (.i64 (a + b), {})
  | .i64Bin .sub, [.i64 b, .i64 a] => some (.i64 (a - b), {})
  | .i64Bin .mul, [.i64 b, .i64 a] => some (.i64 (a * b), {})
  | .i64Shl, [.i32 b, .i64 a] => some (.i64 (a <<< (b.toNat % 64)), {})
  | .i64Eq, [.i64 b, .i64 a] => some (boolOut (a == b))
  | .f32Bin o, [.f32 b, .f32 a] => some (o.eval a b)
  | .f32Fma, [.f32 c, .f32 b, .f32 a] => some (floatOf Arith.ffma { a := c, x := a, b := b })
  | .f32Un o, [.f32 a] => some (o.eval compat a)
  | .f32Cmp o, [.f32 b, .f32 a] => some (o.eval a b)
  | .conv .extendS, [.i32 a] => some (.i64 (a.signExtend 64), {})
  | .conv .extendN, [.i32 a] => some (.i64 (a.setWidth 64), {})
  | .conv .wrap, [.i64 a] => some (.i32 (a.setWidth 32), {})
  | .conv .fromS32, [.i32 a] => some (floatOf Arith.cvtF32S32 { b := a })
  | .conv .fromN32, [.i32 a] => some (floatOf Arith.cvtF32N32 { b := a })
  | .conv .toS32, [.f32 a] => some (intOf Arith.cvtS32F32 { b := a })
  | .conv .toN32, [.f32 a] => some (intOf Arith.cvtN32F32 { b := a })
  | .conv .fromBits, [.i32 a] => some (.f32 a, {})
  | .conv .toBits, [.f32 a] => some (.i32 a, {})
  | .conv .pack, [.f32 a] => some (intOf Arith.cvtBf16F32 { b := a })
  | .conv .unpack, [.i32 a] => some (floatOf Arith.cvtF32Bf16 { b := a })
  | _, _ => none

/-! ## Subgroups (R70) -/

/-- The i32 or f32 bits of a value. -/
def Val.word : Val → Word
  | .i32 v | .f32 v => v
  | .i64 v => v.setWidth 32
  | .tile _ => 0
/-- The results of a subgroup operation, one for each VLANE, from the invocations' operands, the last pushed first; none stands for an invocation
that has exited. Of the operands of `sg.shuffle` the index is on top, the value below it: the model's choice (log 128). -/
def SgOp.eval (o : SgOp) (xs : List (Option (List Val))) : List Val :=
  let w := xs.length
  let top (v : Nat) (gone : Word) : Word := match (xs[v]?).join with | some (x :: _) => x.word | _ => gone
  let value (v : Nat) : Word := match o, (xs[v]?).join with
    | .shuffle, some [_, x] => x.word
    | .shuffle, _ => 0
    | _, _ => top v 0
  let from_ (f : Nat → Option Nat) : List Val := (List.range w).map fun v => .i32 (match f v with
    | some u => if u < w then value u else value v
    | none => value v)
  let every (x : Val) : List Val := List.replicate w x
  let alive (gone : Word) : List Word := (List.range w).map fun v => top v gone
  match o with
  | .shuffle => (List.range w).map fun v => .i32 (value ((top v 0).toNat % w))
  | .up d => from_ fun v => if d ≤ v then some (v - d) else none
  | .down d => from_ fun v => some (v + d)
  | .xor d => from_ fun v => some (v ^^^ d)
  | .any => every (.i32 (if (alive 0).any (· != 0) then 1 else 0))
  | .all => every (.i32 (if (alive 0).all (· != 0) then 1 else 0))
  | .ballot => every (.i64 (BitVec.ofNat 64 (((alive 0).zipIdx.map fun x => if x.1 = 0 then 0 else 2 ^ x.2).sum)))
  | .sumI32 => every (.i32 ((alive 0).foldl (· + ·) 0))
  | .maxS32 => every (.i32 (match alive 0 with
    | [] => 0
    | a :: r => r.foldl (fun m x => if m.slt x then x else m) a))
  | .sumF32 => every (.f32 ((Arith.tree w.log2 (alive 0)).1.headD 0))
  | .maxF32 => every (.f32 (Arith.rowMax (alive 0xFF7FFFFF)))

/-! ## The machine of one invocation (R67, R71) -/

/-- What an invocation asks of the rest of its group, of memory and of the engines; the answer is pushed where there is one. -/
inductive Req where
  | load (o : LoadOp) (m : MemArg) (addr : BitVec 64)
  | store (o : StoreOp) (m : MemArg) (addr : BitVec 64) (v : Val)
  | rmw (o : AtomOp) (m : MemArg) (addr : BitVec 64) (v : Word)
  | cas (m : MemArg) (addr : BitVec 64) (expected new : Word)
  | fence (s : Scope)
  | sg (o : SgOp) (xs : List Val)
  | mma (fa fb pa pb k flags : Nat) (tile : Val) (a b : Word)
  | copy (flags : Nat) (src dst : BitVec 64) (bytes sync : Word)
  | wait (off gen : Word)
  | barrier (b : Nat)
  | frz (va len : BitVec 64)
  | thaw (id : Word)
  | importCall (i : Nat) (args : List Val)
  deriving DecidableEq, Repr

/-- Where a branch to an open frame goes: the opcode it continues at, the height of the stack there, how many values it carries. -/
structure Label where
  cont : Nat
  height : Nat
  arity : Nat
  deriving DecidableEq, Repr
/-- An activation of a function. -/
structure Act where
  func : Nat
  pc : Nat
  locals : List Val
  stack : List Val
  labels : List Label
  deriving DecidableEq, Repr
/-- An invocation: its activations, the running one first, and its sticky flags. -/
structure Inv where
  acts : List Act
  flags : Flags
  deriving DecidableEq, Repr
/-- What is fixed for an invocation: its module, the address of the argument block, the kernel's width, its TID, GRPX to GRPZ, NGRPX to
NGRPZ and STAGE, SFCOMPAT. -/
structure Env where
  mod : Module
  args : BitVec 64
  width : Nat
  tid : Nat
  place : List Word
  compat : Bool
  deriving DecidableEq, Repr
/-- The value of `sreg n`: VLANE, VSUB, TID, then the group's place (R67). -/
def Env.sreg (e : Env) (n : Nat) : Word :=
  match n with
  | 0 => BitVec.ofNat 32 (e.tid % e.width)
  | 1 => BitVec.ofNat 32 (e.tid / e.width)
  | 2 => BitVec.ofNat 32 e.tid
  | n + 3 => e.place.getD n 0
/-- The outcome of one opcode. -/
inductive InvOut where
  | next (v : Inv)
  | ask (r : Req) (v : Inv)
  | exited (status : Word)
  | trap (code : Nat)
  | stuck
  deriving DecidableEq, Repr

/-- The index after the `end` that closes the frame opened before `pc`, `depth` frames being open inside it; and of its `else`, if it has one. -/
def frameEnd : List Op → Nat → Nat → Nat
  | [], _, pc => pc
  | .block _ :: r, d, pc | .loop _ :: r, d, pc | .cond _ :: r, d, pc => frameEnd r (d + 1) (pc + 1)
  | .endFrame :: r, d, pc => if d = 0 then pc + 1 else frameEnd r (d - 1) (pc + 1)
  | _ :: r, d, pc => frameEnd r d (pc + 1)
/-- The index after a frame's `else`, or of its `end` where it has none. -/
def elseAt : List Op → Nat → Nat → Nat
  | [], _, pc => pc
  | .block _ :: r, d, pc | .loop _ :: r, d, pc | .cond _ :: r, d, pc => elseAt r (d + 1) (pc + 1)
  | .elseArm :: r, d, pc => if d = 0 then pc + 1 else elseAt r d (pc + 1)
  | .endFrame :: r, d, pc => if d = 0 then pc else elseAt r (d - 1) (pc + 1)
  | _ :: r, d, pc => elseAt r d (pc + 1)

/-- Starts a function on its arguments, the last given first. -/
def Module.enter (mod : Module) (f : Nat) (args : List Val) : Option Act :=
  match mod.funcs[f]? with
  | none => none
  | some fn => some
    { func := f, pc := 0, locals := args.reverse ++ ((mod.localTypes fn).drop args.length).map VType.zero, stack := [],
      labels := [{ cont := fn.ops.length, height := 0, arity := match mod.types[fn.typ]? with | some t => t.result.toList.length | none => 0 }] }
/-- An invocation of a kernel function. -/
def Module.start (mod : Module) (f : Nat) : Option Inv := (mod.enter f []).map fun a => { acts := [a], flags := {} }
/-- Pushes an answer. -/
def Inv.answer (v : Inv) (x : Option Val) : Inv :=
  match v.acts with
  | [] => v
  | a :: rest => { v with acts := { a with stack := x.toList ++ a.stack } :: rest }

/-- A branch of an activation to depth `d`: the frames inside are left, the values it carries stay. -/
def Act.branch (a : Act) (d : Nat) : Act :=
  match a.labels[d]? with
  | none => a
  | some l => { a with pc := l.cont, stack := a.stack.take l.arity ++ a.stack.drop (a.stack.length - l.height),
                       labels := if l.arity = 0 ∧ l.cont ≤ a.pc then a.labels.drop d else a.labels.drop (d + 1) }
/-- The address of an access: the operand plus the offset (R68). -/
def MemArg.address (m : MemArg) : Val → BitVec 64
  | .i64 v => v + BitVec.ofNat 64 m.offset
  | .i32 v => BitVec.ofNat 64 ((v.toNat + m.offset) % 2 ^ 32)
  | _ => 0

/-- Leaves a function with its result. -/
def Inv.leave (v : Inv) (result : List Val) : InvOut :=
  match v.acts with
  | [] | [_] => .exited 0
  | _ :: b :: rest => .next { v with acts := { b with stack := result ++ b.stack } :: rest }

/-- One opcode of an invocation (R67). -/
def Inv.step (e : Env) (v : Inv) : InvOut :=
  match v.acts with
  | [] => .stuck
  | a :: rest =>
    match e.mod.funcs[a.func]? with
    | none => .stuck
    | some fn =>
      let ops := fn.ops.map (·.2)
      let after := ops.drop (a.pc + 1)
      let a' : Act := { a with pc := a.pc + 1 }
      let on (a : Act) : InvOut := .next { v with acts := a :: rest }
      let ask (r : Req) (s : List Val) : InvOut := .ask r { v with acts := { a' with stack := s } :: rest }
      let arity (t : Option VType) : Nat := t.toList.length
      let finish (s : List Val) : InvOut := v.leave (s.take (match e.mod.types[fn.typ]? with | some t => arity t.result | none => 0))
      match ops[a.pc]? with
      | none => finish a.stack
      | some o => match o, a.stack with
        | .nop, _ => on a'
        | .unreachable, _ => .trap 0x0102
        | .block t, s => on { a' with labels := { cont := frameEnd after 0 (a.pc + 1), height := s.length, arity := arity t } :: a.labels }
        | .loop _, s => on { a' with labels := { cont := a.pc + 1, height := s.length, arity := 0 } :: a.labels }
        | .cond t, .i32 c :: s =>
          let l : Label := { cont := frameEnd after 0 (a.pc + 1), height := s.length, arity := arity t }
          on { a' with stack := s, pc := if c ≠ 0 then a.pc + 1 else elseAt after 0 (a.pc + 1), labels := l :: a.labels }
        | .elseArm, _ => on (a.branch 0)
        | .endFrame, s => if a.labels.length ≤ 1 then finish s else on { a' with labels := a.labels.drop 1 }
        | .br d, s => if a.labels.length ≤ d + 1 then finish s else on (a.branch d)
        | .brIf d, .i32 c :: s =>
          let a2 := { a' with stack := s }
          if c = 0 then on a2 else if a.labels.length ≤ d + 1 then finish s else on ({ a with stack := s }.branch d)
        | .brTable ds dflt, .i32 c :: s =>
          let d := ds.getD c.toNat dflt
          if a.labels.length ≤ d + 1 then finish s else on ({ a with stack := s }.branch d)
        | .ret, s => finish s
        | .exit, .i32 c :: _ => .exited c
        | .call f, s => match (e.mod.funcs[f]?).bind fun g => e.mod.types[g.typ]? with
          | none => .stuck
          | some t => match e.mod.enter f (s.take t.params.length) with
            | none => .stuck
            | some b => .next { v with acts := b :: { a' with stack := s.drop t.params.length } :: rest }
        | .callImport i, s => match (e.mod.imports[i]?).bind fun x => e.mod.types[x.index]? with
          | none => .stuck
          | some t => ask (.importCall i (s.take t.params.length).reverse) (s.drop t.params.length)
        | .drop, _ :: s => on { a' with stack := s }
        | .select, .i32 c :: y :: x :: s => on { a' with stack := (if c ≠ 0 then x else y) :: s }
        | .localGet i, s => on { a' with stack := a.locals.getD i (.i32 0) :: s }
        | .localSet i, x :: s => on { a' with stack := s, locals := a.locals.set i x }
        | .localTee i, x :: s => on { a' with stack := x :: s, locals := a.locals.set i x }
        | .args, s => on { a' with stack := .i64 e.args :: s }
        | .sreg n, s => on { a' with stack := .i32 (e.sreg n) :: s }
        | .load o m, x :: s => ask (.load o m (m.address x)) s
        | .store o m, y :: x :: s => ask (.store o m (m.address x) y) s
        | .rmw m o, .i32 y :: x :: s => ask (.rmw o m (m.address x) y) s
        | .cas m, .i32 new :: .i32 old :: x :: s => ask (.cas m (m.address x) old new) s
        | .fence sc, s => ask (.fence sc) s
        | .sg o, s => ask (.sg o (s.take o.sig.1.length)) (s.drop o.sig.1.length)
        | .tileZero, s => on { a' with stack := VType.tile.zero :: s }
        | .tileMma fa fb pa pb k fl, .i32 y :: .i32 x :: t :: s => ask (.mma fa fb pa pb k fl t x y) s
        | .tileGet, .i32 c :: .tile t :: s => on { a' with stack := .f32 (t.getD c.toNat (Config.freeWord c.toNat)) :: s }
        | .tileSet, .f32 x :: .i32 c :: .tile t :: s =>
          on { a' with stack := .tile (if c.toNat < 32 then t.set c.toNat x else (List.range 32).map Config.freeWord) :: s }
        | .copy fl, .i32 sy :: .i32 n :: .i64 d :: .i64 x :: s => ask (.copy fl x d n sy) s
        | .wait, .i32 g :: .i32 off :: s => ask (.wait off g) s
        | .barrier b, s => ask (.barrier b) s
        | .frz, .i64 n :: .i64 va :: s => ask (.frz va n) s
        | .thaw, .i32 id :: s => ask (.thaw id) s
        | o, s => match o.computes with
          | none => .stuck
          | some (ts, _) => match o.eval e.compat (s.take ts.length) with
            | none => .stuck
            | some (x, fl) => .next { acts := { a' with stack := x :: s.drop ts.length } :: rest, flags := v.flags.or fl }

/-! ## The invocations of a group together (R66, R70) -/

/-- How an invocation of a group stands: it runs, it has asked and waits, it has exited, it has trapped with a software trap's code. -/
inductive Seat where
  | runs (v : Inv)
  | waits (r : Req) (v : Inv)
  | gone (status : Word)
  | trapped (code : Nat) (v : Inv)
  deriving DecidableEq, Repr
/-- Where an invocation stands in its program. -/
def Inv.place (v : Inv) : List (Nat × Nat) := v.acts.map fun a => (a.func, a.pc)
/-- The request of an invocation that waits, with its place. -/
def Seat.asked? : Seat → Option (Req × List (Nat × Nat))
  | .waits r v => some (r, v.place)
  | _ => none
/-- An invocation that has exited holds nobody up. -/
def Seat.isGone : Seat → Bool
  | .gone _ => true
  | _ => false
/-- An invocation that waited goes on with its answer and the flags that making it has set. -/
def Seat.resume (x : Option Val) (fl : Flags := {}) : Seat → Seat
  | .waits _ v => let v := v.answer x; .runs { v with flags := v.flags.or fl }
  | s => s
/-- The operation that every invocation of a subgroup still there has reached, at one place, with their operands; none while one has not (R70).
Two invocations have reached the same operation when their whole chains of activations agree, function and opcode of each: the model's
choice (log 128). -/
def subgroupAt (xs : List Seat) : Option (SgOp × List (Option (List Val))) :=
  match xs.findSome? Seat.asked? with
  | some (.sg o _, at_) =>
    if xs.all fun x => x.isGone || (match x.asked? with | some (.sg p _, q) => p == o && q == at_ | _ => false) then
      some (o, xs.map fun x => match x.asked? with | some (.sg _ vs, _) => some vs | _ => none)
    else none
  | _ => none
/-- The flags that the additions of `sg.sum_f32` set, those of `csum` (R67, R190): every invocation of the subgroup has them. -/
def SgOp.flags (o : SgOp) (xs : List (Option (List Val))) : Flags :=
  match o with
  | .sumF32 => (Arith.tree xs.length.log2 (xs.map fun x => match x with | some (v :: _) => v.word | _ => 0)).2
  | _ => {}
/-- The subgroup's operation is carried out: each invocation goes on with its own result (R70). -/
def subgroupStep (xs : List Seat) : Option (List Seat) :=
  (subgroupAt xs).map fun x => List.zipWith (fun s v => s.resume (some v) (x.1.flags x.2)) xs (x.1.eval x.2)
/-- The uniform request that every invocation of a group still there has reached: the teller carries it out once (R66). -/
def uniformAt (xs : List Seat) : Option Req :=
  match xs.findSome? Seat.asked? with
  | some (r, at_) =>
    let uniform := match r with
      | .mma _ _ _ _ _ _ _ _ _ | .copy _ _ _ _ _ | .wait _ _ | .barrier _ | .frz _ _ | .thaw _ => true
      | _ => false
    if uniform && xs.all fun x => x.isGone || (match x.asked? with | some (_, q) => q == at_ | none => false) then some r else none
  | none => none
/-- Its result goes to every invocation (R66). -/
def uniformStep (x : Option Val) (xs : List Seat) : List Seat := xs.map (Seat.resume x)
/-- One opcode of an invocation that runs; none where it has no meaning, as never in a module that was accepted. -/
def Seat.step (e : Env) : Seat → Option Seat
  | .runs v => match v.step e with
    | .next v => some (.runs v)
    | .ask r v => some (.waits r v)
    | .exited c => some (.gone c)
    | .trap code => some (.trapped code v)
    | .stuck => none
  | s => some s

end Sys2Proof.Clound
end

