-- ==== Sys2Proof/Machine/CloundGroup.lean ====
section
/-! DEFINITION. The machine of declared width that a translated Clound kernel is to match: the invocations of one group with their memory
accesses, subgroup operations, uniform opcodes and calls of imports, over the memory of a Limler: 03_clound R65 to R71. Host software's promise: the machine's
step never reaches this file. -/

namespace Sys2Proof.Clound

open Sys2Proof.Machine

/-! ## Uniform loads (R65, R66) -/

/-- The opcodes of a body, from the `i`th on, that are loads whose address is uniform. -/
def loadMarks (mod : Module) (result : Option VType) : Nat → Nat → Ver → List Byte → List Nat
  | 0, _, _, _ => []
  | fuel + 1, i, v, bs =>
    match readOp bs with
    | .error _ => []
    | .ok (o, rest) =>
      let here := match o, v.stack with | .load _ _, (_, true) :: _ => [i] | _, _ => []
      match v.step mod result o with
      | .ok (w, false) => here ++ loadMarks mod result fuel (i + 1) w rest
      | _ => here
/-- The uniform loads of a function. -/
def Module.uniformLoads (mod : Module) (f : Nat) : List Nat :=
  match mod.funcs[f]? with
  | none => []
  | some fn =>
    let result := (mod.types[fn.typ]?).bind (·.result)
    loadMarks mod result (fn.body.length + 1) 0
      { stack := [], frames := [{ kind := .body, result := result, height := 0, dead := false, uniform := true }],
        locals := (mod.localTypes fn).map fun t => (t, true) } fn.body

/-! ## A group (R71) -/

/-- What is fixed for a group: its module and kernel, the address of the argument block, its context, core and window, GRPX to STAGE of
`sreg`, SFCOMPAT; where the context's linkage area lies, how long it is, the LINKOFF of the module's object, the addresses of its
trampolines, and those at which functions of the module lie (R56 to R59). -/
structure GroupEnv where
  mod : Module
  kernel : Kernel
  linkVa : Nat
  linkLen : Nat
  linkoff : Nat
  tramps : List (BitVec 64)
  code : List (BitVec 64 × Nat)
  args : BitVec 64
  ctx : Nat
  core : Nat
  wbase : Nat
  wsize : Nat
  place : List Word
  compat : Bool
  deriving DecidableEq, Repr
/-- What is fixed for one of its invocations. -/
def GroupEnv.inv (e : GroupEnv) (tid : Nat) : Env :=
  { mod := e.mod, args := e.args, width := e.kernel.width, tid := tid, place := e.place, compat := e.compat }

/-- A store that an invocation has executed and that is not performed: whose, in the window or in global memory, where, its bytes, whether it
is a release, whether it is misaligned, so that its bytes are performed one by one, and the units left, by offset (R227). -/
structure PStore where
  tid : Nat
  window : Bool
  at_ : Nat
  data : List Byte
  release : Bool
  split : Bool
  left : List Nat
  deriving DecidableEq, Repr
/-- A copy that the engine has not performed: source, destination, bytes, the offset of its sync word. -/
structure PCopy where
  src : BitVec 64
  dst : BitVec 64
  bytes : Nat
  sync : Nat
  deriving DecidableEq, Repr
/-- The chain of activations of an invocation at an opcode. -/
abbrev Spot := List (Nat × Nat)
/-- A group at work: the Limler whose memory it uses, its invocations by TID, the stores and copies to be performed, oldest first, the values
of uniform loads by place and occurrence, how many of each an invocation has had, the bytes that misaligned loads have read, by invocation
and offset, the invocations in code of another object, the freeze or thaw in progress, and the fault that stopped it, as class and code of
R367. -/
structure GroupM where
  st : State
  seats : List Seat
  stores : List PStore
  copies : List PCopy
  once : List ((Spot × Nat) × Val)
  had : List ((Nat × Spot) × Nat)
  parts : List ((Nat × Nat) × Byte)
  calls : List Nat
  busy : Option Nat
  fault : Option (Nat × Nat)
  deriving DecidableEq, Repr

noncomputable section

/-- The group of a kernel as it starts. -/
def GroupEnv.start (e : GroupEnv) (s : State) : GroupM :=
  { st := s, seats := List.replicate e.kernel.group (match e.mod.start e.kernel.func with | some v => .runs v | none => .gone 0),
    stores := [], copies := [], once := [], had := [], parts := [], calls := [], busy := none, fault := none }

/-- How serving a request ends: with an answer, or not yet, or in a fault of the group (R228, R367). -/
inductive Served where
  | done (x : Option Val) (m : GroupM)
  | wait
  | fault (cls code : Nat)

/-- An access that its home does not serve: a translation fault and a held page keep it for later (R219); the others are memory-model
faults (R228 steps 4 and 5). -/
def Denied.served (d : Denied) : Served :=
  match d with
  | .walk _ _ | .held | .absent _ => .wait
  | .frozen _ => .fault 4 1
  | .shadow _ => .fault 4 2
  | .wstore _ => .fault 4 5
  | .unavailable _ => .fault 4 13

/-- Step 2 of R228 for an access of `n` bytes: the window bound, then the alignment that R227 asks of atomics and ordered accesses. -/
def GroupEnv.cause (e : GroupEnv) (m : MemArg) (va n : Nat) (atomic : Bool) : Option Nat :=
  (accessCause (if m.window then 7 else 0) (BitVec.ofNat 64 va) n (atomic || m.order != .relaxed) e.wsize).map (·.code)
/-- Bytes from the window or from global memory. -/
def GroupM.read (m : GroupM) (e : GroupEnv) (window : Bool) (va n : Nat) : Except Denied (List Byte × State) :=
  if window then .ok (m.st.mems.scratchRead e.core (e.wbase + va) n, m.st) else m.st.vaRead e.ctx va n { core := some e.core }
/-- Bytes to the window or to global memory. -/
def GroupM.write (m : GroupM) (e : GroupEnv) (window : Bool) (va : Nat) (bs : List Byte) : Except Denied State :=
  if window then .ok { m.st with mems := m.st.mems.scratchWrite e.core (e.wbase + va) bs }
  else m.st.vaWrite e.ctx va bs { core := some e.core }
/-- One indivisible read and rewrite: the old bytes. -/
def GroupM.update (m : GroupM) (e : GroupEnv) (window : Bool) (va n : Nat) (f : List Byte → List Byte) (kind : RemoteKind) :
    Except Denied (List Byte × State) :=
  if window then
    let old := m.st.mems.scratchRead e.core (e.wbase + va) n
    .ok (old, { m.st with mems := m.st.mems.scratchWrite e.core (e.wbase + va) (f old) })
  else m.st.vaUpdate e.ctx va n f (some kind) { core := some e.core }

/-- Two ranges of one space share a byte. -/
def PStore.meets (x : PStore) (window : Bool) (va n : Nat) : Bool := x.window == window && decide (x.at_ < va + n ∧ va < x.at_ + x.data.length)
/-- Two stores or atomics reach one line of global memory, or share a byte of the window: they are performed in program order (R322, R334). -/
def PStore.ordered (x : PStore) (window : Bool) (va n : Nat) : Bool :=
  if window then x.meets window va n else x.window == window && decide (x.at_ / 128 ≤ (va + n - 1) / 128 ∧ va / 128 ≤ (x.at_ + x.data.length - 1) / 128)
/-- An invocation's own stores to bytes of an access are not all performed. -/
def GroupM.behind (m : GroupM) (tid : Nat) (window : Bool) (va n : Nat) : Bool := m.stores.any fun x => x.tid == tid && x.meets window va n
/-- An invocation's own stores that an atomic follows are not all performed. -/
def GroupM.queued (m : GroupM) (tid : Nat) (window : Bool) (va n : Nat) : Bool := m.stores.any fun x => x.tid == tid && x.ordered window va n
/-- Some store of an invocation is not performed. -/
def GroupM.owes (m : GroupM) (tid : Nat) : Bool := m.stores.any (·.tid == tid)

/-- Bytes of a load. -/
def LoadOp.size : LoadOp → Nat
  | .i64 => 8
  | .i32 | .f32 => 4
  | .s16 | .n16 => 2
  | .s8 | .n8 => 1
/-- The value a load gives. -/
def LoadOp.value (o : LoadOp) (bs : List Byte) : Val :=
  let n := leNat bs
  match o with
  | .i64 => .i64 (BitVec.ofNat 64 n)
  | .f32 => .f32 (BitVec.ofNat 32 n)
  | .s8 => .i32 ((BitVec.ofNat 8 n).signExtend 32)
  | .s16 => .i32 ((BitVec.ofNat 16 n).signExtend 32)
  | .i32 | .n8 | .n16 => .i32 (BitVec.ofNat 32 n)
/-- The low bytes that a store writes. -/
def StoreOp.bytes (o : StoreOp) (v : Val) : List Byte :=
  let n := match v with | .i64 w => w.toNat | v => v.word.toNat
  leBytes (match o with | .i64 => 8 | .i32 | .f32 => 4 | .b16 => 2 | .b8 => 1) n

/-- A change of memory, and its answer. -/
def GroupM.answered (m : GroupM) (r : Except Denied (List Byte × State)) (f : List Byte → Option Val) : Served :=
  match r with
  | .error d => Denied.served d
  | .ok (bs, s) => .done (f bs) { m with st := s }

/-- A group-scope atomic stands on a page outside the core's reach, HOST or REMOTE (R228 step 4, R229 cause 4). -/
def GroupM.farPage (m : GroupM) (e : GroupEnv) (a : MemArg) (va : Nat) : Bool :=
  !a.window && a.scope == .grp &&
    (match m.st.translate e.ctx va .atomic (some e.core) with | .ok (x, _) => x.perm.typ == .host || x.perm.typ == .remote | .error _ => false)

/-- An indivisible operation (R236, R237, R240): after the invocation's earlier stores to its line, after all of them where it is a
release. -/
def GroupM.atomic (m : GroupM) (e : GroupEnv) (tid : Nat) (a : MemArg) (va : Nat) (f : List Byte → List Byte) (kind : RemoteKind) : Served :=
  match e.cause a va 4 true with
  | some c => .fault 4 c
  | none =>
    if m.queued tid a.window va 4 || ((a.order == .release || a.order == .acqRel) && m.owes tid) then .wait
    else if m.farPage e a va then .fault 4 4
    else m.answered (m.update e a.window va 4 f kind) fun bs => some (.i32 (BitVec.ofNat 32 (leNat bs)))

/-- How often an invocation has had the value of a uniform load at a place. -/
def GroupM.times (m : GroupM) (tid : Nat) (p : Spot) : Nat := match m.had.find? (·.1 == (tid, p)) with | some x => x.2 | none => 0
/-- The bytes that a misaligned load has read one by one; none while one is missing, or for an aligned one (R227). -/
def GroupM.gathered (m : GroupM) (tid n : Nat) : Option (List Byte) :=
  let got := (List.range n).filterMap fun i => (m.parts.find? (·.1 == (tid, i))).map (·.2)
  if got.length = n then some got else none
/-- A misaligned load of `n` bytes reads one of them (R227). -/
def GroupM.readPart (m : GroupM) (e : GroupEnv) (tid i : Nat) (a : MemArg) (va n : Nat) : GroupM :=
  if va % n = 0 ∨ n ≤ i ∨ (e.cause a va n false).isSome ∨ m.behind tid a.window va n ∨ m.parts.any (·.1 == (tid, i)) then m
  else match m.read e a.window va n with
    | .error _ => m
    | .ok _ => match m.read e a.window (va + i) 1 with
      | .ok (b :: _, s) => { m with st := s, parts := ((tid, i), b) :: m.parts }
      | _ => m
/-- A load (R68); a misaligned one once it has read its bytes one by one (R227); a uniform one is performed when the first invocation comes to
it, and every other that comes to it as often gets the same value (R66, log 128). -/
def GroupM.load (m : GroupM) (e : GroupEnv) (tid : Nat) (p : Spot) (o : LoadOp) (a : MemArg) (va : Nat) : Served :=
  match e.cause a va o.size false with
  | some c => .fault 4 c
  | none =>
    let uniform := match p with | (f, pc) :: _ => (e.mod.uniformLoads f).contains (pc - 1) | [] => false
    let k := m.times tid p
    let count (m : GroupM) : GroupM := if uniform then { m with had := ((tid, p), k + 1) :: m.had.filter (·.1 != (tid, p)) } else m
    match m.once.find? fun x => uniform && x.1 == (p, k) with
    | some x => .done (some x.2) (count m)
    | none =>
      if m.behind tid a.window va o.size then .wait
      else match m.read e a.window va o.size with
        | .error d => Denied.served d
        | .ok (bs, s) => match (if va % o.size = 0 then some (bs, s) else (m.gathered tid o.size).map (·, m.st)) with
        | none => .wait
        | some (bs, s) =>
          let m := { m with st := s, parts := m.parts.filter (·.1.1 != tid) }
          .done (some (o.value bs)) (count (if uniform then { m with once := ((p, k), o.value bs) :: m.once } else m))

/-- A request that one invocation makes of memory (R68, R71). A store is answered at once and performed later. -/
def GroupM.serve (m : GroupM) (e : GroupEnv) (tid : Nat) (p : Spot) (r : Req) : Served :=
  match r with
  | .load o a va => m.load e tid p o a va.toNat
  | .store o a va v =>
    let bs := o.bytes v
    match e.cause a va.toNat bs.length false with
    | some c => .fault 4 c
    | none =>
      let split := va.toNat % bs.length != 0
      .done none { m with stores := m.stores ++ [{ tid := tid, window := a.window, at_ := va.toNat, data := bs, release := a.order != .relaxed,
                                                    split := split, left := List.range (if split then bs.length else 1) }] }
  | .rmw o a va v => m.atomic e tid a va.toNat (fun old => wordBytes (atomResult o (wordOf old) v)) (.atom o v)
  | .cas a va x n =>
    m.atomic e tid a va.toNat (fun old => if wordOf old = x then wordBytes n else old) (.cas x.toNat n.toNat 4)
  | .fence _ => if m.owes tid then .wait else .done none m
  | _ => .wait

/-- The bytes of a store's unit at an offset. -/
def PStore.unit (x : PStore) (i : Nat) : List Byte := if x.split then slice x.data i 1 else x.data
/-- Nothing of a store is performed yet. -/
def PStore.whole (x : PStore) : Bool := x.left.length == (if x.split then x.data.length else 1)
/-- The group stops for a fault, unless one has stopped it already. -/
def GroupM.stops (m : GroupM) (cls code : Nat) : GroupM := { m with fault := m.fault.or (some (cls, code)) }
/-- A unit of a store is performed: not before an earlier store of its invocation to its line, a release before none of them (R233, R322,
R334); nothing of it before all its pages are translated (R228). One that faults is no event (R335). -/
def GroupM.perform (m : GroupM) (e : GroupEnv) (k i : Nat) : GroupM :=
  match m.stores[k]? with
  | none => m
  | some x =>
    let first := (m.stores.take k).any fun y => y.tid == x.tid && (x.release || y.ordered x.window x.at_ x.data.length)
    if first || !x.left.contains i then m
    else match (if x.whole then m.write e x.window x.at_ x.data else .ok m.st) with
      | .error d => match Denied.served d with | .fault c n => { m with stores := m.stores.eraseIdx k }.stops c n | _ => m
      | .ok _ => match m.write e x.window (x.at_ + i) (x.unit i) with
        | .error _ => m
        | .ok s =>
          let left := x.left.erase i
          { m with st := s, stores := if left.isEmpty then m.stores.eraseIdx k else m.stores.set k { x with left := left } }

/-! ## The teller's part: uniform opcodes (R66, R69) -/

/-- The rows of a tile that 16 invocations hold, those of one value of TID / 16, after `tile.mma` with the blocks at window offsets `a` and `b`
(R69, R304 to R306); none where a block passes the window (R290 cause 1). Of an integer format all planes are read, whatever plane count R69
lets it name (log 128). K is the number of elements of the one k-step, a plane's row
taking whole bytes, and every tile of the group takes the same blocks (log 128). -/
def mmaRow (e : GroupEnv) (s : State) (fa fb pa pb k flags : Nat) (a b : Word) (tid : Nat) (row : List Word) : Option (List Word × Flags) :=
  let fA := opFmt fa fmtReset
  let fB := opFmt fb fmtReset
  let rb := (k + 7) / 8
  let pla := if fA.int then 0 else pa
  let plb := if fB.int then 0 else pb
  let fits (f : OpFmt) (pl : Nat) (off : Word) : Bool := let (p0, n) := f.planes pl; decide (off.toNat + 16 * rb * (p0 + n) ≤ e.wsize)
  if !fits fA pla a ∨ !fits fB plb b then none
  else
    let block (off : Word) (i : Nat) : Nat := leNat (s.mems.scratchRead e.core (e.wbase + off.toNat + i) 1)
    let rowA := (List.range k).map (blockCode (block a) fA pla rb (tid % 16))
    let add (j : Nat) (x : Word) : Word × Flags :=
      stepAdd fA fB (flags.testBit 3) rowA ((List.range k).map (blockCode (block b) fB plb rb j)) x
    let start := (List.range 32).map fun j =>
      if (decide (j < 16) && flags.testBit 0) || (decide (16 ≤ j) && flags.testBit 2) then 0 else row.getD j 0
    let outs := start.zipIdx.map fun x => if (if x.2 < 16 then flags.testBit 1 else flags.testBit 2) then add (x.2 % 16) x.1 else (x.1, {})
    some (outs.map (·.1), outs.foldl (fun f x => f.or x.2) {})

/-- `tile.mma` makes a bad command (R301, R302): operands of different widths or kinds, neither ACC nor STG, an offset that is no multiple of
16. -/
def badMma (fa fb flags : Nat) (a b : Word) : Bool :=
  let fA := opFmt fa fmtReset
  let fB := opFmt fb fmtReset
  fA.w != fB.w || fA.int != fB.int || (!flags.testBit 1 && !flags.testBit 2) || a.toNat % 16 != 0 || b.toNat % 16 != 0

/-- A freeze of pages from a VA and a length in bytes, whole pages (R274, R346): the coordinator's decision, as a request of this device. -/
def GroupM.askFreeze (m : GroupM) (e : GroupEnv) (va len : Nat) : Served :=
  let pages := (len + 4095) / 4096
  let asid := (m.st.ctxAt e.ctx).asid
  if va % 4096 ≠ 0 ∨ pages = 0 ∨ 2 ^ 20 < pages ∨ 2 ^ 57 < va + pages * 4096 ∨ m.st.rangeBusy e.ctx va pages then .fault 4 9
  else
    let q : FrzReq := { id := m.st.nextId, gid := none, asid := asid, vpn := va / 4096, pages := pages, chip := m.st.chip, sent := false }
    let f (id : Nat) : Freeze := { id := id, asid := asid, vpn := va / 4096, pages := pages, count := 1, st := .freezing, origin := m.st.chip,
                                   acks := [], marked := [], dropped := false, waiters := [] }
    match m.st.decideFreeze q with
    | .later => .wait
    | .refused code => .fault 4 code
    | .again id => .done none { m with st := m.st.modFreeze id fun f => { f with count := f.count + 1 }, busy := some id }
    | .fresh id => .done none { m with st := { m.st with freezes := m.st.freezes ++ [f id] }.tellMirrors (f id) 1, busy := some id }

/-- The uniform opcode that every invocation has reached is carried out once, after every store of the group (R66, R244, R274). Its answer goes
to every invocation; a tile's row to the invocation that holds it. `frz` and `thaw` begin, and end when the device has done its part. -/
def GroupM.uniform (m : GroupM) (e : GroupEnv) : GroupM :=
  let all (x : Option Val) (m : GroupM) : GroupM := { m with seats := uniformStep x m.seats, busy := none }
  let stop (c n : Nat) : GroupM := m.stops c n
  let began (r : Served) : GroupM := match r with | .done _ m => m | .wait => m | .fault c n => m.stops c n
  if !m.stores.isEmpty then m
  else match uniformAt m.seats with
    | none => m
    | some r => match r with
      | .mma fa fb pa pb k fl _ a b =>
        let rows := m.seats.zipIdx.map fun x => match x.1.asked? with
          | some (.mma _ _ _ _ _ _ (.tile t) _ _, _) => mmaRow e m.st fa fb pa pb k fl a b x.2 t
          | _ => some ([], {})
        if badMma fa fb fl a b then stop 1 5
        else if rows.any (·.isNone) then stop 10 1
        else { m with seats := List.zipWith (fun s r => match r with | some (t, fl) => s.resume (some (.tile t)) fl | none => s) m.seats rows }
      | .copy _ src dst n sync =>
        all none { m with copies := m.copies ++ [{ src := src, dst := dst, bytes := n.toNat, sync := sync.toNat }] }
      | .wait off gen =>
        match e.cause { order := .relaxed, scope := .grp, window := true, stream := false, offset := 0 } off.toNat 16 true with
        | some c => stop 4 c
        | none =>
          let now : Word := BitVec.ofNat 32 (leNat (m.st.mems.scratchRead e.core (e.wbase + off.toNat + 8) 4))
          if now = gen then m else all (some (.i32 now)) m
      | .barrier b => if e.kernel.barriers ≤ b then stop 1 0 else all none m
      | .frz va len => match m.busy with
        | none => began (m.askFreeze e va.toNat len.toNat)
        | some id =>
          if m.st.freezes.any fun f => f.id == id && f.st == .freezing then m else all (some (.i32 (BitVec.ofNat 32 id))) m
      | .thaw id => match m.busy with
        | none =>
          let asid := (m.st.ctxAt e.ctx).asid
          match m.st.freezes.find? fun f => f.id == id.toNat && f.asid == asid && f.active && f.count != 0 with
          | none => stop 4 11
          | some f => { m with st := m.st.lowerCount f false, busy := some f.id }
        | some id => if m.st.thawing id then m else all none m
      | _ => m

/-- One side of a copy: a teller address with every SEG base 0, the window through segment 7 (R256, R72). -/
def copySide (a : BitVec 64) : Option (Bool × Nat) :=
  match teleAddr (List.replicate 7 0) a 0 with
  | .glob va => some (false, va.toNat)
  | .window off => some (true, off)
  | .outside => none
/-- A copy is performed, and adds its bytes to its sync word (R246). One that leaves the window, and one whose sync word is misaligned or
outside it, takes engine cause 1; one of no bytes adds 0 (log 128). -/
def GroupM.copyDone (m : GroupM) (e : GroupEnv) (k : Nat) : GroupM :=
  match m.copies[k]? with
  | none => m
  | some c =>
    let fits (x : Bool × Nat) : Bool := !x.1 || decide (x.2 + c.bytes ≤ e.wsize)
    match copySide c.src, copySide c.dst with
    | some x, some y =>
      if !fits x || !fits y || decide (e.wsize < c.sync + 16) || c.sync % 16 != 0 then { m with copies := m.copies.eraseIdx k }.stops 10 1
      else
        let moved : Except Denied State := do
          let (bs, s) ← m.read e x.1 x.2 c.bytes
          ({ m with st := s } : GroupM).write e y.1 y.2 bs
        match moved with
        | .ok s =>
          let (s, bad) := s.syncUpdate e.core (e.wbase + c.sync) 0 (BitVec.ofNat 32 c.bytes)
          let m := { m with st := s, copies := m.copies.eraseIdx k }
          if bad then m.stops 5 0 else m
        | .error d => match Denied.served d with | .fault a b => { m with copies := m.copies.eraseIdx k }.stops a b | _ => m
    | _, _ => { m with copies := m.copies.eraseIdx k }.stops 10 1

/-! ## Calls of imports (R56 to R59, R67) -/

/-- What code of another object does on an invocation's strand (R59): it makes an access, with this group's memory rules; it returns a result
with the flags that it has set; it ends the thread; it traps. -/
inductive Callee where
  | asks (r : Req)
  | returns (x : Option Val) (flags : Flags)
  | exits (status : Word)
  | traps (cls code : Nat)
  deriving DecidableEq, Repr
/-- The type of a value. -/
def Val.type : Val → VType
  | .i32 _ => .i32
  | .i64 _ => .i64
  | .f32 _ => .f32
  | .tile _ => .tile
/-- A value is what an import's type gives back, or none where it gives nothing. -/
def Module.gives (mod : Module) (i : Nat) (x : Option Val) : Bool :=
  match (mod.imports[i]?).bind fun f => mod.types[f.index]? with
  | some t => t.result == x.map Val.type
  | none => false
/-- A request that code may make of memory. -/
def Req.ofMemory : Req → Bool
  | .load _ _ _ | .store _ _ _ _ | .rmw _ _ _ _ | .cas _ _ _ _ | .fence _ => true
  | _ => false

/-- A seat replaced. -/
def GroupM.put (m : GroupM) (tid : Nat) (x : Seat) : GroupM := { m with seats := m.seats.set tid x }
/-- An invocation that calls an import goes to an address: a function of this module, or the code of another object. -/
def GroupM.goto (m : GroupM) (e : GroupEnv) (tid : Nat) (v : Inv) (args : List Val) (target : BitVec 64) : GroupM :=
  match e.code.find? (·.1 == target) with
  | some f => match e.mod.enter f.2 args.reverse with | some a => m.put tid (.runs { v with acts := a :: v.acts }) | none => m
  | none => { m with calls := tid :: m.calls }
/-- The resolver on an invocation's strand (R58), its accesses one after the other in one turn (log 128): the entry takes the target, or
the import stays unresolved, software trap 0x0101. -/
def GroupM.resolve (m : GroupM) (e : GroupEnv) (tid i : Nat) (v : Inv) (args : List Val) : GroupM :=
  if m.owes tid then m
  else match m.read e false e.linkVa e.linkLen with
    | .error d => match Denied.served d with | .fault a b => m.stops a b | _ => m
    | .ok (area, s) => match Sys2Proof.Machine.resolve area e.linkoff i with
      | .unresolved => m.put tid (.trapped 0x0101 v)
      | .endless => m
      | .jump target new => match ({ m with st := s } : GroupM).write e false e.linkVa (new.take e.linkLen) with
        | .error d => match Denied.served d with | .fault a b => m.stops a b | _ => m
        | .ok s => ({ m with st := s } : GroupM).goto e tid v args target
/-- An invocation that calls an import reads its linkage entry and goes where it says, by way of the resolver while the entry still names its
trampoline (R58, R59). -/
def GroupM.link (m : GroupM) (e : GroupEnv) (tid : Nat) : GroupM :=
  match m.seats[tid]? with
  | some (.waits (.importCall i args) v) =>
    let at_ := e.linkVa + e.linkoff + 8 * i
    if m.calls.contains tid || m.behind tid false at_ 8 then m
    else match m.read e false at_ 8 with
      | .error d => match Denied.served d with | .fault a b => m.stops a b | _ => m
      | .ok (bs, s) =>
        let target : BitVec 64 := BitVec.ofNat 64 (leNat bs)
        let m := { m with st := s }
        if e.tramps[i]? = some target then m.resolve e tid i v args else m.goto e tid v args target
  | _ => m
/-- Code of another object acts on an invocation's strand (R59); it gives back what the import's type says. -/
def GroupM.callee (m : GroupM) (e : GroupEnv) (tid : Nat) (c : Callee) : GroupM :=
  let ended (m : GroupM) : GroupM := { m with calls := m.calls.filter (· != tid) }
  match m.seats[tid]? with
  | some (.waits (.importCall i args) v) =>
    if !m.calls.contains tid then m
    else match c with
      | .asks r => if !r.ofMemory then m else match m.serve e tid [] r with | .done _ m => m | .wait => m | .fault a b => m.stops a b
      | .returns x fl => if e.mod.gives i x then (ended m).put tid ((Seat.waits (.importCall i args) v).resume x fl) else m
      | .exits st => (ended m).put tid (.gone st)
      | .traps a b => (ended m).stops a b
  | _ => m

/-! ## Turns -/

/-- What happens next: an opcode of an invocation; its request to memory is served; a misaligned load reads one of its bytes; a unit of a store
is performed; a subgroup's operation; the uniform opcode all have reached; a copy is performed; an invocation calls an import; code of another
object acts for one. -/
inductive GroupTurn where
  | run (tid : Nat)
  | serve (tid : Nat)
  | part (tid i : Nat)
  | perform (k i : Nat)
  | subgroup (n : Nat)
  | uniform
  | copy (k : Nat)
  | link (tid : Nat)
  | callee (tid : Nat) (c : Callee)
  deriving DecidableEq, Repr

/-- The group goes on: no invocation has trapped and nothing has faulted. -/
def GroupM.goes (m : GroupM) : Bool := m.fault.isNone && m.seats.all fun x => match x with | .trapped _ _ => false | _ => true
/-- Every invocation has exited and every store is performed. -/
def GroupM.over (m : GroupM) : Bool := m.seats.all Seat.isGone && m.stores.isEmpty
/-- What has been issued is performed although the group has stopped (R335). -/
def GroupTurn.issued : GroupTurn → Bool
  | .perform _ _ | .copy _ => true
  | _ => false

/-- One turn of a group (R71): any order of turns is a run of the machine of declared width. -/
def GroupM.step (e : GroupEnv) (m : GroupM) (t : GroupTurn) : GroupM :=
  if !m.goes && !t.issued then m
  else match t with
    | .run tid => match (m.seats[tid]?).bind fun x => x.step (e.inv tid) with | some x => m.put tid x | none => m
    | .serve tid => match m.seats[tid]? with
      | some (.waits r v) => match m.serve e tid v.place r with
        | .done x n => n.put tid ((Seat.waits r v).resume x)
        | .wait => m
        | .fault c n => m.stops c n
      | _ => m
    | .part tid i => match m.seats[tid]? with
      | some (.waits (.load o a va) _) => m.readPart e tid i a va.toNat o.size
      | _ => m
    | .perform k i => m.perform e k i
    | .subgroup n =>
      let w := e.kernel.width
      match subgroupStep ((m.seats.drop (n * w)).take w) with
      | some xs => { m with seats := m.seats.take (n * w) ++ xs ++ m.seats.drop (n * w + w) }
      | none => m
    | .uniform => m.uniform e
    | .copy k => m.copyDone e k
    | .link tid => m.link e tid
    | .callee tid c => m.callee e tid c

/-- The device's own protocols go on beside the group: a freeze, a thaw, a sweep. -/
def GroupM.withDevice (m : GroupM) (s : State) : GroupM := { m with st := s }

end

end Sys2Proof.Clound
end

