-- ==== Sys2Proof/Machine/Directives.lean ====
section
/-! DEFINITION. The directives of 05_encoding R120 and the object that a source makes: R44, R47 to R50, R420. Host software, as Assembly. -/

namespace Sys2Proof.Asm

open Sys2Proof.Machine

/-! ## A source, divided (R120) -/

/-- A block of code and the label that `.entry` names in it. -/
structure Block where
  entry : Option String
  lines : List Line
  deriving DecidableEq, Repr

/-- A kernel of the source, with the defaults of R120. -/
structure KSource where
  name : String
  gprs : Nat := 64
  scratch : Nat := 0
  barriers : Nat := 0
  dqdepth : Nat := 0
  accs : Option Nat := none
  linkage : Bool := false
  stages : List String := []
  strands : List (Nat × Block) := []
  teller : Option Block := none
  deriving DecidableEq, Repr

/-- A source: its loose code and data stand outside every kernel. -/
structure Source where
  minor : Nat := 0
  features : List Nat := []
  globals : List String := []
  exports : List String := []
  imports : List String := []
  kernels : List KSource := []
  code : List Line := []
  data : List Line := []
  deriving DecidableEq, Repr

/-- Where the next line goes. -/
inductive Place where
  | code | data
  | resources
  | strand (n : Nat)
  | teller
  deriving DecidableEq, Repr

/-- A source being read: what stands, the open kernel, and the place of the next line. -/
structure Reader where
  src : Source
  open_ : Option KSource
  place : Place
  deriving DecidableEq, Repr

/-- The FEATURES bits by name (R45). -/
def featureNames : List String := ["MX_FP8", "MX_E2M1", "MX_INT2", "DECOMP", "COLLECT", "WSLOAD", "CXLCACHE", "NFXV"]
/-- SMASK, as the `.strand` directives form it. -/
def KSource.smask (k : KSource) : Nat := (k.strands.map fun x => 2 ^ x.1).sum
/-- A number within a bound. -/
def argBelow (n : Nat) (args : List (List Char)) : Option Nat := match args with | [a] => (natOf? a).filter (· < n) | _ => none
/-- One name. -/
def argName (args : List (List Char)) : Option String :=
  match args with | [a] => if !a.isEmpty && a.all nameChar && !(a.headD '0').isDigit then some (String.ofList a) else none | _ => none

/-- A line of code added to the strand or the teller that is open. -/
def KSource.addLine (k : KSource) (p : Place) (l : Line) : KSource :=
  match p with
  | .strand n => { k with strands := k.strands.map fun x => if x.1 = n then (n, { x.2 with lines := x.2.lines ++ [l] }) else x }
  | .teller => { k with teller := k.teller.map fun b => { b with lines := b.lines ++ [l] } }
  | _ => k
/-- `.entry` in the strand or the teller that is open; the second in one block is refused. -/
def KSource.setEntry (k : KSource) (p : Place) (n : String) : Option KSource :=
  match p with
  | .strand m =>
    if k.strands.any (fun x => x.1 == m && x.2.entry.isSome) then none
    else some { k with strands := k.strands.map fun x => if x.1 = m then (m, { x.2 with entry := some n }) else x }
  | .teller => match k.teller with | some b => if b.entry.isSome then none else some { k with teller := some { b with entry := some n } } | none => none
  | _ => none

/-- A directive of an open kernel; the resource directives, `.accs` and `.stage` among them (DESIGN CHOICE, log 128), stand before its first
block. -/
def kernelDirective (k : KSource) (p : Place) (d : String) (args : List (List Char)) : Option (KSource × Place) :=
  let res (o : Option KSource) : Option (KSource × Place) := if p = .resources then o.map fun k => (k, p) else none
  if d = "gprs" then res ((argBelow 65 args).bind fun n => if n = 0 then none else some { k with gprs := n })
  else if d = "scratch" then res ((argBelow 786433 args).bind fun n => if n % 16 = 0 then some { k with scratch := n } else none)
  else if d = "barriers" then res ((argBelow 17 args).map fun n => { k with barriers := n })
  else if d = "dqdepth" then res ((argBelow 65 args).map fun n => { k with dqdepth := n })
  else if d = "accs" then res ((argBelow 65536 args).map fun n => { k with accs := some n })
  else if d = "linkage" then res (if args.isEmpty then some { k with linkage := true } else none)
  else if d = "stage" then res (match args with | [a] => if a.all nameChar then some { k with stages := k.stages ++ [String.ofList a] } else none | _ => none)
  else if d = "strand" then
    (argBelow 16 args).bind fun n =>
      if k.strands.any (·.1 == n) then none else some ({ k with strands := k.strands ++ [(n, ⟨none, []⟩)] }, .strand n)
  else if d = "teller" then if args.isEmpty ∧ k.teller.isNone then some ({ k with teller := some ⟨none, []⟩ }, .teller) else none
  else if d = "entry" then (argName args).bind fun n => (k.setEntry p n).map fun k => (k, p)
  else none

/-- A directive outside a kernel. -/
def fileDirective (s : Source) (d : String) (args : List (List Char)) : Option Source :=
  if d = "global" then (argName args).map fun n => { s with globals := s.globals ++ [n] }
  else if d = "export" then (argName args).map fun n => { s with exports := s.exports ++ [n] }
  else if d = "import" then (argName args).map fun n => { s with imports := s.imports ++ [n] }
  else if d = "feature" then (argName args).bind fun n => (featureNames.idxOf? n).map fun i => { s with features := s.features ++ [i] }
  else if d = "target" then
    match args with
    | [['4', '.', m]] => (digit? 3 m).map fun m => { s with minor := m }
    | _ => none
  else none

/-- The directives that make bytes; they stand among the code. -/
def makesBytes (d : String) : Bool := ["align", "byte", "half", "word", "dword", "float"].contains d

/-- One line into the source. -/
def readLine (r : Reader) (l : Line) : Except AsmError Reader :=
  let add : Except AsmError Reader :=
    match r.open_, r.place with
    | none, .code => .ok { r with src := { r.src with code := r.src.code ++ [l] } }
    | none, .data => .ok { r with src := { r.src with data := r.src.data ++ [l] } }
    | some k, .resources => if l.label.isNone ∧ l.body = .none then .ok r else .error (.directive k.name)
    | some k, p => .ok { r with open_ := some (k.addLine p l) }
    | none, _ => .error .syntax_
  match l.body with
  | .none => if l.label.isNone then .ok r else add
  | .inst _ _ _ => add
  | .dir d args =>
    if makesBytes d then add
    else if l.label.isSome then .error (.directive d)
    else
      match r.open_ with
      | some k =>
        if d = "close" then
          if args.isEmpty ∧ (k.accs.getD k.smask) = k.smask then .ok { src := { r.src with kernels := r.src.kernels ++ [k] }, open_ := none, place := .code }
          else .error (.directive d)
        else match kernelDirective k r.place d args, fileDirective r.src d args with
        | some (k, p), _ => .ok { r with open_ := some k, place := p }
        | none, some s => .ok { r with src := s }
        | none, none => .error (.directive d)
      | none =>
        if d = "kernel" then match argName args with | some n => .ok { r with open_ := some { name := n }, place := .resources } | none => .error (.directive d)
        else if d = "section" then
          if args == [['c', 'o', 'd', 'e']] then .ok { r with place := .code } else if args == [['d', 'a', 't', 'a']] then .ok { r with place := .data }
          else .error (.directive d)
        else match fileDirective r.src d args with | some s => .ok { r with src := s } | none => .error (.directive d)

/-- A text, divided. -/
def sourceOf (text : String) : Except AsmError Source :=
  match linesOf text with
  | .error e => .error e
  | .ok ls =>
    match ls.foldlM readLine { src := {}, open_ := none, place := .code } with
    | .error e => .error e
    | .ok r => if r.open_.isSome then .error (.directive "close") else .ok r.src

/-! ## What a strand reaches (R50) -/

/-- An item at its address, with the addresses where control goes after it. -/
structure Placed where
  addr : Nat
  goes : List Nat
  item : Item
  deriving DecidableEq, Repr
/-- `ret`, `end` and `exit` go on nowhere within the object. -/
def Form.stops : Form → Bool
  | .short sop _ _ => sop == 0x37#6 || sop == 0x2F#6
  | .plain op _ _ _ => op == 0x97#8 || op == 0x99#8 || op == 0x9A#8
  | _ => false
/-- Where control goes after an item: the fall-through, and the target of a branch or a `call`. -/
def Item.successors (own out : List (String × Nat)) (next : Nat) (i : Item) : List Nat :=
  match i with
  | .op f _ => if Form.stops f then [] else [next]
  | .branch o _ _ _ t _ => (if o = 0x90 then [] else [next]) ++ (lookup own out t).toList
  | _ => [next]
/-- A block's items at their addresses. -/
def placed (base : Nat) (out : List (String × Nat)) (items : List Item) : List Placed :=
  let sizes := grow base out items (2 * items.length + 1) (items.map Item.least)
  let (addrs, stop) := layout base (items.zip sizes)
  let own := labelsOf items addrs
  (items.zip (addrs.zip (addrs.drop 1 ++ [stop]))).map fun x => { addr := x.2.1, goes := x.1.successors own out x.2.2, item := x.1 }
/-- The items of an object reachable from addresses, past the ends of blocks as past labels. -/
def reachable (ps : List Placed) : Nat → List Placed → List Nat → List Placed
  | 0, seen, _ => seen
  | _ + 1, seen, [] => seen
  | n + 1, seen, a :: todo =>
    let new := ps.filter fun p => p.addr == a && !seen.contains p
    reachable ps n (seen ++ new) (new.flatMap Placed.goes ++ todo)
/-- An item that names an imported symbol. -/
def Placed.names (p : Placed) : Bool := match p.item with | .op _ n => n | _ => false
/-- Code reachable from an entry names an imported symbol. -/
def reachesImport (all : List Placed) (entry : Nat) : Bool := (reachable all (3 * all.length + 1) [] [entry]).any Placed.names

/-! ## The files of an object (R120) -/

/-- A label of file `k` as the object knows it: a `.global` one by its name, any other with its file's number before it. -/
def Source.fileName (s : Source) (k : Nat) (n : String) : String := if s.globals.contains n then n else toString k ++ ":" ++ n
/-- The labels that items define. -/
def labelNames (items : List Item) : List String := items.filterMap fun i => match i with | .label n => some n | _ => none
/-- The loose code of a file under the object's names: its own labels, and those of other files that are global. -/
def Source.rename (s : Source) (k : Nat) (items : List Item) : List Item :=
  let own := labelNames items
  let target (t : String) : String := if own.contains t then s.fileName k t else t
  items.map fun i => match i with
    | .label n => .label (s.fileName k n)
    | .branch op g sop l t w => .branch op g sop l (target t) w
    | i => i
/-- What a file sees of the labels of the loose code: its own, then the global ones. -/
def seenBy (k : Nat) (labels : List (String × Nat)) : List (String × Nat) :=
  let mine := (toString k ++ ":").toList
  labels.filterMap fun x =>
    let cs := x.1.toList
    if mine.isPrefixOf cs then some (String.ofList (cs.drop mine.length), x.2) else if cs.contains ':' then none else some x

/-! ## The object -/

/-- A block of a kernel, laid out. -/
structure Laid where
  code : Code
  entry : Nat
  items : List Placed
  deriving DecidableEq, Repr
/-- A kernel, laid out: its strands, its teller, and the address after it. -/
structure LaidKernel where
  strands : List (Nat × Laid)
  teller : Option Laid
  stop : Nat
  deriving DecidableEq, Repr

/-- Up to a multiple of `n`. -/
def upTo (n a : Nat) : Nat := (a + n - 1) / n * n
/-- What a file gives its blocks: the imports it names, in the object's order, and the labels it sees. -/
structure FileEnv where
  imports : List String
  labels : List (String × Nat)
  deriving DecidableEq, Repr

noncomputable section

/-- One block at an address, with its entry. -/
def layBlock (kind : Kind) (f : FileEnv) (base : Nat) (b : Block) : Except AsmError Laid :=
  match itemsOf kind f.imports b.lines ⟨0, 0⟩ with
  | .error e => .error e
  | .ok items =>
    match linkItems kind base f.labels items with
    | .error e => .error e
    | .ok code =>
      match (match b.entry with | some n => lookup code.labels [] n | none => some base) with
      | none => .error (.label (b.entry.getD ""))
      | some entry => .ok { code := code, entry := entry, items := placed base f.labels items }

/-- The strands of a kernel, one after another. -/
def layStrands (f : FileEnv) : Nat → List (Nat × Block) → Except AsmError (List (Nat × Laid) × Nat)
  | a, [] => .ok ([], a)
  | a, (n, b) :: rest =>
    match layBlock .strand f (upTo 2 a) b with
    | .error e => .error e
    | .ok l => (layStrands f (l.code.base + l.code.bytes.length) rest).map fun x => ((n, l) :: x.1, x.2)

/-- A kernel at an address. -/
def layKernel (f : FileEnv) (a : Nat) (k : KSource) : Except AsmError LaidKernel :=
  match layStrands f a k.strands with
  | .error e => .error e
  | .ok (ss, a) =>
    match k.teller with
    | none => .ok { strands := ss, teller := none, stop := a }
    | some b => (layBlock .teller { imports := [], labels := [] } (upTo 4 a) b).map fun l =>
        { strands := ss, teller := some l, stop := l.code.base + l.code.bytes.length }

/-- Kernels with their files, one after another. -/
def layKernels : Nat → List (FileEnv × KSource) → Except AsmError (List (KSource × LaidKernel))
  | _, [] => .ok []
  | a, (f, k) :: ks =>
    match layKernel f a k with
    | .error e => .error e
    | .ok l => (layKernels l.stop ks).map fun r => (k, l) :: r

end

/-- IMPORTS of a kernel (R50): what its strands reach in the object is followed over all its code. -/
def importsOf (all : List Placed) (k : KSource) (l : LaidKernel) : Bool := k.linkage || l.strands.any fun x => reachesImport all x.2.entry

/-- The 64 bytes of a kernel's header (R48): LINKOFF is written as 0. -/
def headerOf (imports : Bool) (k : KSource) (l : LaidKernel) (stoff name : Nat) : List Byte :=
  let toff := match l.teller with | some t => t.entry | none => 0
  let tlen := match l.teller with | some t => t.code.base + t.code.bytes.length - t.entry | none => 0
  leBytes 64 (packFields [(k.smask, 16), (k.gprs, 7), (imports.toNat, 1), (k.barriers, 5), (0, 3), (k.dqdepth, 7), (0, 1), (k.scratch, 20),
    (0, 4), (toff, 32), (tlen, 32), (stoff, 32), (name, 32)])
/-- The 64 bytes of its strand table (R49). -/
def tableOf (l : LaidKernel) : List Byte :=
  (List.range 16).flatMap fun n => leBytes 4 (match l.strands.find? (·.1 == n) with | some x => x.2.entry | none => 0)

/-- A STRTAB of names, each with its offset. It begins with one zero byte outside every name, so that no name has offset 0: the model's choice
(log 128). -/
def strtab : List (List Byte) → List Byte × List Nat
  | ns => ns.foldl (fun x n => (x.1 ++ n ++ [0#8], x.2 ++ [x.1.length])) ([0#8], [])
/-- A name's bytes. -/
def nameBytes (s : String) : List Byte := s.toList.map fun c => BitVec.ofNat 8 c.toNat

/-- An entry of the section table (R47). -/
def sectionEntry (typ align off len : Nat) : List Byte := leBytes 16 (packFields [(typ, 8), (0, 8), (align, 8), (0, 8), (off, 32), (len, 32)])

/-- Bytes laid at offsets that rise, with zero bytes between them. -/
def laidBytes (parts : List (Nat × List Byte)) : List Byte :=
  parts.foldl (fun o p => o ++ List.replicate (p.1 - o.length) 0#8 ++ p.2) []

/-- The exports of the files, each with its entry parcel; a name that no label of its file's loose code carries is an error, and so is a global
that no label of its file's code or data carries. -/
def exportsOf (labels : List (String × Nat)) (data : List (List (String × Nat))) (files : List Source) : Except AsmError (List (String × Nat)) :=
  let numbered := files.zipIdx
  let codeLabel (s : Source) (k : Nat) (n : String) : Option Nat := lookup labels [] (s.fileName k n)
  match numbered.findSome? fun x => x.1.globals.find? fun n =>
      (codeLabel x.1 x.2 n).isNone && (lookup (data.getD x.2 []) [] n).isNone with
  | some n => .error (.label n)
  | none => (numbered.flatMap fun x => x.1.exports.map fun n => (x, n)).mapM fun e =>
      match codeLabel e.1.1 e.1.2 e.2 with | some a => .ok (e.2, a) | none => .error (.label e.2)

noncomputable section

/-- The data of the files, one after another: each file's labels, and the bytes. -/
def layData : Nat → List Source → Except AsmError (List (List (String × Nat)) × List Byte)
  | _, [] => .ok ([], [])
  | a, s :: rest =>
    match assemble .data a [] [] s.data with
    | .error e => .error e
    | .ok d => (layData (a + d.bytes.length) rest).map fun r => (d.labels :: r.1, d.bytes ++ r.2)
/-- The loose code of the files, one after another, under the object's names. -/
def looseItems (imports : List (List String)) : List (Source × Nat) → Except AsmError (List Item)
  | [] => .ok []
  | (s, k) :: rest =>
    match itemsOf .strand (imports.getD k []) s.code ⟨0, 0⟩ with
    | .error e => .error e
    | .ok items => (looseItems imports rest).map fun more => s.rename k items ++ more

/-- The object of several files (R120), and where its relocated address words lie. The order of its parts is the model's choice (log 114):
header, section table, kernel headers, strand tables, data, loose code, kernels, STRTAB, EXPORT, IMPORT; the files follow one another in each. -/
def objectOfFiles (files : List Source) : Except AsmError (List Byte × List Nat) :=
  let kernels := files.zipIdx.flatMap fun x => x.1.kernels.map fun k => (x.2, k)
  let imports := files.flatMap (·.imports)
  let namedBy (s : Source) : List String := imports.map fun n => if s.imports.contains n then n else ""
  let n := kernels.length
  let khoff := upTo 64 (64 + 16 * 7)
  let stoff := khoff + 64 * n
  let dbase := stoff + 64 * n
  match layData dbase files with
  | .error e => .error e
  | .ok (dataLabels, dbytes) =>
    let cbase := upTo 128 (dbase + dbytes.length)
    match looseItems (files.map namedBy) files.zipIdx with
    | .error e => .error e
    | .ok items =>
      match linkItems .strand cbase [] items with
      | .error e => .error e
      | .ok c =>
        let fileEnv (k : Nat) : FileEnv :=
          match files[k]? with
          | some s => { imports := namedBy s, labels := seenBy k c.labels }
          | none => { imports := [], labels := [] }
        match layKernels (cbase + c.bytes.length) (kernels.map fun x => (fileEnv x.1, x.2)), exportsOf c.labels dataLabels files with
        | .error e, _ => .error e
        | _, .error e => .error e
        | .ok ks, .ok exports =>
          let all := placed cbase [] items ++ ks.flatMap fun x => x.2.strands.flatMap (·.2.items)
          match ks.find? fun x => importsOf all x.1 x.2 && x.1.gprs != 64 with
          | some x => .error (.directive x.1.name)
          | none =>
            let blocks := ks.flatMap fun x => x.2.strands.map (·.2.code) ++ (x.2.teller.map (·.code)).toList
            let code := laidBytes ((c :: blocks).map fun b => (b.base - cbase, b.bytes))
            let names := kernels.flatMap (fun x => nameBytes x.2.name :: x.2.stages.map fun t => nameBytes ("stage:" ++ t))
            let (strs, offs) := strtab (names ++ (exports.map (·.1) ++ imports).map nameBytes)
            let firsts := (kernels.foldl (fun (x : List Nat × Nat) k => (x.1 ++ [x.2], x.2 + 1 + k.2.stages.length)) ([], 0)).1
            let off (i : Nat) : Nat := offs.getD i 0
            let sbase := upTo 16 (cbase + code.length)
            let ebase := upTo 16 (sbase + strs.length)
            let exps := exports.zipIdx.flatMap fun x => leBytes 16 (packFields [(off (names.length + x.2), 32), (x.1.2, 32)])
            let ibase := ebase + exps.length
            let imps := (List.range imports.length).flatMap fun i => leBytes 8 (off (names.length + exports.length + i))
            let size := ibase + imps.length
            let secs := [(3, 6, khoff, 64 * n), (2, 2, stoff, 64 * n + dbytes.length), (1, 7, cbase, code.length), (6, 4, sbase, strs.length),
              (4, 4, ebase, exps.length), (5, 3, ibase, imps.length)].filter fun x => x.2.2.2 != 0
            let features := (((List.range 8).filter fun b => files.any fun s => s.features.contains b).map fun b => 2 ^ b).sum
            let minor := (files.map (·.minor)).foldl max 0
            let head := leBytes 64 (packFields [(0x4C554743, 32), (1, 16), (minor, 8), (4, 8), (features, 64), (64, 32), (secs.length, 16), (n, 16),
              (size, 32), (khoff, 32)])
            let hdrs := ks.zipIdx.flatMap fun x =>
              headerOf (importsOf all x.1.1 x.1.2) x.1.1 x.1.2 (stoff + 64 * x.2) (off (firsts.getD x.2 0))
            let tabs := ks.flatMap fun x => tableOf x.2
            let secBytes := secs.flatMap fun x => sectionEntry x.1 x.2.1 x.2.2.1 x.2.2.2
            .ok (laidBytes [(0, head), (64, secBytes), (khoff, hdrs), (stoff, tabs), (dbase, dbytes), (cbase, code), (sbase, strs), (ebase, exps),
                   (ibase, imps)], c.relocs ++ blocks.flatMap (·.relocs))
/-- The object of one file. -/
def objectOf (s : Source) : Except AsmError (List Byte × List Nat) := objectOfFiles [s]

end

end Sys2Proof.Asm
end

