-- ==== Sys2Proof/Machine/Linkage.lean ====
section
/-! DEFINITION. What Jialmush builds when it loads: the linkage area of a context, trampolines, the order of its writes, and the choice between a
native image and the translation of a Clound module: 02_objects R50, R53, R56 to R60; 03_clound R63, R73. Host software: the machine's step
never reaches it. -/

namespace Sys2Proof.Machine

/-! ## The linkage area (R56, R57) -/

/-- The 64-byte header of an area of `n` slots whose export hash lies at `hoff`. -/
def linkHeader (n hoff : Nat) : List Byte := leBytes 64 (packFields [(n - 1, 32), (hoff, 32)])
/-- The header is right: slots a power of two from 16 to 2^20 that lie within the area, the rest zero. -/
def linkHeaderOk (area : List Byte) : Bool :=
  let n := numAt area 0 4 + 1
  ((List.range 17).any fun k => n == 2 ^ (k + 4)) && numAt area 8 56 == 0 && decide (numAt area 4 4 + 32 * n ≤ area.length)

/-- A context's linkage area: its bytes, where each distinct name lies in it, and the loaded objects that have imports, as object number,
LINKOFF and number of imports. -/
structure Linkage where
  area : List Byte
  names : List (List Byte × Nat)
  tables : List (Nat × Nat × Nat)
  deriving DecidableEq, Repr
/-- An area of 2^(k + 4) slots, all empty. The export hash follows the header, and names and tables follow it in the order in which they come:
the model's choice (log 128). -/
def Linkage.start (k : Nat) : Linkage :=
  { area := linkHeader (2 ^ (k + 4)) 64 ++ List.replicate (32 * 2 ^ (k + 4)) 0, names := [], tables := [] }
/-- The area is as R56 and R57 say: its header, and every entry of a linkage table naturally aligned. -/
def Linkage.formed (l : Linkage) : Bool := linkHeaderOk l.area && l.tables.all fun t => t.2.1 % 8 == 0 && decide (t.2.1 + 8 * t.2.2 ≤ l.area.length)

/-- The offset of a name in the string copy, which holds it once, its bytes followed by a zero byte. -/
def Linkage.intern (l : Linkage) (name : List Byte) : Linkage × Nat :=
  let (names, _, off) := internName l.names l.area.length name
  ({ l with names := names, area := if names.length = l.names.length then l.area else l.area ++ name ++ [0#8] }, off)
/-- Slots that hold nothing. -/
def Linkage.room (l : Linkage) : Nat := ((List.range (numAt l.area 0 4 + 1)).filter fun j => (linkSlotAt l.area j).empty).length
/-- An export enters the hash; none for a name of hash 0, or when it would take the last empty slot, past which no probe would end. -/
def Linkage.addExport (l : Linkage) (objid : Nat) (x : List Byte × BitVec 64) : Option Linkage :=
  if l.room ≤ 1 then none
  else match exportSlot? l.area x.1 with
    | none => none
    | some j =>
      let (l, off) := l.intern x.1
      let slot : LinkSlot := { hash := fnv1a x.1, target := x.2, objid := objid, resolves := 0, nameoff := off }
      some { l with area := patch l.area (numAt l.area 4 4 + 32 * j) slot.bytes }
/-- The offsets of several names. -/
def Linkage.internAll (l : Linkage) : List (List Byte) → Linkage × List (Nat × Nat)
  | [] => (l, [])
  | n :: rest =>
    let (l, off) := l.intern n
    let (l, offs) := l.internAll rest
    (l, (off, n.length) :: offs)
/-- A loaded object enters the area: its exports, its imports' names, its import-name table and its linkage table, whose entries are the
addresses of its trampolines; and its LINKOFF. None of the object enters where one of its names has hash 0 (DESIGN CHOICE, log 128). -/
def Linkage.addObject (l : Linkage) (objid : Nat) (exports : List (List Byte × BitVec 64)) (imports : List (List Byte))
    (trampoline : Nat → Nat → Nat) : Option (Linkage × Nat) :=
  match exports.foldlM (fun l x => l.addExport objid x) l with
  | none => none
  | some l =>
    if imports.isEmpty then some (l, 0)
    else
      let (l, names) := l.internAll imports
      let pad := (l.area.length + 7) / 8 * 8 - l.area.length
      let linkoff := l.area.length + pad + 8 * imports.length
      let table := linkTable names ((List.range imports.length).map (trampoline linkoff))
      some ({ l with area := l.area ++ List.replicate pad 0 ++ table, tables := l.tables ++ [(objid, linkoff, imports.length)] }, linkoff)

/-! ## Trampolines and the resolver (R58) -/

/-- The two parcels of a 32-bit word, the one with the opcode first. -/
def wordParcels (w : Nat) : List Byte := leBytes 2 (w / 2 ^ 16) ++ leBytes 2 (w % 2 ^ 16)
/-- `mov e[d], #v` (R102). -/
def movLiteral (d v : Nat) : List Byte := wordParcels (0x98006800 + 32 * d) ++ leBytes 4 v
/-- Trampoline i of an object, at an address: it writes LINKOFF into e14 and i into e15 and branches to the resolver, far where it must. -/
def trampoline (linkoff i at_ resolver : Nat) : List Byte :=
  let off : Int := ((resolver : Int) - (at_ + 16 : Nat)) / 2
  movLiteral 14 linkoff ++ movLiteral 15 i ++ Asm.parcelBytes
    (if -4095 ≤ off ∧ off ≤ 4095 then (Form.plain 0x90#8 0 2 (BitVec.ofInt 13 off)).parcels else (Form.far 0x90#8 0 2 (BitVec.ofInt 32 off)).parcels)
/-- Where trampoline i of an object lies, from the address of its first: 32 bytes apart, the model's choice (log 128). -/
def trampolineAt (base i : Nat) : Nat := base + 32 * i

/-- What the resolver does on its strand, step by step (R58): every variable offset is put in g62 with one coin, which the next instruction
spends; g63 is 0. Its code for the last step the spec does not give: no instruction jumps to a register's address without a push. -/
inductive ResolverOp where
  | load63 (off n : Nat)
  | put62 (off : Nat)
  | load62 (n : Nat) (acquireSys : Bool)
  | addDev62 (v : Nat)
  | storeReleaseDev62 (v : BitVec 64)
  | trap (code : Nat)
  | jump (target : BitVec 64)
  deriving DecidableEq, Repr
/-- A load at a variable offset. -/
def loadAt (off n : Nat) (acq : Bool := false) : List ResolverOp := [.put62 off, .load62 n acq]
/-- The resolver's steps over the slots it probes, from the hash, the name and the entry. -/
def probeOps (area : List Byte) (h : BitVec 64) (nameoff entry : Nat) : List Nat → List ResolverOp
  | [] => []
  | j :: rest =>
    let s := linkSlotAt area j
    let at_ := numAt area 4 4 + 32 * j
    loadAt at_ 8 true ++
      (if s.hash = 0 then loadAt (at_ + 8) 8 else []) ++
      (if s.empty then [.trap 0x0101]
       else if s.hash = h then
         loadAt (at_ + 24) 4 ++
           (if s.nameoff = nameoff then
             [.put62 (at_ + 20), .addDev62 1] ++ loadAt (at_ + 8) 8 ++ [.put62 entry, .storeReleaseDev62 s.target, .jump s.target]
            else probeOps area h nameoff entry rest)
       else probeOps area h nameoff entry rest)
/-- The resolver's steps for import `i` of the object whose table lies at LINKOFF. -/
def resolverOps (area : List Byte) (linkoff i : Nat) : List ResolverOp :=
  let at_ := linkoff - 8 * (i + 1)
  let ne := numAt area at_ 8
  let nameoff := bits ne 0 32
  let len := bits ne 32 8
  let h := fnv1a (slice area nameoff len)
  [.load63 0 8] ++ loadAt at_ 8 ++ (List.range len).flatMap (fun k => loadAt (nameoff + k) 1) ++
    probeOps area h nameoff (linkoff + 8 * i) (probes area h)

/-! ## The order of the loader's writes (R50, R60) -/

/-- What Jialmush does to a running context: bytes at a virtual address, a sweep of pages, bytes of the linkage area, a release at system scope
or not. -/
inductive LoaderStep where
  | code (va : Nat) (bs : List Byte)
  | sweep (va pages : Nat)
  | area (off : Nat) (bs : List Byte) (release : Bool)
  deriving DecidableEq, Repr
/-- The insertion of an export (R60): its code, the sweep of the code's range, then the slot, HASH last. -/
def insertExport (va : Nat) (code area : List Byte) (j : Nat) (s : LinkSlot) : List LoaderStep :=
  [.code va code, .sweep (va / 4096 * 4096) ((va + code.length + 4095) / 4096 - va / 4096)] ++
    (exportWrites area j s).map fun w => .area w.1 w.2.1 w.2.2

/-! ## A load (R53, R63, R73) -/

/-- Why a load fails: the object, the Clound module's rejection, or its translation, each with its reason. -/
inductive LoadFailure where
  | object (e : LoadError)
  | rejected (r : Clound.Reject)
  | untranslatable (u : Clound.Untranslatable)
  deriving DecidableEq, Repr
/-- What a load takes: a native object, or a module to be translated. -/
inductive LoadChoice where
  | native (o : List Byte)
  | translate (m : Clound.Module)
  deriving DecidableEq, Repr
/-- A native object, unless Jialmush rejects it (R47, R420). -/
def loadNative (o : List Byte) : Except LoadFailure LoadChoice := match objectError? o with | some e => .error (.object e) | none => .ok (.native o)
/-- The load of a file, plain or fat; a translation adds `added` scratchpad bytes to each kernel (R72). -/
def loadFile (added : Nat) (file : List Byte) : Except LoadFailure LoadChoice :=
  if numAt file 0 4 ≠ 0x4C554746 then loadNative file
  else match fatImages file with
    | none => .error (.object .magic)
    | some xs => match selectImage Config.present Config.masked xs with
      | .error e => .error (.object e)
      | .ok (.image i) => match xs[i]? with | some x => loadNative (slice file x.off x.len) | none => .error (.object .noUsableImage)
      | .ok (.clound i) => match xs[i]? with
        | none => .error (.object .noUsableImage)
        | some x => match Clound.accept (slice file x.off x.len) with
          | .error r => .error (.rejected r)
          | .ok m => match m.untranslatable? added with | some u => .error (.untranslatable u) | none => .ok (.translate m)

end Sys2Proof.Machine
end

