-- ==== Sys2Proof/Tests/Slice0.lean ====
section
/-! SUPPORT. Small tests: what the checks of WellFormed refuse, words of the spec's encodings, single steps whose result the spec gives, and
for each statement with hypotheses a state and operands that meet them. -/

set_option Elab.async false

namespace Sys2Proof.Tests

open Sys2Proof.Machine Sys2Proof.Claims

/-! ## States -/

/-- The group of the probe. -/
def gid : GroupId := ⟨0, 0, 0⟩
/-- One thread of strand 0 that issues on core 0, every register present and sticky. -/
noncomputable def one : State := { State.reset.withFetchWord 32 0 with issue := [], cur := some (.bundle 0 0 0 [(gid, 0)]) }
/-- The same machine with the turn of the group's teller. -/
noncomputable def tel : State := { one with cur := some (.teller gid) }
/-- A change of the group. -/
noncomputable def grp (f : Group → Group) (s : State) : State := s.modGroup gid f
/-- A change of the thread. -/
noncomputable def thr (f : Thread → Thread) (s : State) : State := s.modThread gid 0 f
/-- A change of the strand. -/
noncomputable def str (f : Strand → Strand) (s : State) : State := s.modStrand gid 0 0 f
/-- A change of the teller. -/
noncomputable def tlr (f : Teller → Teller) (s : State) : State := grp (fun g => { g with teller := f g.teller }) s
/-- A register of the teller. -/
noncomputable def reg (r : BitVec 6) (v : Word) (s : State) : State := tlr (·.setReg r v) s
/-- The instruction issues there. -/
def issuesOn (i : Instr) (s : State) : Bool := match i.form with | some fm => s.issues fm | none => false
/-- The bundle's threads that can issue it. -/
def lanes (i : Instr) (s : State) : List Lane := match i.form with | some fm => s.ready fm | none => []
/-- The state after an instruction. -/
def after (i : Instr) (s : State) : State := match exec i s with | .next t => t | _ => s
/-- The one strand. -/
def strandOf (s : State) : Strand := (s.strand? gid 0 0).getD (Strand.start 0 0 0)
/-- A plain source register and destination. -/
def e1 (g : BitVec 6) (d x : BitVec 5) : EFields := ⟨none, g, 0, .gpr, .one d x⟩
/-- A literal source. -/
def lit (w : Word) (d x : BitVec 5) : EFields := ⟨none, 0, 0, .lit w, .one d x⟩
/-- A memory instruction's fields. -/
def mem (g : BitVec 6) (seg : BitVec 3) (d : BitVec 5) : MemFields := ⟨none, g, 0, seg, 0, d⟩

/-! ## Witnesses: strand instructions -/

theorem witness_IntegerInstructions : intRow (.mad (e1 63 31 31)) = some (e1 63 31 31, 6, madRule) ∧ issuesOn (.mad (e1 63 31 31)) one = true :=
  ⟨rfl, by decide +kernel⟩

theorem witness_FloatsConversionsFunctions :
    (floatRow (.ffma (e1 63 31 0)) = some (e1 63 31 0, Arith.ffma) ∧ issuesOn (.ffma (e1 63 31 0)) one = true) ∧
    (convertRow (.sCvtF32S32 0 0) = some (shortG 0 0, Arith.cvtF32S32) ∧ issuesOn (.sCvtF32S32 0 0) one = true) ∧
    (specialRow (.rcp (e1 0 0 31)) = some (e1 0 0 31, 10, Arith.rcp) ∧ issuesOn (.rcp (e1 0 0 31)) one = true) :=
  ⟨⟨rfl, by decide +kernel⟩, ⟨rfl, by decide +kernel⟩, rfl, by decide +kernel⟩

theorem witness_Moves : moveRow (.mov (lit 7 31 0)) = some (lit 7 31 0, fun _ _ b => b) ∧ issuesOn (.mov (lit 7 31 0)) one = true :=
  ⟨rfl, by decide +kernel⟩

theorem witness_PutsAndDrops :
    (putRow (.put 63 0 31 7) = some (63, 31, 7) ∧ issuesOn (.put 63 0 31 7) one = true ∧
      ∀ l ∈ lanes (.put 63 0 31 7) one, l.t.gregs.length = l.g.kernel.ngpr) ∧
    (dropRow (.drop 63 0) = some 63 ∧ issuesOn (.drop 63 0) one = true ∧
      ∀ l ∈ lanes (.drop 63 0) one, l.t.gregs.length = l.g.kernel.ngpr) := by
  decide +kernel

theorem witness_SpecialReadsAndLends :
    (issuesOn (.sread 0 30 18) one = true ∧ ∀ l ∈ lanes (.sread 0 30 18) one, one.launch? l.gid.launch = none) ∧
    issuesOn (.lend 0) one = true := by
  decide +kernel

theorem witness_RowsAndCrews :
    issuesOn (.rmax ⟨none, 0, 0, .elem, .win .all false⟩) one = true ∧ issuesOn (.rsum ⟨none, 0, 0, .elem, .win .lo false⟩) one = true ∧
    issuesOn (.mskr ⟨none, 0, 0, .gpr, .win .hi true⟩) one = true ∧
    ((fetchRow (.shfx (lit 1 31 31))).isSome = true ∧ issuesOn (.shfx (lit 1 31 31)) one = true) ∧
    ((crewRow (.csum (e1 0 0 31))).isSome = true ∧ issuesOn (.csum (e1 0 0 31)) one = true) ∧
    ((voteRow (.voteBallot ⟨0, 0, .elem, 31⟩)).isSome = true ∧ issuesOn (.voteBallot ⟨0, 0, .elem, 31⟩) one = true) := by
  decide +kernel

theorem witness_Branches :
    (branchRow (.bez 63 0 (-4096))).isSome = true ∧ issuesOn (.bez 63 0 (-4096)) one = true ∧
    (branchRow (.sBenz 127 0)).isSome = true ∧ issuesOn (.sBenz 127 0) one = true := by
  decide +kernel

theorem witness_CallsAndReturns :
    ((callRow (.callx 0 30)).isSome = true ∧ issuesOn (.callx 0 30) (str (fun st => { st with rstack := List.replicate 7 0 }) one) = true ∧
      ∀ l ∈ lanes (.callx 0 30) (str (fun st => { st with rstack := List.replicate 7 0 }) one),
        l.st.rstack.length < 8 ∧ (l.st.elem 31 ++ l.st.elem 30).getLsbD 0 = false) ∧
    (isReturn (.ret 0) = true ∧ issuesOn (.ret 0) (str (fun st => { st with rstack := [2] }) one) = true ∧
      ∀ l ∈ lanes (.ret 0) (str (fun st => { st with rstack := [2] }) one), l.st.rstack ≠ []) := by
  decide +kernel

/-- The column of every thread of a bundle is placed and does not stop. -/
def placed (i : Instr) (s : State) : Bool := (lanes i s).all fun l => match s.column? l.gid.column with | some c => c.stop.isNone | none => false

theorem witness_ReturnStackFaults :
    (issuesOn (.call 0 (-4)) (str (fun st => { st with rstack := List.replicate 8 0 }) one) = true ∧
      placed (.call 0 (-4)) (str (fun st => { st with rstack := List.replicate 8 0 }) one) = true ∧
      ∀ l ∈ lanes (.call 0 (-4)) (str (fun st => { st with rstack := List.replicate 8 0 }) one),
        l.st.rstack.length = 8 ∧ (l.st.pc + BitVec.ofInt 64 (2 * (-4 : BitVec 13).toInt)).getLsbD 0 = false) ∧
    (issuesOn (.ret 0) one = true ∧ placed (.ret 0) one = true ∧ ∀ l ∈ lanes (.ret 0) one, l.st.rstack = []) := by
  decide +kernel

theorem witness_PassesAndEnds :
    issuesOn (.nop 7) one = true ∧ issuesOn (.sNop 0) one = true ∧ issuesOn (.blk 0) one = true ∧ issuesOn (.fenceSys 0) one = true ∧
    issuesOn (.sEnd 0) one = true ∧ issuesOn (.strandEnd 7) one = true ∧ issuesOn (.exit 0 31) one = true := by
  decide +kernel

theorem witness_TrapInstructions :
    (issuesOn (.trap 0 8191) one = true ∧ placed (.trap 0 8191) one = true) ∧
    (issuesOn (.brk 0 0) one = true ∧ placed (.brk 0 0) one = true ∧ (one.coreAt one.curCore).brkstop = [] ∧
      (one.coreAt one.curCore).brkPass = []) := by
  decide +kernel

theorem witness_TrapInstructions_brkstop :
    (let s := one.modCore 0 fun k => { k with brkstop := [none] }
     s.curCore = 0 ∧ s.curCore < s.cores.length ∧ none ∈ (s.coreAt 0).brkstop ∧ (s.coreAt 0).brkPass = [] ∧ lanes (.brk 0 0) s ≠ []) ∧
    (let s := one.modCore 0 fun k => { k with brkstop := [some 0], brkPass := [(gid, 0, 0)] }
     issuesOn (.brk 0 0) s = true ∧ ∀ l ∈ lanes (.brk 0 0) s, (l.gid, l.tid, l.st.n) ∈ (s.coreAt s.curCore).brkPass ∧ some l.g.ctx ∈ (s.coreAt 0).brkstop) := by
  decide +kernel

theorem witness_FlagsHintsAndIfence :
    ((flagRow (.stflagClr 0 31)).isSome = true ∧ issuesOn (.stflagClr 0 31) one = true) ∧
    ((hintRow (.hintUrgent 0 31)).isSome = true ∧ issuesOn (.hintUrgent 0 31) one = true) ∧
    (issuesOn (.ifence 0) one = true ∧ ∀ l ∈ lanes (.ifence 0) one, l.g.ctx = 0) := by
  decide +kernel

/-- The machine with barrier 15 of the group as given. -/
noncomputable def barAt (x : Barrier) : State := grp (fun g => { g with bars := g.bars.set 15 x }) one
/-- A barrier in the middle of a phase of `n`. -/
def midPhase (n : Nat) : Barrier := { Barrier.reset with cnt := n, expect := n, arrive := 1, arrived := [5] }

theorem witness_BarrierArrivalsAndWaits :
    (arriveRow (.bars 0 15 511) = some (15, 511, true, false) ∧ issuesOn (.bars 0 15 511) (barAt .reset) = true ∧
      (∀ l ∈ lanes (.bars 0 15 511) (barAt .reset), l.gid = gid ∧ l.tid ∉ Barrier.reset.left) ∧ firstArrival .reset = true ∧
      ∀ g, (barAt .reset).group? gid = some g → g.bars[15]? = some .reset ∧ 0 + 1 < expects g .reset 511) ∧
    (arriveRow (.barx 0 15 3) = some (15, 3, false, true) ∧ issuesOn (.barx 0 15 3) (barAt (midPhase 3)) = true ∧
      ∀ g, (barAt (midPhase 3)).group? gid = some g → g.bars[15]? = some (midPhase 3) ∧ 1 + 1 < expects g (midPhase 3) 3) ∧
    issuesOn (.barw 0 15) one = true := by
  refine ⟨⟨by decide +kernel, by decide +kernel, by decide +kernel, by decide +kernel, ?_⟩, ⟨by decide +kernel, by decide +kernel, ?_⟩,
    by decide +kernel⟩
  · intro g h; cases h; decide +kernel
  · intro g h; cases h; decide +kernel

theorem witness_BarrierPhaseEnds :
    issuesOn (.barx 0 15 2) (barAt (midPhase 2)) = true ∧ (lanes (.barx 0 15 2) (barAt (midPhase 2))).map (·.tid) = [0] ∧
    firstArrival (midPhase 2) = false ∧ (midPhase 2).cnt = 2 ∧
    (∀ g, (barAt (midPhase 2)).group? gid = some g → g.bars[15]? = some (midPhase 2) ∧ 1 + 1 = expects g (midPhase 2) 2) ∧
    issuesOn (.bara 0 15 0) (barAt .reset) = true ∧
    ∀ g, (barAt .reset).group? gid = some g → g.bars[15]? = some .reset ∧ 0 + 1 = expects g .reset 0 := by
  refine ⟨by decide +kernel, by decide +kernel, by decide +kernel, by decide +kernel, ?_, by decide +kernel, ?_⟩ <;>
    (intro g h; cases h; decide +kernel)

/-- Two threads of the group at the same instruction, with barrier 15 as given. -/
noncomputable def pairAt (x : Barrier) : State :=
  let two (g : Group) : Group := { g with t := 2, threads := g.threads ++ g.threads.map (fun t => { t with tid := 1 }), bars := g.bars.set 15 x }
  { grp two one with cur := some (.bundle 0 0 0 [(gid, 0), (gid, 1)]) }

theorem witness_BarrierPhaseEnds_several :
    (∀ n ∈ [2, 3], let i : Instr := .bars 0 15 (BitVec.ofNat 9 n)
      let s := pairAt (midPhase n)
      issuesOn i s = true ∧ (lanes i s).map (·.tid) = [0, 1] ∧
      ((lanes i s).all fun l => l.gid == gid && !(midPhase n).left.contains l.tid && l.st.sleep.isNone) = true ∧
      ((s.group? gid).map fun g => (g.bars[15]?, expects g (midPhase n) n)) = some (some (midPhase n), n)) ∧
    arriveRow (.bars 0 15 2) = some (15, 2, true, false) ∧
    (1 + [()].length = 2 ∧ [()].length < 2) ∧ 1 + [(), ()].length = 3 := by
  decide +kernel

/-- The machine with a value in general register 5. -/
noncomputable def g5 (v : Word) : State := thr (fun t => { t with gregs := t.gregs.set 5 { GReg.reset with val := v, p := true } }) one

theorem witness_SyncWordInstructions :
    (syncRow (.sexp 5 0 31)).isSome = true ∧ issuesOn (.sexp 5 0 31) (g5 1008) = true ∧
    (waitRow (.swait 5 0 31)).isSome = true ∧ issuesOn (.swait 5 0 31) (str (fun st => { st with e := st.e.set 31 9 }) (g5 1008)) = true ∧
    ∀ l ∈ lanes (.sexp 5 0 31) (g5 1008), (l.t.greg 5).val.toNat + 16 ≤ l.g.wsize ∧ (l.t.greg 5).val.toNat % 16 = 0 := by
  decide +kernel

theorem witness_EventPosts : issuesOn (.evpost 0 14) one = true := by decide +kernel

theorem witness_AccessesEnter :
    (accRow (.ldB32 (mem 5 0 31))).isSome = true ∧ issuesOn (.ldB32 (mem 5 0 31)) (g5 3) = true ∧
    (accRow (.stB64 (mem 5 7 30))).isSome = true ∧ issuesOn (.stB64 (mem 5 7 30)) (g5 1016) = true ∧
    ∀ r l, accRow (.stB64 (mem 5 7 30)) = some r → l ∈ lanes (.stB64 (mem 5 7 30)) (g5 1016) → r.legal 0 l := by
  refine ⟨by decide +kernel, by decide +kernel, by decide +kernel, by decide +kernel, ?_⟩
  intro r l h hl; cases h
  have : ∀ l ∈ lanes (.stB64 (mem 5 7 30)) (g5 1016), (l.t.greg 5).val = 1016 ∧ l.g.wsize = 1024 := by decide +kernel
  obtain ⟨h1, h2⟩ := this l hl
  simp [AccRow.legal, storeRow, mem, AccRow.va, MemFields.word, AddrWord.zero, h1, h2]

theorem witness_AccessFaults :
    (accRow (.stB64 (mem 5 7 30))).isSome = true ∧ issuesOn (.stB64 (mem 5 7 30)) (g5 1017) = true ∧
      placed (.stB64 (mem 5 7 30)) (g5 1017) = true ∧
    (∀ l ∈ lanes (.stB64 (mem 5 7 30)) (g5 1017), l.g.wsize < (l.t.greg 5).val.toNat + 8) ∧
    (accRow (.cas64 ⟨none, 5, 0, 7, 0⟩)).isSome = true ∧ issuesOn (.cas64 ⟨none, 5, 0, 7, 0⟩) (g5 1012) = true ∧
      placed (.cas64 ⟨none, 5, 0, 7, 0⟩) (g5 1012) = true ∧
    ∀ l ∈ lanes (.cas64 ⟨none, 5, 0, 7, 0⟩) (g5 1012), (l.t.greg 5).val.toNat + 8 ≤ l.g.wsize ∧ (l.t.greg 5).val.toNat % 8 ≠ 0 := by
  decide +kernel

/-- The machine with a kernel of `n` registers and `b` barriers. -/
noncomputable def kern (n b : Nat) : State := grp (fun g => { g with kernel := { g.kernel with ngpr := n, nbar := b } }) one
/-- The machine under CHECK with a result in flight. -/
noncomputable def racing : State :=
  grp (fun g => { g with check := true })
    (str (fun st => { st with pend := [{ due := 3, writes := [(0, 1)], flags := {}, var := false, pc := 0 }] }) one)

theorem witness_UseTraps :
    ((Instr.add (e1 63 0 0)).form.map fun fm => fm.use.name) = some (some 63) ∧ lanes (.add (e1 63 0 0)) (kern 63 0) ≠ [] ∧
      placed (.add (e1 63 0 0)) (kern 63 0) = true ∧
    (lanes (.bara 0 0 1) (kern 63 0) ≠ [] ∧ placed (.bara 0 0 1) (kern 63 0) = true ∧
      ∀ fm l, (Instr.bara 0 0 1).form = some fm → l ∈ lanes (.bara 0 0 1) (kern 63 0) → illegalIn fm.use l.g.kernel = true) ∧
    (lanes (.add (e1 5 0 0)) racing ≠ [] ∧ placed (.add (e1 5 0 0)) racing = true ∧
      ∀ fm l, (Instr.add (e1 5 0 0)).form = some fm → l ∈ lanes (.add (e1 5 0 0)) racing →
        illegalIn fm.use l.g.kernel = false ∧ fm.use.dq = false ∧ l.g.check = true ∧ fm.use.touch = true ∧ ∃ p ∈ l.st.pend, p.var = false) ∧
    ((lanes (.mov ⟨none, 0, 0, .dq, .one 0 0⟩) (str (fun st => { st with cursor := -1 }) one)).map (·.tid) = [0] ∧
      placed (.mov ⟨none, 0, 0, .dq, .one 0 0⟩) (str (fun st => { st with cursor := -1 }) one) = true ∧
      ∀ l ∈ lanes (.mov ⟨none, 0, 0, .dq, .one 0 0⟩) (str (fun st => { st with cursor := -1 }) one), ∀ e ∈ l.g.dq, e.seq ≠ l.st.cursor) := by
  refine ⟨by decide +kernel, by decide +kernel, by decide +kernel, ⟨by decide +kernel, by decide +kernel, ?_⟩,
    ⟨by decide +kernel, by decide +kernel, ?_⟩, by decide +kernel⟩
  · intro fm l h; cases h; revert l; decide +kernel
  · intro fm l h; cases h; revert l; decide +kernel

theorem witness_StrandInstructionsComplete : (Instr.sEnd 0).form.isSome = true := rfl

theorem witness_ReadSpendsCoin :
    ((Instr.add (e1 63 0 0)).form.map fun fm => fm.use.read) = some (some 63) ∧ issuesOn (.add (e1 63 0 0)) one = true ∧
    ∀ l ∈ lanes (.add (e1 63 0 0)) one, l.t.gregs.length = l.g.kernel.ngpr := by
  decide +kernel

theorem witness_RegisterOnlyFrame : (moveRow (.clr ⟨none, 0, 0, .gpr, .win .all false⟩)).isSome = true ∧
    issuesOn (.clr ⟨none, 0, 0, .gpr, .win .all false⟩) one = true := by
  decide +kernel

/-! ## Witnesses: teller instructions -/

/-- The group whose teller has the turn. -/
noncomputable def tg (s : State) : Group := s.curTeller.getD (probeGroup 7)
/-- The teller has the turn, of a group that runs. -/
noncomputable def turn (s : State) : Bool := (s.curTeller == some (tg s)) && match s.column? gid.column with | some c => c.stop.isNone | none => false
/-- Registers of 16 times their number, at address 64. -/
noncomputable def T : State := tlr (fun t => { t with s := (List.range 64).map fun i => BitVec.ofNat 32 (i * 16), pc := 64 }) tel
/-- A teller's return stack. -/
noncomputable def stacked (xs : List Word) : State := tlr (fun t => { t with rstack := xs.map (·.setWidth 64) }) T
/-- Commands of queue 6. -/
def cmdQ (k : Nat) : Cmd := ⟨k, 0, 6, gid, 0, [], .queued, 0, 0, 0, 0, false, [0,0,0,0], 0, [], 0, [], [], false, false, none, none, [], 0⟩
/-- A full queue. -/
noncomputable def TQ : State := { T with cmds := (List.range 16).map cmdQ }
/-- A group with a dispatch queue of depth 1, holding `n` entries. -/
noncomputable def TD (n : Nat) : State := grp (fun g => { g with kernel := { g.kernel with dqd := 1 }, dq := List.replicate n ⟨0, 0, 1⟩ }) T
/-- The state after a memory instruction has issued, its only access as given. -/
noncomputable def sent (i : Instr) (f : Acc → Acc) (s : State := one) : State := let t := after i s; { t with accs := t.accs.map f }
/-- That access. -/
noncomputable def acc (s : State) : Acc :=
  s.accs.headD
  { id := 0, bundle := 0, gid := gid, tid := 0, n := 0, seq := 0, know := [], after := [], fenced := [], units := [], pins := [],
    vec := false, pc := 0, coin := none, core := 0, ctx := 0, asid := 0, seg7 := false, va := 0, size := 0, kind := .prefetch false, scope := .grp,
    order := .relaxed, hint := .normal, st := .open_, got := [], cont := 0, at_ := 0, since := 0 }
/-- A freeze. -/
def fz (n c : Nat) (st : FrzState) : Freeze := ⟨n, 0, 5, 1, c, st, 0, [], [], false, []⟩
/-- A GiB of identity mapping in every TLB. -/
def mapped (p : Perm) (pl : Place) (s : State) : State := { s with tlb := (List.range 32).map fun c => ⟨c, 0, 30, some 0, p, pl, 0, 0⟩ }
/-- Read, write and execute. -/
def rwx (typ : PageType) : Perm := ⟨true, true, true, false, typ⟩
/-- The teller's address pair at register 10 names offset 0x100 of segment 0. -/
noncomputable def TA : State := reg 11 0 (reg 10 0x100 T)
/-- The same over mapped memory. -/
noncomputable def TM : State := mapped (rwx .local) (.lpddr 0) TA
/-- What the home answers a teller's access. -/
noncomputable def homeOf (i : Instr) (s : State) : Except Denied (List Byte × Nat × State) :=
  match tellerAccRow i with
  | some r => s.tellerGlobal (tg s) (addressAt (tg s) r).toNat r.size (r.act (tg s).teller)
  | none => .error .held
/-- The premises of an access through a segment that is not the window's. -/
noncomputable def throughSegment (i : Instr) (s : State) : Bool :=
  match tellerAccRow i with
  | some r => turn s && decide (segAt (tg s) r < 7 ∧ (addressAt (tg s) r).toNat % r.size = 0)
  | none => false
/-- How the home denies. -/
def denied {α : Type} (x : Except Denied α) : Option Denied := match x with | .error d => some d | .ok _ => none

theorem witness_TellerArithmetic : ((tellerRow (.talAdd 63 63 0)).map fun r => (r.1, r.2.2)) = some (63, 1) ∧ turn T = true := by decide +kernel

theorem witness_TellerFlow :
    ((tellerBranches (.tbeq 3 3 (-5))).map fun r => (r.1, r.2 (tg T).teller)) = some (-5, true) ∧
    ((tellerBranches (.tbne 3 3 (-5))).map fun r => (r.1, r.2 (tg T).teller)) = some (-5, false) ∧ turn T = true ∧
    (turn (stacked (List.replicate 7 0)) = true ∧ (tg (stacked (List.replicate 7 0))).teller.rstack.length < 8) ∧
    (turn (stacked [100]) = true ∧ (tg (stacked [100])).teller.rstack = [100]) := by
  decide +kernel

theorem witness_TellerWindowAccesses :
    (match tellerAccRow (.tatomCas 62 10 3) with
      | some r =>
        let s := reg 3 0 (reg 11 0xE0000000 (reg 10 1020 T))
        turn s && decide (segAt (tg s) r = 7 ∧ offsetAt (tg s) r < 2 ^ 32 ∧ windowAt (tg s) r + r.size ≤ (tg s).wsize ∧ windowAt (tg s) r % r.size = 0)
      | none => false) = true ∧ (tg T).wsize = 1024 := by
  decide +kernel

/-- Line 2 in its slice, with what its leaf grants. -/
def sliceLine : L2Line := ⟨⟨2, some 0⟩, 0, false, .i, 0, [], rwx .local, .lpddr 0x100, none⟩
/-- The address space of context 0 over line 2. -/
noncomputable def TS : State := { TA with l2 := [sliceLine] }

theorem witness_TellerGlobalAccesses :
    ([Instr.tld 5 10 3, .tst 5 10 3, .tatomCas 62 10 3].all fun i => throughSegment i TS &&
      match tellerAccRow i with
      | some r => sliceLine.perm.allows r.want && !TS.notOwner (tg TS).ctx 0x130 (some (tg TS).core) &&
          decide ((addressAt (tg TS) r).toNat / 128 = 2)
      | none => false) = true ∧
    (TS.l2? (TS.ctxAt (tg TS).ctx).asid 2 = some sliceLine ∧ TS.heldVa (tg TS).ctx 0x130 = false ∧ TS.frozenLine 0 2 = false ∧
      TS.pairOfShd? (tg TS).ctx 0x130 = none ∧ TS.asked sliceLine.key = false ∧
      (TS.accs.all fun a => !a.inL1) = true ∧ TS.writesAhead 0 0 2 = false) ∧
    (throughSegment (.tld 5 10 3) TM = true ∧ (homeOf (.tld 5 10 3) TM).isOk = true) ∧
    (throughSegment (.tstD 62 10 3) TA = true ∧ denied (homeOf (.tstD 62 10 3) TA) = some (.walk 2 0x130)) ∧
    (throughSegment (.tst 5 10 3) { TM with freezes := [⟨7, 0, 0, 1, 1, .active, 0, [], [0], false, []⟩] } = true ∧
      denied (homeOf (.tst 5 10 3) { TM with freezes := [⟨7, 0, 0, 1, 1, .active, 0, [], [0], false, []⟩] }) = some (.frozen 0x130)) ∧
    (throughSegment (.tld 5 10 3) { TM with shadows := [⟨48, 0, 0x10000, 0, 1, false, []⟩] } = true ∧
      denied (homeOf (.tld 5 10 3) { TM with shadows := [⟨48, 0, 0x10000, 0, 1, false, []⟩] }) = some (.shadow 0x130)) ∧
    (throughSegment (.tst 5 10 3) (mapped (rwx .wstore) (.wstore 0) TA) = true ∧
      denied (homeOf (.tst 5 10 3) (mapped (rwx .wstore) (.wstore 0) TA)) = some (.wstore 0x130)) := by
  decide +kernel

theorem witness_TellerQueues :
    turn T = true ∧ isTellerPass .tnop = true ∧
    (turn TQ = true ∧ (6 : BitVec 12).toNat ≤ 6 ∧ T.queueUsed 0 6 < 16 ∧ ¬TQ.queueUsed (tg TQ).core 6 < 16) ∧
    (∀ n ∈ [0, 1], turn (reg 5 8192 (TD n)) = true ∧ ((tg (reg 5 8192 (TD n))).teller.reg 5).toNat ≤ 8192 ∧
      (tg (reg 5 8192 (TD n))).teller.reg 5 ≠ 0 ∧ (tg (reg 5 8192 (TD n))).kernel.dqd = 1 ∧ (tg (reg 5 8192 (TD n))).dq.length = n) ∧
    7 ≤ (7 : BitVec 12).toNat ∧
    (T.unacked (tg T).id = false ∧ (let s : State := { T with accs := [{ acc one with tid := tellerTid }] }
      turn s = true ∧ s.unacked (tg s).id = true)) := by
  decide +kernel

theorem witness_TellerEvents :
    (([(0xFFFF#32, 0x8010#16), (0x20, 0x10)].all fun m =>
      let s := tlr (fun t => { t with wake := m.2 }) (reg 4 m.1 T)
      turn s && decide ((tg s).teller.reg 4 ≠ 0 ∧ ((tg s).teller.reg 4).toNat < 2 ^ 16 ∧ (tg s).teller.wake = m.2)) = true) ∧
    (let s := grp (fun g => { g with pushed := 0x40 }) (reg 4 14 (reg 5 0xE0010001 T))
     turn s = true ∧ ((tg s).teller.reg 4).toNat < 15 ∧ ((tg s).teller.reg 5).getLsbD 15 = false ∧
       ((tg s).teller.reg 5).toNat / 2 ^ 28 = 14 ∧ (tg s).pushed.getLsbD 6 = true ∧ s.routes = [] ∧
       (⟨0, 14, gid, 0xE0050001, 4⟩ : Route).fires = false) ∧
    (turn (reg 4 1008 T) = true ∧ ((tg (reg 4 1008 T)).teller.reg 4).toNat + 16 ≤ (tg (reg 4 1008 T)).wsize ∧
      ((tg (reg 4 1008 T)).teller.reg 4).toNat % 16 = 0) ∧
    (let s := reg 5 3 (reg 4 0 { T with mems := T.mems.scratchWrite 0 0 (SyncWord.bytes ⟨0, 5, 7, 0⟩) })
     let old := SyncWord.ofBytes (s.mems.scratchRead (tg s).core ((tg s).wbase + 0) 16)
     (syncWordAfter old ((tg s).teller.reg 5) 0).ctl ≠ old.ctl) := by
  decide +kernel

theorem witness_TellerFreezes :
    (let s := reg 12 1048576 (reg 11 0 (reg 10 4096 T))
     turn s = true ∧ (tg s).teller.pair 10 = 4096 ∧ ((tg s).teller.reg 12).toNat = 2 ^ 20 ∧ (tg s).seg.getD 0 0 = 0 ∧
       s.rangeBusy (tg s).ctx 4096 (2 ^ 20) = false) ∧
    (∀ n ∈ [1, 2], let s := { T with freezes := [fz 47 1 .active, fz 48 n .active] }
      turn s = true ∧ s.freezes.find? (fun f => f.id == ((tg s).teller.reg 3).toNat && f.asid == (s.ctxAt (tg s).ctx).asid &&
        (f.st == .freezing || f.st == .active) && f.count != 0) = some (fz 48 n .active)) ∧
    (T.isCoord = true ∧ ([4, 5].map fun c => ({ T with mgmt := { T.mgmt with coord := c }, podRoutes := [⟨5, homeHash 0 % 8, 1, false⟩] } : State).isCoord) = [false, false]) ∧
    (let s := { T with shadows := [⟨48, 0, 0x10000, 0x20000, 1, false, []⟩] }
     turn s = true ∧ (s.shadows.find? (fun p => p.ctx == (tg s).ctx && p.id == ((tg s).teller.reg 3).toNat)).isSome = true) := by
  decide +kernel

theorem witness_TellerFormatsAndReads :
    (turn (reg 4 fmtReset T) = true ∧ fmtLegal ((tg (reg 4 fmtReset T)).teller.reg 4) = true ∧
      ((tg (reg 4 fmtReset T)).teller.reg 4).getLsbD 18 = false) ∧
    (turn (reg 4 0 T) = true ∧ ((tg (reg 4 0 T)).teller.reg 4).toNat < 2 ^ 9 ∧
      (let w := ((tg T).nf.getD 7 fmtReset &&& ~~~0x07FC0000#32) ||| BitVec.ofNat 32 (0 / 2 ^ 8 * 2 ^ 18) ||| BitVec.ofNat 32 (0 % 2 ^ 8 * 2 ^ 19)
       fmtLegal w = true ∧ w.getLsbD 18 = false)) ∧
    (turn T = true ∧ T.launch? (tg T).id.launch = none) ∧ (4 ≤ (4 : BitVec 18).toNat ∧ (18 : BitVec 18).toNat ≤ 18) := by
  decide +kernel

/-- Barrier 15 before a teller's arrival with a count. -/
noncomputable def meets (x : Barrier) (v : Word) : State := grp (fun g => { g with bars := g.bars.set 15 x }) (reg 3 v T)
/-- The premises of a teller's arrival there. -/
noncomputable def mayArrive (x : Barrier) (v : Word) : Bool :=
  let g := tg (meets x v)
  turn (meets x v) && decide (1 ≤ (g.teller.reg 3).toNat ∧ (g.teller.reg 3).toNat ≤ 511 ∧ 15 < g.kernel.nbar ∧ g.bars[15]? = some x ∧ x.tarr = false) &&
    (firstArrival x || (g.teller.reg 3).toNat == x.cnt)
/-- That arrival completes the phase. -/
noncomputable def completesPhase (x : Barrier) (v : Word) : Bool := x.arrive + 1 == expects (tg (meets x v)) x v.toNat

theorem witness_TellerBarriers :
    (mayArrive .reset 1 && mayArrive .reset 511 && mayArrive (midPhase 3) 3 && mayArrive { midPhase 3 with arrive := 2 } 3 &&
      completesPhase { midPhase 3 with arrive := 2 } 3 && !completesPhase (midPhase 3) 3) = true ∧
    (tg (meets { midPhase 3 with tarr := true } 3)).bars[15]? = some { midPhase 3 with tarr := true } ∧
    (let g := tg (meets (midPhase 3) 5)
     g.bars[15]? = some (midPhase 3) ∧ firstArrival (midPhase 3) = false ∧ (g.teller.reg 3).toNat ≠ (midPhase 3).cnt) := by
  decide +kernel

/-- The words of a MATRIX command over s8, one crew and one step, for queue 5: queued, or held in slot 1, from register 1. -/
noncomputable def offer (w0 : Word) (s : State) : State :=
  grp (fun g => { g with t := 16, teller := { g.teller with
    s := [0, w0, 0x02000550, 1, 0, 0, 0, 0x10001, 0x10001, 1, 0, 0, 0, 0, 0, 0, 0] ++ List.replicate 47 0 } }) s
/-- A full queue 5. -/
noncomputable def TQ5 : State := { T with cmds := (List.range 16).map fun k => { cmdQ k with queue := 5 } }

theorem witness_TellerPush :
    (∀ s ∈ [offer 0xFFFF0025 T, offer 0xFFFF0525 T, offer 0xFFFF0025 TQ5],
      turn s = true ∧ s.launch? (tg s).id.launch = none ∧
      s.badCommand (tg s) (s.offered (tg s) ((List.range 16).map fun i => (tg s).teller.reg (1 + BitVec.ofNat 6 i))) = false) ∧
    (T.queueUsed (tg T).core 5 < 16 ∧ T.slot? (tg T).core 1 = none ∧ (0xFFFF0525#32).getLsbD 8 = true ∧ (0xFFFF0525#32).toNat / 2 ^ 10 % 2 = 1) ∧
    16 ≤ TQ5.queueUsed (tg TQ5).core 5 ∧ (48 : BitVec 6).toNat ≤ 48 ∧
    (∀ p ∈ [true, false], let s : State := { T with held := [⟨0, 1, gid, p⟩] }
      s.slot? (tg s).core 1 = some ⟨0, 1, gid, p⟩ ∧ gid = (tg s).id ∧ s.slotCmd? (tg s).core 1 = none) := by
  decide +kernel

theorem witness_TellerTraps :
    turn T = true ∧
    8 ≤ (tg (stacked (List.replicate 8 0))).teller.rstack.length ∧ (tg T).teller.rstack = [] ∧ turn (stacked (List.replicate 8 0)) = true ∧
    6 < (7 : BitVec 12).toNat ∧ ((tg T).teller.reg 0 = 0 ∧ 8192 < ((tg (reg 4 8193 T)).teller.reg 4).toNat) ∧
    ([0#32, 0x10000, 0x10001].all fun v => turn (reg 4 v T) &&
      decide (((tg (reg 4 v T)).teller.reg 4).toNat % 2 ^ 16 = 0 ∨ 2 ^ 16 ≤ ((tg (reg 4 v T)).teller.reg 4).toNat)) = true ∧
    (48 < (49 : BitVec 6).toNat ∧ T.badCommand (tg T) (T.offered (tg T) ((List.range 16).map fun i => (tg T).teller.reg (48 + BitVec.ofNat 6 i))) = true) ∧
    ((3 : BitVec 18).toNat < 4 ∧ 18 < (19 : BitVec 18).toNat) ∧
    511 < ((tg (reg 4 512 T)).teller.reg 4).toNat ∧ fmtLegal ((tg (reg 4 0xFFFFFFFF T)).teller.reg 4) = false ∧
    T.shadows = [] ∧ (tg T).wsize < ((tg (reg 4 1009 T)).teller.reg 4).toNat + 16 ∧
    ([(1021#32, true), (2, false)].all fun c =>
      (match tellerAccRow (.tatomXchg 5 10 0) with
      | some r =>
        let s := reg 11 0xE0000000 (reg 10 c.1 T)
        (turn s && decide (segAt (tg s) r = 7 ∧ offsetAt (tg s) r < 2 ^ 32 ∧
          if c.2 then (tg s).wsize < windowAt (tg s) r + r.size else windowAt (tg s) r + r.size ≤ (tg s).wsize ∧ windowAt (tg s) r % r.size ≠ 0))
      | none => false)) = true := by
  decide +kernel

theorem witness_TellerTraps_more :
    (2 ^ 9 ≤ ((tg (reg 4 512 T)).teller.reg 4).toNat ∧ fmtLegal ((tg (reg 4 0x40124 T)).teller.reg 4) = true ∧
      ((tg (reg 4 0x40124 T)).teller.reg 4).getLsbD 18 = true) ∧
    (turn (reg 4 15 T) = true ∧ 15 ≤ ((tg (reg 4 15 T)).teller.reg 4).toNat) ∧
    (∀ gid2 ∈ [gid, { gid with stage := 1 }], let s : State := reg 4 3 (reg 5 0xE0010001 { T with routes := [⟨0, 3, gid2, 0xE0010001, 0⟩] })
      turn s = true ∧ ((tg s).teller.reg 4).toNat = 3 ∧ ((tg s).teller.reg 5).toNat / 2 ^ 28 = 14 ∧ ((tg s).teller.reg 5).getLsbD 15 = false ∧
        (tg s).pushed.getLsbD 6 = false) ∧
    ([(4097#32, 1#32), (4096, 0), (4096, 0x100001)].all fun p => let s := reg 12 p.2 (reg 11 0 (reg 10 p.1 T))
      turn s && decide (((tg s).teller.pair 10).toNat / 2 ^ 61 < 7)) = true ∧
    (((tg (reg 11 0xE0000000 (reg 10 0 T))).teller.pair 10).toNat / 2 ^ 61 = 7) ∧
    (turn (reg 4 1000 T) = true ∧ ((tg (reg 4 1000 T)).teller.reg 4).toNat % 16 ≠ 0) ∧
    (match tellerAccRow (.tld 5 10 0), tellerAccRow (.tld 5 10 3) with
      | some r, some q =>
        let s := reg 11 0xE0000001 (reg 10 0 T)
        let t := reg 3 1 TA
        turn s && turn t && decide (segAt (tg s) r = 7 ∧ 2 ^ 32 ≤ offsetAt (tg s) r ∧ segAt (tg t) q < 7 ∧ (addressAt (tg t) q).toNat % 4 ≠ 0)
      | _, _ => false) = true := by
  decide +kernel

/-- The teller waits. -/
noncomputable def wk (w : Wait) (s : State) : State := tlr (fun t => { t with wait := some w }) s

/-- The group, whose turn it need not be. -/
noncomputable def gr (s : State) : Group := (s.group? gid).getD (probeGroup 7)

theorem witness_TellerWakes :
    ([Wait.queue 6, .acks, .dqRoom, .wake 0x8000, .gen 1008 3, .thawed 48, .arrival 15, .frozen 9 48, .published 48, .barrier 15, .threads].all fun w =>
      (wk w T).group? (gr (wk w T)).id == some (gr (wk w T)) && (gr (wk w T)).teller.wait == some w) = true ∧
    (T.queueUsed 0 6 < 16 ∧ 16 ≤ TQ.queueUsed 0 6) ∧ (gr (TD 0)).dq.length < (gr (TD 0)).kernel.dqd ∧ (gr (TD 1)).kernel.dqd ≤ (gr (TD 1)).dq.length ∧
    (T.unacked (gr T).id = false ∧ ({ T with accs := [{ acc one with tid := tellerTid }] } : State).unacked (gr T).id = true) ∧
    T.freezes = [] ∧ T.shadows = [] ∧ ((gr T).bar 15).tarr = false ∧ ((gr T).bar 15).twait = false ∧ (gr T).teller.wake = 0 ∧
    T.launch? gid.launch = none ∧ T.stopOf gid.column = none ∧ (gr T).threads.all (·.retired) = false ∧
    ((gr (thr (fun t => { t with retired := true }) T)).threads.all (·.retired)) = true := by
  decide +kernel

/-! ## Witnesses: engines, threads, accesses -/

/-- Page-table entries of the first 2 MiB of the system context, as (page, entry). -/
def paged (xs : List (Nat × Nat)) (s : State) : State :=
  let tables := (List.range 4).foldl (fun (m : Mems) i => m.write (.lpddr (4096 * i)) (leBytes 8 (4096 * (i + 1) + 1))) s.mems
  { s with mems := xs.foldl (fun m x => m.write (.lpddr (0x4000 + 8 * x.1)) (leBytes 8 x.2)) tables }
/-- A leaf of a local frame: V, RD, WR, EX, LEAF. -/
def leaf (frame : Nat) : Nat := 0x1F + 4096 * frame
/-- A command of the group, number 7. -/
def cmd (queue : Nat) (ws : List Word) (st : CmdState) : Cmd := { cmdQ 7 with queue := queue, words := ws, st := st }
/-- The machine with the command. -/
noncomputable def with7 (c : Cmd) (s : State := T) : State := { s with cmds := [c] }
/-- A copy of 16 bytes within the window, from 0x20 to 0x40, `b1` runs. -/
def copy (b1 : Word) (sync : Word := 0xFFFF) : List Word :=
  [sync * 0x10000, 0x20, 0xE0000000, 0x40, 0xE0000000, 16, 0x10000 + b1, 0x10001, 16, 16, 0, 0, 0, 0, 0, 0]
/-- A MATRIX command over s8: crew 0, one step. -/
def matrix : List Word := [0xFFFF0024, 0x02000550, 1, 0, 0, 0, 0x10001, 0x10001, 1, 0, 0, 0, 0, 0, 0, 0]
/-- A SHADOW command over page 2, shadow page 3, id 9. -/
def shadowing : List Word := [0xFFFF0040, 0x2000, 0, 0x3000, 0, 0x90001, 0, 0, 0, 0, 0, 0, 0, 0, 0, 0]
/-- A broadcast of 16 bytes to page 2 in communicator 3. -/
def broadcast : List Word := [0xFFFF0056, 0, 0, 0x2000, 0, 16, 0x43, 0, 0, 0, 0, 0, 0, 0, 0, 0]

theorem witness_CommandsStart :
    (startRow (.copy 7) = some (7, 0) ∧ (with7 (cmd 3 (copy 1) .queued)).cmd? 7 = some (cmd 3 (copy 1) .queued) ∧
      (cmd 3 (copy 1) .queued).kind = 0 ∧ (with7 (cmd 3 (copy 1) .queued)).canStart (cmd 3 (copy 1) .queued) = true) ∧
    (let c := cmd 3 shadowing .queued
     let s := paged [(2, leaf 2), (3, leaf 3)] (with7 c)
     c.kind = 4 ∧ s.canStart c = true ∧ (s.cmdAddr c 32 0).num = 0x2000 ∧ (s.cmdAddr c 96 0).num = 0x3000 ∧
       cmdField c.words 160 16 = 1 ∧ cmdField c.words 176 8 = 9 ∧ s.pairable 0 0x2000 = true ∧ s.pairable 0 0x3000 = true ∧ s.shadows = []) ∧
    (let c := cmd 6 broadcast .queued
     let s := { with7 c with shadows := [⟨1, 0, 0x2000, 0x8000, 1, false, []⟩], comms := [⟨3, [0, 1], 0⟩] }
     collectRow (.collectBroadcast 7) = some (7, 1) ∧ c.kind = 5 ∧ cmdField c.words 198 2 = 1 ∧ s.canStart c = true ∧ s.commSize c.comm = 2 ∧
       s.cmdAddr c 96 0 = .glob 0x2000 ∧ s.pairOfDst? 0 0x2000 = some ⟨1, 0, 0x2000, 0x8000, 1, false, []⟩ ∧
       0x2000 + c.collectLen 2 ≤ 0x2000 + 1 * 4096 ∧ c.collNo = none ∧ ({ c with collNo := some 4 } : Cmd).collNo ≠ none) := by
  decide +kernel

/-- A running copy, so far. -/
def running (b1 sync : Word) (read : List Byte) (wrote : Nat) : Cmd := { cmd 3 (copy b1 sync) .started with readBytes := read, wrote := wrote }
/-- It runs. -/
noncomputable def goes (s : State) (c : Cmd) : Bool := s.cmd? c.id == some c && c.st == .started && !c.finished

/-- A copy without decompression or transposition, in no engine's lookahead. -/
def movesOne (c : Cmd) : Bool := decide (c.kind ≤ 1) && !c.decomp && !c.transpose && c.kind != 1 && c.ahead == [] && c.past == []

theorem witness_EnginesRun :
    (let c := running 1 0xFFFF [] 0
     let s := with7 c
     goes s c = true ∧ c.decomp = false ∧ c.transpose = false ∧ s.haltsAt c = false ∧ c.readBytes.length < c.len ∧
       nextPart (s.runSrc c c.iter) c.len c.readBytes.length = (.window 0x20, 16) ∧ 0x20 + 16 ≤ (s.windowOf c).2) ∧
    (let c := running 1 0xFFFF (List.replicate 16 1) 0
     let s := with7 c
     goes s c = true ∧ c.wrote + 16 ≤ c.readBytes.length ∧ c.wrote < c.len ∧ nextPart (s.runDst c c.iter) c.len c.wrote = (.window 0x40, 16) ∧
       s.overlapped c (.window 0x40) 16 = List.replicate 16 false) ∧
    (let c := running 1 0xFFFF (List.replicate 16 1) 16
     goes (with7 c) c = true ∧ c.len ≤ c.wrote ∧ c.runs ≤ c.runOf c.iter + 1) ∧
    (let c := running 2 0xFFFF (List.replicate 16 1) 16
     goes (with7 c) c = true ∧ c.len ≤ c.wrote ∧ c.runOf c.iter + 1 < c.runs ∧ c.syncIdx = 0xFFFF) ∧
    (let c := running 2 0 (List.replicate 16 1) 16
     goes (with7 c) c = true ∧ c.len ≤ c.wrote ∧ c.runOf c.iter + 1 < c.runs ∧ c.syncIdx = 0 ∧ c.transpose = false ∧
       (with7 c).savedCol? c.gid.column = none) ∧
    (let c := cmd 4 matrix .started
     let s := with7 c (str (fun st => { st with own := .claimed 7 }) T)
     let turned := s.modCore c.core fun k => { k with matTurn := c.queue }
     goes s c = true ∧ c.kind = 2 ∧ s.allClaimed c = true ∧ s.lendsOver c = true ∧ s.stopOf gid.column = none ∧ c.prog = 0 ∧
       (s.cmds.all fun x => x.queue == c.queue) = true ∧ ((turned.zeroTargets c).matrixStep? c c.prog).isSome = true ∧
       (s.matrixStep? c c.prog).isSome = true) ∧
    (let c := running 1 0xFFFF [] 0
     let other := { c with id := 8, queue := 1 }
     let s : State := { T with cmds := [c, other] }
     goes s c = true ∧ goes s other = true ∧ [c, other].map s.hasTurn = [false, true] ∧ movesOne c = true ∧ (with7 c).hasTurn c = true) := by
  decide +kernel

/-- Line 2 of the slice over the engine's context, and a copy of 16 bytes from it, or to it. -/
noncomputable def engineLine (c : Cmd) : State := with7 c { T with l2 := [sliceLine] }
/-- A copy of 16 bytes between 0x20 of the window and line 2. -/
def lineCopy (inward : Bool) (read : List Byte) : Cmd :=
  let ws := if inward then [0xFFFF0000, 0x100, 0, 0x40, 0xE0000000] else [0xFFFF0000, 0x20, 0xE0000000, 0x100, 0]
  { cmd 3 (ws ++ [16, 0x10001, 0x10001, 16, 16, 0, 0, 0, 0, 0, 0]) .started with readBytes := read }
/-- What `lineServes` asks of an access of line 2. -/
noncomputable def lineReady (s : State) (va : Nat) (w : Want) : Bool :=
  s.l2? (s.ctxAt 0).asid (va / 128) == some sliceLine && !s.heldVa 0 va && sliceLine.perm.allows w && !s.notOwner 0 va (some 0) &&
    !s.asked sliceLine.key && (s.accs.all fun a => !a.inL1) && !s.frozenLine (s.ctxAt 0).asid (va / 128) && (s.pairOfShd? 0 va).isNone
/-- A decompressing copy of 4 symbols within the window, bound to table 1. -/
def unpacking (read : List Byte) : Cmd :=
  { cmd 3 [0xFFFF0000, 0x20, 0xE0000000, 0x40, 0xE0000000, 0x14000004, 0x10001, 0x10001, 16, 16, 0, 0, 0, 0, 0, 0] .started with readBytes := read }
/-- The table of R299's example, in every slot of core 0. -/
noncomputable def tabled (s : State) : State := s.modCore 0 fun k => { k with tables := List.replicate 4 ⟨0, 0, [0, 1, 2, 3, 3] ++ List.replicate 251 0⟩ }
/-- A transposing copy of rows of 16 bytes. -/
def turning (read : List Byte) : Cmd :=
  { cmd 3 [0xFFFF0000, 0x20, 0xE0000000, 0x40, 0xE0000000, 0x2000010, 0x10010, 0x10001, 16, 16, 0, 0, 0, 0, 0, 0] .started with readBytes := read }

theorem witness_EnginesRun_more :
    (let c := lineCopy true []
     let s := engineLine c
     goes s c = true ∧ movesOne c = true ∧ s.hasTurn c = true ∧ s.haltsAt c = false ∧ nextPart (s.runSrc c c.iter) c.len 0 = (.glob 0x100, 16) ∧
       lineReady s 0x100 .load = true) ∧
    (let c := lineCopy false (List.replicate 16 1)
     let s := engineLine c
     goes s c = true ∧ movesOne c = true ∧ s.hasTurn c = true ∧ nextPart (s.runDst c c.iter) c.len 0 = (.glob 0x100, 16) ∧
       lineReady s 0x100 .store = true ∧ s.pairOfDst? 0 0x100 = none ∧ s.overlapped c (.glob 0x100) 16 = List.replicate 16 false) ∧
    (let c := unpacking []
     let s := tabled (with7 c)
     goes s c = true ∧ c.kind = 0 ∧ c.decomp = true ∧ s.hasTurn c = true ∧ s.tableMissing c = false ∧ (s.decoded c).2 = .more ∧
       s.streamAt c = .window 0x20 ∧ (s.windowOf c).2 = 1024) ∧
    (let c := unpacking [0x1A, 0, 0, 0]
     let s := tabled (with7 c)
     goes s c = true ∧ s.hasTurn c = true ∧ (s.decoded c).1.length = 4 ∧ (s.decoded c).2 = .done ∧
       nextPart (s.runDst c c.iter) 4 0 = (.window 0x40, 4) ∧ s.overlapped c (.window 0x40) 4 = List.replicate 4 false) ∧
    (let c := turning (List.replicate 16 1)
     let s := with7 c
     goes s c = true ∧ c.kind = 0 ∧ c.transpose = true ∧ c.decomp = false ∧ s.hasTurn c = true ∧ c.len ≤ c.readBytes.length ∧
       (s.runDst c c.iter).add 0 = .window 0x40 ∧ (8 * c.len / (opFmt (cmdField c.words 180 4) c.fmtA).w) % 8 = 0) := by
  decide +kernel

theorem witness_CommandsEnd :
    ([0xFFFF#32, 0].all fun sync => let c := { running 1 sync (List.replicate 16 1) 16 with finished := true }
      (with7 c).cmd? 7 == some c && !c.autoPub && cmdField c.words 9 1 == 0 && ((with7 c).column? gid.column).isSome && c.syncIdx == sync.toNat) = true ∧
    (let c := { running 1 0 (List.replicate 16 1) 16 with finished := true }
     (syncWordAfter (cmdSync (with7 c) c) 0 (BitVec.ofNat 32 c.lastCount)).ctl = (cmdSync (with7 c) c).ctl) ∧
    ((with7 (cmd 3 (copy 1) (.parked 4))).cmd? 7 = some (cmd 3 (copy 1) (.parked 4)) ∧ T.faults = []) ∧
    ([(⟨0, 14, gid, 0x00030001, 3⟩ : Route), ⟨0, 0, gid, 0xE0010001, 5⟩].all fun r => let s := { T with routes := [r] }
      s.routes.find? (fun x => x.core == r.core && x.out == r.out) == some r && (s.group? r.gid).isSome &&
        decide (r.word.toNat / 2 ^ 16 % 2 ^ 12 ≠ 0 ∧ r.word.toNat / 2 ^ 16 % 2 ^ 12 ≤ r.count)) = true ∧
    (let p : Shadow := ⟨9, 0, 0x2000, 0x3000, 1, true, [3]⟩
     let s : State := { T with shadows := [p] }
     s.shadows.find? (fun x => x.ctx == 0 && x.id == 9) = some p ∧ p.publishing = true ∧ s.accepted 3 = false) := by
  decide +kernel

theorem witness_ThreadsGoOn :
    (one.group? gid = some (gr one)) ∧ (one.strand? gid 0 0).isSome = true ∧ (one.thread? gid 0).isSome = true ∧
    (((one.thread? gid 0).map fun t => (t.greg 63).visible) = some 0) ∧
    (let s := grp (fun g => { g with deadlock := 65536 }) one
     s.group? gid = some (gr s) ∧ (gr s).deadlock = 65536 ∧ ((s.column? gid.column).map (·.stop)) = some none ∧
       ((s.lanesOn (gr s).core).filter (·.gid == gid)).length = 1) ∧
    (let s := str (fun st => { st with state := .finished }) one
     ((gr s).thread? 0).map (s.retires (gr s)) = some true) ∧
    ((gr one).core < one.cores.length ∧ one.slotDue 0 = true) ∧
    ((one.coreAt 0).standsStill = false ∧ (one.coreAt 0).stopAsked = false ∧ (one.code.all fun l => !l.once) = true ∧
      ((one.lanesOn 0).all fun l => decide (l.st.n < 16)) = true ∧
      ((one.runners 0).map fun c => (c.free, (one.stopOf c.lane.gid.column).isNone, c.hinted false)) = [(true, true, false)]) ∧
    ((one.modCore 0 fun k => { k with stopAsked := true }).coreAt 0).stopAsked = true := by
  decide +kernel

theorem witness_GroupsEnd :
    let s := tlr (fun t => { t with done := true }) (thr (fun t => { t with retired := true }) one)
    s.group? (gr s).id = some (gr s) ∧ ((gr s).threads.all (·.retired)) = true ∧ (gr s).teller.done = true ∧ s.cmds = [] ∧
      s.stopOf gid.column = none := by
  decide +kernel

/-- It is open and needs `n` at `va`. -/
noncomputable def wants (s : State) (n : Need) (va : Nat) : Bool := s.openAcc? (acc s).id == some (acc s) && s.accNeed (acc s) == (n, va)
/-- Its home's copy of line 0, writable. -/
def homed (v : Option VTag) (s : State) : State := { s with l2 := [⟨⟨0, some 0⟩, 0, false, .i, 0, [], rwx .local, .lpddr 0, v⟩] }
/-- An atomic at device scope. -/
def devAtom : Instr := .atomAdd ⟨some ⟨.dev, .relaxed, .normal, 0⟩, 0, 0, 0, 0⟩

theorem witness_AccessesAreServed :
    (let s := sent (.ldB32 (mem 0 7 31)) id
     wants s .ok 0 = true ∧ (acc s).seg7 = true ∧ (acc s).atHome = false ∧ s.mayPerform (acc s) = true ∧ (s.performAcc (acc s)).isOk = true) ∧
    (let s := sent (.stB32 (mem 0 7 31)) id
     wants s .ok 0 = true ∧ (s.group? (acc s).gid).isSome = true ∧ s.mayPerform (acc s) = true) ∧
    (let s := sent (.stB32 (mem 0 0 31)) fun a => { a with st := .performed 2 }
     s.acc? (acc s).id = some (acc s) ∧ (acc s).level = 2) ∧
    (let s := homed none (sent devAtom id)
     wants s .ok 0 = true ∧ (acc s).atHome = true ∧ s.mayPerform (acc s) = true ∧ (s.performAcc (acc s)).isOk = true) ∧
    (let s := homed none (sent (.ldB32 (mem 0 0 31)) id)
     wants s .readMiss 0 = true ∧ (s.l2? (acc s).asid 0).isSome = true) ∧
    (let s := homed none (sent (.stB32 (mem 0 0 31)) id)
     wants s .writeMiss 0 = true ∧ (acc s).atHome = false ∧ (acc s).writes = true) ∧
    (let s := homed none { sent (.stB32 (mem 0 0 31)) id with freezes := [⟨7, 0, 0, 1, 1, .active, 0, [], [0], false, []⟩] }
     wants s (.fault 4 1) 0 = true ∧ (acc s).isPrefetch = false) ∧
    (let s := mapped (rwx .local) (.lpddr 0) (sent (.ldB32 (mem 0 0 31)) id)
     wants s .translate 0 = true ∧ (s.tlb? (controllerOf 0) (acc s).asid 0).isSome = true) ∧
    (let s := paged [(0, leaf 9)] (sent (.ldB32 (mem 0 0 31)) id)
     wants s .walk 0 = true ∧ (match (s.dropDenying 0 0 0 (acc s).want).walk 0 0 (acc s).want (some 0) with | .leaf _ => true | _ => false) = true) ∧
    (let s := sent (.ldB32 (mem 0 0 31)) id
     wants s .walk 0 = true ∧ (s.dropDenying 0 0 0 (acc s).want).walk 0 0 (acc s).want (some 0) = .fault 2) ∧
    (let s := sent (.ldB32 (mem 0 0 31)) fun a => { a with st := .faulted 4 1 }
     s.acc? (acc s).id = some (acc s) ∧ (s.accs.all fun b => !b.isOpen) = true ∧ ((s.column? gid.column).map (·.stop)) = some none) := by
  decide +kernel

/-- The group's L1 holds line 0, exclusively. -/
def inCache (s : State) : State := { s with l1 := [⟨0, ⟨0, some 0⟩, 0, 0, .e, rwx .local, .lpddr 0, none, false, 0⟩] }
/-- It lies in one line, needs nothing more and may be performed. -/
noncomputable def readyAcc (s : State) : Bool :=
  wants s .ok (acc s).va.toNat && (acc s).isOpen && !(acc s).seg7 && decide (0 < (acc s).size ∧ (acc s).va.toNat % 128 + (acc s).size ≤ 128) &&
    (acc s).units == [] && s.mayPerform (acc s) && s.accs.all fun b => !b.inL1

theorem witness_AccessesAreServed_contents :
    ([Instr.ldB32 (mem 0 0 31), .stB32 (mem 0 0 31)].all fun i => let s := inCache (homed none (sent i id))
      readyAcc s && !(acc s).atHome && (s.l1? 0 (acc s).asid 0).isSome) = true ∧
    (let s := homed none (sent devAtom id)
     readyAcc s = true ∧ (acc s).atHome = true ∧ (s.l2? (acc s).asid 0).isSome = true) ∧
    (let s := homed none (sent (.ldB32 ⟨some ⟨.grp, .relaxed, .stream, 0⟩, 0, 0, 0, 0, 31⟩) id)
     readyAcc s = true ∧ s.l1? 0 (acc s).asid 0 = none ∧ (s.l2? (acc s).asid 0).isSome = true) := by
  decide +kernel

/-! ## Witnesses: the device -/

/-- The outcome is a state. -/
def okRes {ε α : Type} (x : Except ε α) : Bool := match x with | .ok _ => true | .error _ => false
/-- A request to the host for line 0, with its answer not yet in. -/
def hostReq : HostReq := ⟨⟨0, some 0⟩, 0, 0, true, .host 0x1000, rwx .host⟩
/-- A half of host memory in the bridge. -/
def half : BridgeHalf := ⟨0x1040, .m, ⟨0, some 0⟩, true, [], 0⟩

theorem witness_LinesAndHost :
    (let s := paged [(0, leaf 9)] { one with code := [], codeReqs := [⟨0, 0, 0⟩] }
     s.codeAsked 0 0 0 = true ∧ (match s.codeFill 0 0 0 with | .ok u => (u.codeLine? 0 0 0).isSome | .error _ => false) = true) ∧
    (let s := { one with code := [] }
     s.codeAsked 0 0 0 = false ∧ s.needsLine 0 0 0 ≠ [] ∧ s.codeLine? 0 (s.ctxAt 0).asid 0 = none ∧ s.codeLine? 0 (s.ctxAt 0).asid 1 = none ∧
       s.codeReqs = []) ∧
    (let s : State := { T with code := [] }
     s.tellersNeed 0 0 ((gr s).teller.pc.toNat / 128) ≠ []) ∧
    (let s := { one with code := [], codeReqs := (List.range 8).map fun i => ⟨0, 0, i + 1⟩ }
     s.codeAsked 0 0 0 = false ∧ 8 ≤ (s.codeReqs.filter (·.core == 0)).length) ∧
    (T.noAlloc 0 0 = false ∧ ({ T with freezes := [⟨7, 0, 0, 1, 0, .dropping, 0, [], [], false, []⟩] } : State).noAlloc 0 0 = true) ∧
    (T.holdsHost (.read 0x7000 4) = false ∧ T.holdsHost (.write 0x7000 [1]) = false ∧
      (let s : State := { T with flip := some ⟨⟨7, 0, false⟩, 7, true, [], true⟩ }
       s.holdsHost (.read 0x7000 4) = true ∧ s.holdsHost (.write 0x6FFF [1, 2]) = true)) ∧
    0x1FFFFFFFFFFF < ({ T.mgmt with hdmBase := 0x200000000000 } : Mgmt).hdmBase ∧
    (({ T with hostReqs := [hostReq] } : State).hostReqs.find? (fun r => r.key == ⟨0, some 0⟩ && r.own == true) = some hostReq) ∧
    (isSnoop (.snpCur 0x107F) 0x107F ∧ ({ T with bridge := [half] } : State).half? (0x107F / 64 * 64) = some half ∧ half.st ≠ .i ∧
      T.half? 0x1040 = none) ∧
    (T.recovery = false ∧ 0xFFF + 1 ≤ Config.hostVisibleBytes ∧ Config.hostVisibleBytes < Config.hostVisibleBytes + 1 ∧
      (∀ k < 4, T.frozenPa (0 + k) = false)) := by
  refine ⟨?_, ?_, ?_, ?_, ?_, ?_, ?_, ?_, ⟨Or.inr (Or.inr rfl), ?_⟩, ?_⟩ <;> decide +kernel

/-- A flit over link 5, lane 2, in sequence. -/
def flit (m : PeerMsg) : Flit := ⟨5, 2, 0, true, 4, some m⟩
/-- A request for 4 bytes of page 2. -/
def remote : RemoteReq := ⟨9, 0x2000, 0, .load 4⟩
/-- A receive buffer of link 5, lane 2, with requests, stopped. -/
def buffer (n : Nat) : LinkRx := ⟨5, 2, List.replicate n (.request remote), true⟩

theorem witness_PodAndLinks :
    (let s : State := paged [(2, leaf 2)] { T with linkRx := [buffer 2] }
     s.isHead remote = true ∧ okRes (s.serve remote) = true ∧ s.isHead { remote with chip := 8 } = false ∧ T.ctxOfAsid? 77 = none) ∧
    (let s : State := { T with links := [5], linkRx := [buffer 63] }
     (flit (.request remote)).crcOk = true ∧ s.links.contains 5 = true ∧ s.nextSeq 5 = 0 ∧ (s.rxOf 5 2).queue.length < 64) ∧
    (let s : State := { T with links := [5], linkRx := [buffer 64] }
     64 ≤ (s.rxOf 5 2).queue.length ∧ (⟨5, 2, 1, true, 0, none⟩ : Flit).seq ≠ s.nextSeq 5) ∧
    23 < 24 ∧ T.recovery = false ∧
    (let f : Flit := ⟨5, 2, 3, true, 0, none⟩
     let s : State := { State.reset with retry := [(9, f)], agenda := [.resend 5 3] }
     s.issue = [] ∧ (s.firstOf s.dueEvents).isNone = true ∧ (f.link = 5 ∧ 3 ≤ f.seq)) ∧
    (let r : RouteEntry := ⟨9, homeHash (0x2000 / 128) % 8, 5, false⟩
     let s : State := { T with links := [5], podRoutes := [r] }
     s.route? 9 r.lane = some r ∧ T.route? 9 r.lane = none) ∧
    (PeerMsg.acts (.freeze 1 2 3 4 5) = true ∧ PeerMsg.acts (.request remote) = false) ∧
    okRes ((paged [(0, leaf 9)] T).vaRead 0 T.mgmt.commlist.toNat 256 { shd := true }) = true := by
  decide +kernel

/-- A record of page 2 of the group's column, whose replay has been asked for. -/
def rec2 : FaultRec := ⟨4, 0, gid.column, 2, 2, 0, 0, 0x2000, true, 0, true, false, false, [0]⟩
/-- A page being moved to frame 7. -/
def move7 : Migration := ⟨0, 0x2000, 12, .host 0x2000, 7, true, [(0x4010, leaf 2)], false⟩

theorem witness_TranslationUpkeep :
    (T.ctxAt 0).exist = true ∧ (1 ≤ (BitVec.ofNat 64 (2 ^ 20)).toNat % 2 ^ 32 ∧ (BitVec.ofNat 64 (2 ^ 20)).toNat % 2 ^ 32 ≤ 2 ^ 20) ∧
    (∀ b ∈ [true, false], ((T.modCtx 0 fun c => { c with sweeps := [⟨0, 1, true, b⟩] }).ctxAt 0).sweeps = [⟨0, 1, true, b⟩]) ∧
    (T.writesHeld = false ∧ ({ T with heldHost := [.write 0x7000 [1]] } : State).writesHeld = true) ∧
    (let s := paged [(2, leaf 2 + 1024)] { T with migration := some move7 }
     ∃ x ∈ move7.slots, s.entryAt x.1 ≠ x.2) ∧
    (let s : State := { T with faults := [rec2] }
     s.faults.find? (fun x => x.ctx == 0 && x.fid == rec2.fid) = some rec2 ∧ rec2.replay.find? (fun q => decide (((s.ctxAt 0).ptseq - q).toNat < 2 ^ 31)) = some 0 ∧
       (s.tlbDrop (rec2.page * 4096) 4096 fun _ => true).walk 0 rec2.va.toNat ⟨true, false, false⟩ ((s.column? rec2.col).map (·.core)) = .fault 2 ∧
       (match ((paged [(2, leaf 2)] s).tlbDrop (rec2.page * 4096) 4096 fun _ => true).walk 0 rec2.va.toNat ⟨true, false, false⟩
         ((s.column? rec2.col).map (·.core)) with | .leaf _ => true | _ => false) = true) ∧
    (let s := paged [(2, leaf 2)] { T with migration := some { move7 with switching := true } }
     s.migration.map (·.switching) = some true ∧ (move7.slots.all fun x => s.entryAt x.1 == x.2) = true ∧
       s.entryAt 0x4018 ≠ leaf 2 ∧ s.hostBusy 0 0x2000 (2 ^ 12) = false ∧
       ({ s with hostReqs := [{ hostReq with key := ⟨0x2000 / 128, some 0⟩ }] } : State).hostBusy 0 0x2000 (2 ^ 12) = true ∧
       (Place.lpddr (7 * 4096)).absent (2 ^ 12) = none) := by
  decide +kernel

/-- A stop of the group's column. -/
def stop (r : StopReason) (begun : Bool) : Stop := ⟨r, begun, none, 0, 0, 0, [], none, none, [], []⟩
/-- The column stops so. -/
noncomputable def stopping (x : Option Stop) (s : State := T) : State := s.modColumn gid.column fun c => { c with stop := x }
/-- The column of the group. -/
noncomputable def colOf (s : State) : Column := (s.column? gid.column).getD (probeColumn 7)
/-- The system context has a save slot, in page 0. -/
def slotted (s : State) : State := s.modCtx 0 fun c => { c with svslots := 1 }
/-- A column saved in slot 0 after a trap, with a record of 256 bytes. -/
def trapped (sealed : List (Byte × Byte)) : SavedCol :=
  { id := gid.column, ctx := 0, reason := .trap, slot := some 0, record := [], sealed := sealed, trap := none, trapSeq := 0, missing := 0, owed := [],
    asleep := [], triggers := [], exited := [], parked := [], kept := [], oldDq := [], entries := [], placeable := false }

theorem witness_ColumnsLeaveAndReturn :
    (let s := slotted (str (fun st => { st with state := .parked 4 }) (tlr (fun t => { t with done := true }) T))
     s.column? gid.column = some (colOf s) ∧ (colOf s).stop = none ∧ s.coreHeld 0 = false ∧ s.spareSlots 0 = 1 ∧
       ((s.columnGroups gid.column).filter fun g => !(g.threads.all (·.retired) && (g.teller.done || g.teller.isDefault))).map s.stalledOnPages = [true]) ∧
    (let s := stopping (some (stop .preempt false))
     (colOf s).stop = some (stop .preempt false) ∧ s.column? gid.column = some (colOf s) ∧ (s.coreAt 0).standsStill = false) ∧
    (let col : Column := { probeColumn 0 with wsize := 0, stop := some (stop .switchOut true) }
     let st := stop .switchOut true
     let s : State := paged [(0, leaf 16)] (slotted { State.reset with columns := [col] })
     (s.parkBehind fun a => a.gid.column == col.id) = s ∧ s.column? col.id = some col ∧ s.drained col.id = true ∧ s.quiesce.running = false ∧ (s.ctxAt 0).freeSlot = some 0 ∧
       okRes (s.vaWrite 0 (s.slotAddr 0 0) (s.recordPart col st.reason.code none st.trapSeq st.cmd).bytes { shd := true }) = true ∧
       (s.coreAt col.core).standsStill = false ∧
       s.columns.find? (fun x => x.ctx == 0 && (match x.stop with | some st => st.begun && s.drained x.id && s.mayLeave x st | none => false)) = some col) ∧
    (let s : State := paged [(0, leaf 16)] { State.reset with saved := [trapped (List.replicate 8 (0, 0))] }
     s.trapped? 0 0 = some (trapped (List.replicate 8 (0, 0))) ∧
       (match s.recordOf? (trapped (List.replicate 8 (0, 0))) with | .ok r => recordOk (List.replicate 8 (0, 0)) r == false | .error _ => false) = true) ∧
    (let r := patch (List.replicate 64 0) 0 (leBytes 6 (0x47525653 + 2 ^ 32))
     recordOk (List.replicate 64 (0, 0)) r = true) := by
  decide +kernel

theorem witness_FreezesAndThaws :
    (let q : FrzReq := ⟨3, some gid, 0, 8, 2, 0, false⟩
     let s : State := { wk (.freeze 9 3) T with frzReqs := [q] }
     s.frzReqs.find? (fun q => s.decideFreeze q != .later) = some q ∧ s.isCoord = true ∧ s.decideFreeze q = .fresh 1 ∧ (gr s).teller.wait = some (.freeze 9 3) ∧
       ({ s with freezes := [⟨5, 0, 8, 2, 1, .active, 0, [], [], false, []⟩] } : State).decideFreeze q = .again 5 ∧
       ({ s with freezes := [⟨5, 0, 9, 2, 1, .active, 0, [], [], false, []⟩] } : State).decideFreeze q = .refused 8 ∧
       ((s.column? gid.column).map (·.stop)) = some none) ∧
    (let f : Freeze := fz 48 0 .active
     let s : State := { T with freezes := [f], thawReqs := [(0, 48)] }
     s.thawReqs.find? (fun q => s.freezes.any fun f => f.id == q.2 && f.asid == q.1 && f.st == .active && f.count == 0) = some (0, 48) ∧
       s.freeze? 48 = some f) ∧
    (let f : Freeze := ⟨48, 0, 5, 1, 1, .freezing, 0, [], List.range 288, false, []⟩
     let s : State := { T with freezes := [f], peers := [9] }
     s.freeze? 48 = some f ∧ s.hostBiased f = [] ∧ (s.chip = 0 ∧ s.devices = [0, 9]) ∧ 288 ≤ f.marked.length ∧ 0 ∉ f.acks) ∧
    (let f : Freeze := ⟨48, 0, 5, 1, 0, .dropping, 0, [9], [], true, []⟩
     let s : State := { T with freezes := [f], peers := [9] }
     s.freeze? 48 = some f ∧ (∀ d ∈ s.devices, d = 0 ∨ d ∈ f.acks) ∧ f.dropped = true ∧ s.hostBusy 0 (5 * 4096) 4096 = false) ∧
    (let f : Freeze := ⟨48, 0, 5, 1, 0, .unmarking, 0, [], [], true, []⟩
     let s : State := { T with freezes := [f], peers := [9] }
     s.freeze? 48 = some f ∧ 9 ∈ s.devices ∧ ¬(∀ d ∈ s.devices, d = 9 ∨ d ∈ f.acks) ∧ f.marked = []) ∧
    (let f : Freeze := ⟨48, 0, 5, 1, 1, .freezing, 9, [], List.range 288, false, []⟩
     let q : FrzReq := ⟨3, some gid, 0, 8, 2, 0, false⟩
     let s : State := { T with freezes := [f], frzReqs := [q], mgmt := { T.mgmt with coord := 9 } }
     let r : RouteEntry := ⟨9, homeHash 0 % 8, 3, false⟩
     let u : State := { s with podRoutes := [r], links := [3] }
     s.isCoord = false ∧ s.frzReqs.find? (fun q => !q.sent) = some q ∧ s.routed 9 0 = false ∧ s.freeze? 48 = some f ∧ s.chip ∉ f.acks ∧
       288 ≤ f.marked.length ∧ u.isCoord = false ∧ u.route? u.mgmt.coord (homeHash 0 % 8) = some r ∧
       ({ u with linkStop := [(3, r.lane)] } : State).route? 9 r.lane = none) := by
  decide +kernel

/-- A launch block: 16 threads, one column, CRECVA 64, CODEVA 0, LAUNCHID `id`. -/
def block (id : Nat) : List Byte :=
  patch (patch (patch (patch (patch (patch (List.replicate 256 0) 12 (leBytes 2 16)) 16 (leBytes 4 1)) 20 (leBytes 4 1)) 24 (leBytes 4 1))
    104 (leBytes 8 64)) 248 (leBytes 4 id)
/-- The launch of a block. -/
def launchOf (id : Nat) : Launch := { State.reset.newLaunch ⟨0, block id, (0, 0), 0, true⟩ with seq := 3 }
/-- A launch whose one kernel is on hand. -/
def ready : Launch :=
  { launchOf 9 with kernels := [(0, leBytes 128 (packFields [(1, 16), (64, 7), (0, 41), (1024, 0), (0, 512), (64, 32)]))] }

/-- A block that has taken its slot, with no value log to replay. -/
def blockOf (bs : List Byte) : Submitted := ⟨0, bs, (0, 0), 0, true⟩

theorem witness_LaunchesGoThrough :
    ((State.reset.ctxAt 0).exist = true ∧ State.reset.recovery = false ∧ (State.reset.ctxAt 0).staging.length = 256 ∧
      0xF8 < 0xFC + [0#8, 0, 0, 0].length ∧ 0xFC + [0#8, 0, 0, 0].length ≤ 0x100) ∧
    (let b : Submitted := blockOf (block 9)
     let s : State := { State.reset with submitted := [b] }
     let l := s.newLaunch b
     l.crecVa = 64 ∧ l.id = 9 ∧ l.badBlock = false ∧ (s.newLaunch (blockOf (block 0))).id = 0 ∧
       (s.newLaunch (blockOf (patch (block 9) 12 [1]))).badBlock = true ∧ s.launches = [] ∧ noRecord (block 9) = false ∧
       (let early : Submitted := { b with ctx := 3, slotted := false }
        let late : Submitted := { b with ctx := 5, slotted := false }
        early.before late = true ∧ late.before early = false)) ∧
    (let s : State := { State.reset with launches := [ready], time := 50000 }
     let u := s.claimDevice
     u.launch? 3 = some ready ∧ u.serving.map (·.1) = [ready] ∧ u.mayPlace = true ∧ u.coreFor ready .fresh = some 0 ∧ u.placeWaits .fresh 0 = false ∧
       (u.entryTables ready).isSome = true) ∧
    (let l := { launchOf 9 with refused := 3 }
     let s : State := paged [(0, leaf 9)] { State.reset with launches := [l] }
     s.launch? l.seq = some l ∧ s.launchOver l = true ∧ okRes (s.applyLog l.ctx (sortEntries (s.ordLog.filter (·.launch == l.seq)))) = true ∧
       okRes (s.writeCompletion l) = true) := by
  decide +kernel

theorem witness_LaunchesGoThrough_slots :
    (let b : Submitted := { blockOf (block 9) with slotted := false }
     let c : Submitted := { b with ctx := 5 }
     let s (n : Nat) (bs : List Submitted) : State := { State.reset with launches := List.replicate n (launchOf 9), submitted := bs }
     (s 255 [b]).launches.length < 256 ∧ 256 ≤ (s 256 [b]).launches.length ∧ (s 255 [b, c]).submitted = [] ++ [b, c] ∧ noRecord b.block = false) ∧
    (let w := { ready with sole := true }
     ({ State.reset with launches := [w] } : State).launches.find? (·.sole) = some w) ∧
    (let l := { ready with block := patch ready.block 10 [1] }
     l.captures = true ∧ (blockOf (block 9)).replog = 0 ∧ ready.captures = false) := by
  decide +kernel

theorem witness_ExchangeAndTelemetry :
    (let g : Grant := ⟨List.replicate 6 12, List.replicate 6 4, 4, 4⟩
     T.exch.clocks.zip min g = T.exch.clocks ∧ T.exch.clocks.zip min Grant.idle = T.exch.clocks ∧ T.exch.clocks = Grant.idle ∧
       T.exch.clocks.zip min g ≠ g ∧ g.zip min Grant.idle ≠ g) ∧
    (({ T.exch with trigger := true } : Exchange).pending = none) ∧ (({ T.exch with pending := some (.idle, true) } : Exchange).pending.isSome = true) ∧
    (Grant.idle = T.exch.grant ∧ ⟨List.replicate 6 12, List.replicate 6 4, 4, 4⟩ ≠ T.exch.grant) ∧ T.recovery = false ∧
    (500 ≤ (500 : BitVec 64).toNat % 2048 ∧ (1300 : BitVec 64).toNat % 2048 ≤ 1300 ∧ 1300 < (1301 : BitVec 64).toNat % 2048) ∧
    ((∃ x ∈ [(800 : Int)], 800 ≤ x) ∧ (∀ x ∈ [(760 : Int)], x ≤ 760) ∧ ({ T.exch with thermal := 1249 } : Exchange).thermal < T.exch.pwrcap) ∧
    (let s (time : Nat) : State := { State.reset with time := time, refreshSlot := time / 50, mgmt := { State.reset.mgmt with coord := 9 }, agenda := [.slew 2000] }
     ∀ time ∈ [999, 1000], (s time).issue = [] ∧ ((s time).firstOf (s time).dueEvents).isNone = true ∧ (s time).isCoord = false ∧
       (s time).fw.step ≠ 0 ∧ ((s time).time < (s time).slewed + 1000 ↔ time = 999) ∧ (s time).time < 2000) ∧ 999 < 1000 := by
  decide +kernel

theorem witness_RegionsAndFlips :
    (let s := mapped (rwx .local) (.lpddr 0) T
     (s.ctxAt 0).exist = true ∧ (s.ctxAt 0).swmBusy = none ∧ s.swmCause 0 0 true = 0 ∧ okRes (s.vaRead 0 0 32) = true ∧ s.swmCause 0 0 false = 2) ∧
    (let s : State := { T with swm := [⟨0, 0, [1]⟩] }
     s.swmCause 0 0 false = 0 ∧ s.swmCause 0 0 true = 3) ∧
    (((T.modCtx 0 fun c => { c with swmBusy := some (true, 0, [1]) }).ctxAt 0).swmBusy = some (true, 0, [1])) ∧
    (T.recovery = false ∧ T.flipsQueued < 16 ∧ 16 ≤ ({ T with flips := List.replicate 16 ⟨0, 0, false⟩ } : State).flipsQueued) ∧
    (let f : Flip := ⟨(1#64 <<< 40) ||| (1#64 <<< 58) ||| 7, 0, false⟩
     T.flip = none ∧ T.flipCause f = 0 ∧ T.bias.contains f.frame ≠ f.cmd.getLsbD 40 ∧
       ({ T with bias := [7] } : State).bias.contains f.frame = f.cmd.getLsbD 40 ∧ T.flipCause ⟨1#64 <<< 40, 0, false⟩ = 1) ∧
    (let r : FlipRun := ⟨⟨7, 0, false⟩, 7, false, [63], true⟩
     63 ∈ r.owed ∧ r.owed ≠ [] ∧ ({ r with owed := [] } : FlipRun).owed = [] ∧ ({ r with step2 := false } : FlipRun).step2 = false ∧
       ({ T with heldHost := [.write 0x7FC0 [1]] } : State).heldHost = [.write 0x7FC0 [1]] ∧ 0x7FC0 + 1 ≤ Config.hostVisibleBytes ∧
       T.frozenPa 0x7FC0 = false) := by
  decide +kernel

/-- The machine in a phase of a quiesce. -/
noncomputable def quieting (phase : Nat) (s : State := State.reset) : State := { s with quiesce := ⟨true, phase, [], 0⟩ }

theorem witness_QuiesceAndImages :
    (State.reset.quiesce.running = false ∧ State.reset.recovery = false) ∧
    ((quieting 0).quiesce.phase = 0 ∧ ((quieting 0).parkBehind fun _ => true).accessesOver = true ∧
      (quieting 0).collectivesOver = true ∧ (quieting 1).quiesce.phase = 1 ∧ (quieting 1).collectivesOver = true ∧
      ({ quieting 1 with cmds := [cmd 6 [0x50] .started] } : State).collectivesOver = false ∧ (quieting 2).phase3Over = true ∧ (quieting 3).quiesce.phase = 3) ∧
    (quieting 0 { State.reset with peers := [9] }).peers = [9] ∧ ((quieting 3).ctxs.drop 1).any (·.exist) = false ∧
    (okRes ((paged [(0, leaf 9)] (quieting 3)).vaRead 0 0 128 { shd := true }) = true) ∧ State.reset.quiesce.phase ≠ 3 := by
  decide +kernel

theorem witness_DebugAndCounters :
    (dbgCore 0x7EF = 239 ∧ dbgBrk 0x7EF = true ∧ 239 < Config.cores ∧ 239 < T.cores.length ∧ T.recovery = false) ∧
    (dbgCore 0x300 = 0 ∧ dbgBrk 0x300 = false ∧ (T.coreAt 0).stopped = false) ∧
    (let s := T.modCore 0 fun k => { k with stopped := true }
     (s.coreAt 0).stopped = true) ∧
    (let s := paged [(0, leaf 9)] (({ State.reset with cores := [{ Core.reset with stopped := true }] } : State))
     (s.coreAt 0).stopped = true ∧ s.dumpGroups none 0 = [] ∧
       okRes (s.vaWrite 0 (s.ctxAt 0).dbgva.toNat (leBytes 64 (packFields [(0, 8), (0, 8), (0, 16), (0, 32), (s.time, 64)])) { shd := true }) = true) ∧
    ((T.ctxAt 255).exist = false ∧ (T.ctxAt 255).debug = false) ∧
    (let s := T.modCtx 0 fun c => { c with debug := true }
     (s.ctxAt 0).exist = true ∧ (s.ctxAt 0).debug = true) ∧
    (let s := ({ State.reset with cores := [{ Core.reset with stopped := true }] } : State).modCtx 0 fun c => { c with swmBusy := some (true, 0, []) }
     (s.coreAt 0).stopped = true ∧ s.heldVa 0 0 = true ∧ denied (s.vaWrite 0 0 [0] { shd := true }) = some .held) ∧
    (((T.modCore 0 fun k => { k with stepsLeft := some 0 }).coreAt 0).stepsLeft = some 0) ∧ (1#64).getLsbD 0 = true := by
  decide +kernel

/-- CTXCMD create of context 255 with ASID 9; destroy of it. -/
def create : BitVec 64 := BitVec.ofNat 64 (255 * 4 + 9 * 1024)
/-- CTXCMD destroy of a context. -/
def destroy (k : Nat) : BitVec 64 := BitVec.ofNat 64 (1 + k * 4)

theorem witness_HostConfiguration :
    (T.recovery = false ∧ T.mgmt.ctxBusy = none ∧ create.getLsbD 0 = false ∧ T.createErr create = 0 ∧ (create.extractLsb' 2 8).toNat < T.ctxs.length ∧
      T.createErr 0 = 1 ∧ (destroy 255).getLsbD 0 = true ∧ T.destroyErr (destroy 255) = 4 ∧ T.destroyErr (destroy 0) = 6) ∧
    (match exec (.ctxCreate create) T with | .next t => t.destroyErr (destroy 255) == 0 && t.mgmt.ctxBusy == none | _ => false) = true ∧
    ((∃ l ∈ ({ T with launches := [launchOf 9] } : State).launches, l.ctx = 0) ∧ T.launches = []) ∧
    (T.ctxs ≠ [] ∧ (T.ctxAt 0).exist = true ∧ (2 % 4 ≠ 0 ∨ 2 ≠ 4 ∧ 2 ≠ 8)) ∧
    (State.reset.columns = [] ∧ State.reset.faults = [] ∧ State.reset.saved = [] ∧ (State.reset.ctxAt 0).rings.length = 4 ∧ State.reset.heldRecs = [] ∧
      (State.reset.cores.all fun k => k.traceQ.isEmpty) = true) ∧
    (T.fw.step ≠ 0 ∧ T.fw.image = none ∧ 65528 + 8 ≤ 65536 ∧ State.reset.groups = [] ∧ T.groups ≠ [] ∧ State.reset.mems.wf = true ∧
      ¬6 * Config.weightBytes ≤ State.reset.mgmt.wsaddr.toNat) := by
  decide +kernel

theorem witness_FirmwareAndResets :
    (T.fw.step ≠ 0 ∧ ({ T.fw with image := some [] } : Firmware).image = some []) ∧ T.recovery = false ∧
    (okRes (({ paged [(0, leaf 9)] State.reset with mgmt := { Mgmt.reset with attva := 0 } } : State).vaWrite 0 0 (List.replicate 320 0) { shd := true }) = true) ∧
    ∀ img, ({ State.reset with fw := { Firmware.reset with flash := none } } : State).fw.flash = some img → imageGood img = false := by
  refine ⟨by decide +kernel, by decide +kernel, by decide +kernel, fun img h => ?_⟩
  exact absurd h (by simp)

theorem witness_ArbitrationIsBest : State.reset.deviceGovernor = none ∧ 500 ≤ State.reset.exch.pwrcap ∧ 500 ≤ State.reset.exch.thermal := by
  decide +kernel

/-! ## What the checks of WellFormed refuse -/

/-- A modifier word with one field set. -/
def md (satm : SatMode) (neg abs : Bool) (scale : BitVec 6) (rm : RMode) : Option Modifier := some ⟨satm, neg, abs, scale, rm⟩
/-- The fields with a modifier word. -/
def withMod (f : EFields) (m : Option Modifier) : EFields := { f with mods := m }

theorem smoke_modifier_fields :
    (Instr.and (withMod (e1 1 0 0) (some .zero))).wf = false ∧                            -- no modifier field at all (R103)
    (Instr.add (withMod (e1 1 0 0) (md .none true false 0 .rne))).wf = false ∧            -- NEG
    (Instr.add (withMod (e1 1 0 0) (md .none false true 0 .rne))).wf = false ∧            -- ABS
    (Instr.fmin (withMod (e1 1 0 0) (md .none false false 1 .rne))).wf = false ∧          -- SCALE
    (Instr.rcpsd (withMod (e1 1 0 0) (md .none false false 0 .rup))).wf = false ∧          -- RM
    (Instr.fceq (withMod (e1 1 0 0) (md .sat false false 0 .rne))).wf = false ∧          -- SATM
    (Instr.ffloor (withMod (e1 1 0 0) (md .none false false 0 .rtz))).wf = false ∧
    (Instr.frnd (withMod (e1 1 0 0) (md .none false false 0 .rtz))).wf = true := by decide

theorem smoke_sources :
    (Instr.add ⟨none, 1, 0, .elem, .one 0 0⟩).wf = false ∧                             -- G beside BS = 01 (R153)
    (Instr.rmax ⟨none, 0, 0, .gpr, .win .lo false⟩).wf = false ∧ (Instr.mskr ⟨none, 0, 0, .elem, .win .lo false⟩).wf = false ∧
    (Instr.clr ⟨none, 0, 0, .lit 0, .one 0 0⟩).wf = false ∧ (Instr.rsum ⟨none, 0, 0, .dq, .win .lo false⟩).wf = false ∧
    (Instr.clr ⟨none, 1, 0, .gpr, .one 0 0⟩).wf = false ∧                              -- clr names no register (R179)
    (Instr.cvtF32Nf ⟨none, 8, 0, .lit 0, .one 0 0⟩).wf = false ∧                       -- format 8 (R166)
    (Instr.voteAny ⟨1, 0, .dq, 0⟩).wf = false := by decide

theorem smoke_destinations :
    (Instr.rmax ⟨none, 0, 0, .elem, .one 0 0⟩).wf = false ∧ (Instr.bcast ⟨none, 1, 0, .gpr, .one 0 0⟩).wf = false ∧
    (Instr.movw ⟨none, 1, 0, .gpr, .win .lo true⟩).wf = false ∧ (Instr.iota ⟨none, 1, 0, .gpr, .one 0 1⟩).wf = false := by decide

theorem smoke_memory :
    (Instr.ldB32 ⟨some ⟨.dev, .relaxed, .normal, 0⟩, 1, 0, 7, 0, 0⟩).wf = false ∧      -- SEG 7 beyond the group (R226)
    (Instr.ldB32 ⟨some ⟨.dev, .release, .normal, 0⟩, 1, 0, 2, 0, 0⟩).wf = false ∧      -- a load releases nothing (R104)
    (Instr.stB8 ⟨some ⟨.dev, .release, .normal, 0⟩, 1, 0, 2, 0, 0⟩).wf = false ∧       -- only 4 and 8 bytes are ordered
    (Instr.ldB32 ⟨none, 1, 0, 2, 1, 0⟩).wf = false ∧ (Instr.ldV32 ⟨none, 1, 0, 2, 0, 0⟩).wf = false ∧
    (Instr.ldB64 ⟨none, 1, 0, 2, 0, 31⟩).wf = false ∧ (Instr.ldNfv ⟨none, 1, 0, 2, 0, 8⟩).wf = false ∧
    (Instr.ldV16 ⟨none, 1, 0, 2, 0, 1⟩).wf = false ∧
    (Instr.cwb ⟨some ⟨.dev, .relaxed, .stream, 0⟩, 1, 0, 2, 0, 0⟩).wf = false ∧        -- R235
    (Instr.atomAdd ⟨some ⟨.dev, .relaxed, .keep, 0⟩, 1, 0, 2, 0⟩).wf = false ∧ (Instr.cas ⟨none, 1, 0, 2, 31⟩).wf = false ∧
    (Instr.cas64 ⟨none, 1, 0, 2, 29⟩).wf = false ∧ (Instr.redAdd ⟨some ⟨.dev, .acquire, .normal, 0⟩, 1, 0, 2, 0⟩).wf = false ∧
    (Instr.redfOrd ⟨none, 1, 0, 2, 0⟩).wf = false := by decide

theorem smoke_rest :
    (Instr.sread 0 0 20).wf = false ∧ (Instr.sread 0 31 14).wf = false ∧ (Instr.bra 0 0x1000).wf = false ∧ (Instr.callx 0 31).wf = false ∧
    (Instr.evpost 0 15).wf = false ∧ (Instr.tld 0 63 0).wf = false ∧ (Instr.tldD 63 0 0).wf = false ∧ (Instr.push 0 49).wf = false ∧
    (Instr.tqwait 7).wf = false ∧ (Instr.tread 0 3).wf = false ∧ (Instr.tread 0 19).wf = false ∧ (Instr.tread 63 14).wf = false := by decide

/-! ## Words of the spec's encodings -/

/-- The instruction that the parcels, the opcode's first, decode to, whatever follows it. -/
noncomputable def strandWord (ps : List (BitVec 16)) : Option Instr := match decodeStrand ps with | .ok (i, _) => some i | .error _ => none
/-- The instruction of a teller's word. -/
noncomputable def tellerWord (w : Word) : Option Instr := match decodeTeller w with | .ok i => some i | .error _ => none

/-- "Encodings worked out" of 08_arith. -/
theorem decode_arith :
    strandWord [0x88C7, 0x6061] = some (.ffma ⟨none, 7, 3, .gpr, .one 3 1⟩) ∧
    strandWord [0xD4C0, 0xF600, 0x0000, 0x0010] = some (.rsq ⟨some ⟨.none, false, false, 0, .rtz⟩, 0, 7, .elem, .win .all false⟩) ∧
    strandWord [0x9680, 0xF520] = some (.rmax ⟨none, 0, 7, .elem, .win .hi true⟩) ∧
    strandWord [0x9343, 0x6404] = some (.cvtNfF32 ⟨none, 3, 3, .elem, .one 0 4⟩) ∧
    strandWord [0x363B] = some (.sFfmaG 7 3) := by decide +kernel

/-- "Encodings worked out" of 09_flow. -/
theorem decode_flow :
    strandWord [0x9889, 0x0062] = some (.put 9 0 3 2) ∧ strandWord [0x9AC7, 0xE082] = some (.voteBallot ⟨7, 7, .gpr, 4⟩) ∧
    strandWord [0x9B00, 0x60A2] = some (.sread 3 5 2) ∧ strandWord [0xA580, 0x4002] = some (.callx 2 2) ∧
    strandWord [0xA680, 0x0000] = some (.exit 0 0) ∧ strandWord [0xA6C0, 0x0101] = some (.trap 0 0x0101) := by decide +kernel

/-- "Encodings worked out" of 11_memory_insts. -/
theorem decode_memory :
    strandWord [0xDD02, 0x1C28, 0x0040, 0x0000] = some (.ldB32 ⟨some ⟨.grp, .relaxed, .normal, 64⟩, 2, 0, 7, 0, 5⟩) ∧
    strandWord [0xE104, 0x0460, 0x0000, 0x4000] = some (.atomAdd ⟨some ⟨.dev, .relaxed, .normal, 0⟩, 4, 0, 1, 3⟩) ∧
    strandWord [0xE185, 0x0880, 0x0000, 0x4000] = some (.cas ⟨some ⟨.dev, .relaxed, .normal, 0⟩, 5, 0, 2, 4⟩) ∧
    strandWord [0xA280, 0x1000] = some (.fenceSys 0) ∧ strandWord [0xA880, 0x0600] = some (.bars 0 3 0) ∧
    strandWord [0xA98A, 0x00C1] = some (.swaitGe 10 0 6) ∧ strandWord [0x4A18] = some (.sLdB32 3 0) := by decide +kernel

/-- "Encodings worked out" of 13_teller. -/
theorem decode_teller :
    tellerWord 0xC00C4140 = some (.talAdd 3 4 5) ∧ tellerWord 0xC8145678 = some (.tlui 5 0x5678) ∧ tellerWord 0xCD0C0FFC = some (.tbne 3 0 (-4)) ∧
    tellerWord 0xD3050000 = some (.push 1 16) ∧ tellerWord 0xD500A2C0 = some (.dqput 10 11) ∧ tellerWord 0xE200C001 = some (.tbarSync 12 0) ∧
    tellerWord 0xDA142100 = some (.frz 5 2 4) := by decide +kernel

/-! ## Single steps whose result the spec gives -/

/-- A general register's value. -/
noncomputable def gpr (n : Nat) (v : Word) (s : State) : State := thr (fun t => { t with gregs := t.gregs.set n { GReg.reset with val := v, p := true } }) s
/-- An element. -/
noncomputable def elt (n : Nat) (v : Word) (s : State) : State := str (fun st => { st with e := st.e.set n v }) s
/-- Elements 0 to 31 hold 100 to 131. -/
noncomputable def hundreds : State := str (fun st => { st with e := (List.range 32).map fun i => BitVec.ofNat 32 (100 + i) }) one
/-- What an instruction leaves to land: elements and flags. -/
def landing (i : Instr) (s : State) : List (List (Nat × Word) × Flags) := (strandOf (after i s)).pend.map fun p => (p.writes, p.flags)
/-- The modifier word with SCALE alone, and with SATM alone. -/
def scaled (n : BitVec 6) (f : EFields) : EFields := { f with mods := md .none false false n .rne }
/-- The modifier word with SATM alone. -/
def satd (m : SatMode) (f : EFields) : EFields := { f with mods := md m false false 0 .rne }

/-- R150's example: the product 2^−130, alone and scaled. -/
theorem test_fmul :
    let s := gpr 2 0x30800000 (elt 0 0x0D800000 one)
    landing (.fmul (e1 2 0 0)) s = [([(0, 0)], { uf := true })] ∧ landing (.fmul (scaled 2 (e1 2 0 0))) s = [([(0, 0x02800000)], .none)] := by
  decide +kernel

/-- R159's example: an infinity and a product of zero. -/
theorem test_ffma :
    let s := gpr 2 0x40000000 (elt 2 0x7F800000 (elt 0 0x7F800000 one))
    landing (.ffma (e1 2 0 1)) s = [([(0, 0x7F800000)], .none)] ∧ landing (.ffma (e1 2 0 2)) s = [([(0, 0x7F800000)], .none)] := by
  decide +kernel

/-- The same example: infinity less infinity. -/
theorem test_ffms :
    landing (.ffms (e1 2 0 2)) (gpr 2 0x40000000 (elt 2 0x7F800000 (elt 0 0x7F800000 one))) = [([(0, 0x7FC00000)], .invalid)] := by
  decide +kernel

/-- The same example: 1.0 and 3.0 scaled by −3. -/
theorem test_fsacc :
    (landing (.fsacc (e1 3 0 1)) (gpr 3 0xFFFFFFFD (elt 1 0x40400000 (elt 0 0x3F800000 one)))).map (·.1) = [[(0, 0x3FB00000)]] := by
  decide +kernel

/-- R163's example: a half that ties into infinity, and the same saturated. -/
theorem test_hadd2 :
    let s := gpr 1 0x4C003C00 (elt 0 0x7BFF3C00 one)
    landing (.hadd2 (e1 1 0 0)) s = [([(0, 0x7C004000)], { of := true })] ∧
    landing (.hadd2 (satd .sat (e1 1 0 0))) s = [([(0, 0x7BFF4000)], { of := true })] := by
  decide +kernel

/-- R143's format with the extra value 8.0 in nf3. -/
noncomputable def nf3 : State := grp (fun g => { g with nf := g.nf.set 3 0x02840124, nfOld := g.nf.set 3 0x02840124 }) one

/-- R166's example. -/
theorem test_cvt_nf :
    (landing (.cvtF32Nf ⟨none, 3, 0, .lit 8, .one 0 0⟩) nf3).map (·.1) = [[(0, 0x41000000)]] ∧
    (landing (.cvtNfF32 ⟨none, 3, 0, .lit 0x40E00000, .one 0 0⟩) nf3).map (·.1) = [[(0, 8)]] := by
  decide +kernel

/-- R171's worked seed, and R170's reciprocals. -/
theorem test_special :
    (landing (.rsqsd (lit 0x4007FFFF 0 0)) one).map (·.1) = [[(0, 0x3F308000)]] ∧
    (landing (.rcp (lit 0x3F800000 0 0)) one).map (·.1) = [[(0, 0x3F800000)]] ∧
    (landing (.rcp (lit 0x3F810000 0 0)) one).map (·.1) = [[(0, 0x3F7E07E0)]] := by
  decide +kernel

/-- R180's table: one element, a rotation, a copy to a half, a ramp. -/
theorem test_moves :
    let s := gpr 2 3 hundreds
    (landing (.movw ⟨none, 2, 0, .gpr, .one 5 0⟩) s).map (·.1) = [[(5, 103)]] ∧
    (landing (.movw ⟨none, 0, 0, .lit 1, .win .all false⟩) s).map (fun p => (p.1.lookup 31, p.1.lookup 4)) = [(some 100, some 105)] ∧
    (landing (.iota ⟨none, 0, 0, .lit 0xFFFFFFFE, .win .lo false⟩) s).map (fun p => (p.1.lookup 0, p.1.lookup 15)) = [(some 0xFFFFFFFE, some 13)] := by
  decide +kernel

/-- R184's example at TIME 1,000,030. -/
theorem test_wsref : wsref 1000030 % 2 ^ 32 = 0x03D09CA0 := by decide

/-- R209's worked target. -/
theorem test_home_slice : homeSlice 0xFE40000020 = 72 := by decide

/-- R260's pair of instructions: each, from what the one before it leaves. -/
theorem test_tlui :
    ((after (.tlui 5 0x48D) tel).group? gid).map (fun g => g.teller.reg 5) = some 0x48D ∧
    ((after (.tlui 5 0x5678) (reg 5 0x48D tel)).group? gid).map (fun g => g.teller.reg 5) = some 0x12345678 := by
  decide +kernel

/-- R256's pair: SEG2 + 0x40, and 8 more. -/
theorem test_teller_address :
    teleAddr [0, 0, 0x10000, 0, 0, 0, 0] 0x4000000000000040 0 = .glob 0x10040 ∧
    teleAddr [0, 0, 0x10000, 0, 0, 0, 0] 0x4000000000000040 8 = .glob 0x10048 := by
  decide

/-- R263: a teller's store leaves its word in the slice's line, whose change is owed its acknowledgement. -/
theorem test_teller_slice :
    (let t := after (.tst 5 10 3) (reg 5 0xDEADBEEF TS)
     (t.l2Key? ⟨2, some 0⟩).map (fun h => (h.dirty, ((lineBytes h.data).drop 0x30).take 4)) = some (true, [0xEF, 0xBE, 0xAD, 0xDE]) ∧
       t.unacked gid = true ∧ T.unacked gid = false) := by
  decide +kernel

/-- R393's three threads under OR, MAX.s, MIN.s and SUM. -/
theorem test_exit_status : ([0, 2, 1, 3].map fun r => ([0xFFFFFFFD, 5, 0].foldl (reduceStatus r) (statusIdentity r)))
    = [0xFFFFFFFD, 0xFFFFFFFD, 5, 2] := by
  decide

/-- R299's worked stream word: A, B, C, A. -/
theorem test_prefix_codes : (canonical ([0, 1, 2, 3, 3] ++ List.replicate 251 0)).map (fun c => (c.sym, c.len, c.val))
    = [(1, 1, 0), (2, 2, 2), (3, 3, 6), (4, 3, 7)] := by
  decide +kernel

/-! ## Witnesses: the machine's step -/

/-- A line of code of context 0 on core 0. -/
noncomputable def codeAt (n : Nat) (bs : List Byte) : CodeLine := { probeLine (one.ctxAt 0).asid 16 0 with key := ⟨n, some (one.ctxAt 0).asid⟩, data := BitVec.ofNat 1024 (leNat bs) }
/-- The probe's code, and a bundle to issue at an address. -/
noncomputable def fetching (ls : List CodeLine) (pc : Addr) : State := { one with code := ls, issue := [.bundle 0 0 pc [(gid, 0)]], cur := none }
/-- The probe's code, and its teller to issue. -/
noncomputable def fetchingT (ls : List CodeLine) : State := { one with code := ls, issue := [.teller gid], cur := none }

theorem reads_of {ps : List (BitVec 16)} {i : Instr} (h : strandWord ps = some i) (hw : i.wf = true) : reads ps i := by
  unfold strandWord at h
  split at h
  · cases h; exact ⟨⟨_, ‹_›⟩, hw⟩
  · cases h

theorem witness_StepRunsInstruction :
    (let s := fetching [codeAt 0 [0x18, 0x4A]] 0
     s.codeLine? 0 (s.bundleAsid [(gid, 0)]) 0 = some (codeAt 0 [0x18, 0x4A]) ∧ reads (parcelsFrom (codeAt 0 [0x18, 0x4A]) 0) (.sLdB32 3 0)) ∧
    (let l := codeAt 0 (List.replicate 126 0 ++ [0x80, 0xA5])
     let m := codeAt 1 [0x02, 0x40]
     let s := fetching [l, m] 126
     s.codeLine? 0 (s.bundleAsid [(gid, 0)]) 0 = some l ∧ s.codeLine? 0 (s.bundleAsid [(gid, 0)]) 1 = some m ∧
       (match decodeStrand (parcelsFrom l 126) with | .error e => decide (e = .truncated) | .ok _ => false) = true ∧
       reads (parcelsFrom l 126 ++ parcelsOf (lineBytes m.data)) (.callx 2 2)) ∧
    (let l := codeAt 0 [0x80, 0xA5, 0x1F, 0x40]
     let s := fetching [l] 0
     s.codeLine? 0 (s.bundleAsid [(gid, 0)]) 0 = some l ∧ strandWord (parcelsFrom l 0) = some (.callx 2 31) ∧ (Instr.callx 2 31).wf = false) ∧
    (let l := codeAt 0 [0x00, 0x70]
     (match decodeStrand (parcelsFrom l 0) with | .error e => decide (e ≠ .truncated) | .ok _ => false) = true ∧
       ((fetching [l] 0).column? gid.column).map (·.stop) = some none) ∧
    (let l := codeAt 0 (leBytes 4 0xC1145FFF)
     let s := fetchingT [l]
     (s.group? gid).isSome = true ∧ s.codeLine? 0 (s.ctxAt 0).asid 0 = some l ∧ tellerWord (wordFrom l 0) = some (.taddi 5 5 (-1))) ∧
    (let l := codeAt 0 (leBytes 4 0xC1145FFF)
     let m := codeAt 0 (leBytes 4 0xFFFFFFFF)
     l ≠ m ∧ (fetchingT [m]).codeLine? 0 ((fetchingT [m]).ctxAt 0).asid 0 = some m ∧ tellerWord (wordFrom m 0) = none) ∧
    ({ State.reset with agenda := [.event .quiesceStart] } : State).issue = [] ∧
    ({ State.reset with agenda := [.event .quiesceStart] } : State).firstOf ({ State.reset with agenda := [.event .quiesceStart] } : State).dueEvents = none := by
  refine ⟨⟨?_, reads_of ?_ ?_⟩, ⟨?_, ?_, ?_, reads_of ?_ ?_⟩, ?_, ?_, ?_⟩ <;> decide +kernel

/-! ## Witnesses: further clauses -/

/-- A launch with CAPTURE whose one kernel is on hand. -/
def capturing : Launch := { ready with block := patch ready.block 10 [1] }
/-- Context 0 with 1,000 bytes of capture buffer, over mapped tables. -/
def buffered : State := (paged [(0, leaf 9)] { State.reset with launches := [capturing] }).modCtx 0 fun c => { c with capsize := 1000 }

theorem witness_LaunchesGoThrough_captures :
    (buffered.launch? 3 = some capturing ∧ capturing.captures = true ∧ capturing.capDone = false ∧ capturing.eligible = true ∧
      buffered.heldBack capturing = false) ∧
    (({ State.reset with launches := [capturing] } : State).ctxAt 0).capsize.toNat < 320 ∧
    320 ≤ (buffered.ctxAt 0).capsize.toNat ∧ (match buffered.capList 0 64 0 with | .ok r => r.1 == [] | .error _ => false) = true ∧
    okRes (buffered.readRanges 0 []) = true ∧
    okRes (buffered.vaWrite 0 (buffered.ctxAt 0).capbase.toNat (leBytes 64 (packFields [(9, 32), (0, 32), (0, 64)]) ++ capturing.block)
      { shd := true }) = true := by
  decide +kernel

theorem witness_LaunchesGoThrough_loads :
    let s : State := paged [(0, leaf 9)] { State.reset with submitted := [blockOf (block 9)] }
    let l := s.newLaunch (blockOf (block 9))
    l.badBlock = false ∧ l.crecVa % 64 = 0 ∧ (match ({ s with submitted := [] } : State).vaRead l.ctx l.codeVa 64 { shd := true } with
      | .ok (h, u) => (match u.loadKernels l.ctx l.codeVa h ((List.range l.stages).map l.kidx) [] with | .ok _ _ _ => true | _ => false)
      | .error _ => false) = true := by
  decide +kernel

/-- A launch of priority 2, with a window of the whole scratchpad, that has waited since TIME 0. -/
def urgent : Launch :=
  { ready with block := patch ready.block 10 [0x80], blockedAt := some (0, 0),
               kernels := [(0, leBytes 128 (packFields [(1, 16), (64, 7), (0, 17), (Config.scratchBytes, 20), (0, 516), (64, 32)]))] }
/-- Every core's scratchpad taken by a column of a launch of priority 0. -/
def full : State := slotted { State.reset with
  columns := (List.range 240).map fun k => { probeColumn 0 with id := ⟨0, k⟩, core := k, wsize := Config.scratchBytes }, launches := [urgent], time := 50000 }

theorem witness_LaunchesGoThrough_preempts :
    full.serving.map (·.1) = [urgent] ∧ full.launch? urgent.seq = some urgent ∧ full.quiesce.running = false ∧ full.coreFor urgent .fresh = none ∧
    (full.preemption? urgent .fresh).map (·.1) = some 0 ∧ (full.coreAt 0).standsStill = false ∧
    urgent.blockedAt = some (Candidate.fresh.col urgent, 0) ∧ 0 + 50000 ≤ full.time := by
  decide +kernel

/-- A page in host memory, sampled as often as it takes to move it, and a list of one free local frame. -/
noncomputable def hotPage : State :=
  let s := paged [(0, leaf 9), (1, leaf 16 + 0x100)] ({ State.reset with migCount := [((0, 1), Config.migrationThreshold)] } : State)
  { s.modCtx 0 fun c => { c with mig := true } with mems := s.mems.write (.lpddr 0x9000) (leBytes 16 (1 + 2 ^ 64 * 7)) }

theorem witness_TranslationUpkeep_promotes :
    (hotPage.leafAt 0 0x1000).map (fun l => (hotPage.movable 0 l, l.perm.typ, l.base, l.bits)) = some (true, .host, 0x1000, 12) ∧
    hotPage.migration = none ∧ Config.migrationThreshold ≤ hotPage.samplesOf 0 1 ∧
    (match hotPage.popFrame hotPage.mgmt.miglocal.toNat with | .ok (some r) => some r.1 | _ => none) = some 7 := by
  refine ⟨by decide +kernel, rfl, Nat.le_refl _, by decide +kernel⟩

/-! ## Host software: images, Clound, assembly -/

/-- R53's example: four images on a device whose DECOMP is fused off. -/
theorem test_image_selected :
    (match selectImage 0xFF 0x08 [⟨0, 0, 0x0A, 1, 4⟩, ⟨0, 0, 0x02, 1, 4⟩, ⟨0, 0, 0x07, 0, 4⟩, ⟨0, 0, 0, 1, 4⟩] with
      | .ok (.image 1) => true | _ => false) = true := by decide +kernel

/-- The hash of the empty string is FNV-1a's offset basis, of one byte its product with the prime (FNV's definition; log 111). -/
theorem test_fnv : fnv1a [] = 0xCBF29CE484222325 ∧ fnv1a [0x61] = 0xAF63DC4C8601EC8C := by decide +kernel

/-- A section of a Clound module. -/
def csec (id : Nat) (bs : List Byte) : List Byte := [BitVec.ofNat 8 id, BitVec.ofNat 8 bs.length] ++ bs
/-- The head of a Clound module. -/
def chead : List Byte := [0, 0x43, 0x4C, 0x44, 1, 0, 0, 0]
/-- f(x) = 3x + 1 (19_prog_linkage R363) as a Clound module: local.get 0, i32.const 3, i32.mul, i32.const 1, i32.add, return. -/
def f3 : List Byte := chead ++ csec 1 [1, 0x60, 1, 0x7F, 1, 0x7F] ++ csec 3 ([1, 0, 0, 9] ++ [0x10, 0, 0x18, 3, 0x22, 0x18, 1, 0x20, 6]) ++ csec 6 [1, 4, 0x66, 0x33, 0x78, 0x31, 0]
/-- Steps of one invocation. -/
def cloundRun (m : Clound.Module) : Nat → Clound.Inv → Clound.InvOut
  | 0, v => .next v
  | k + 1, v => match Clound.Inv.step ⟨m, 0, 32, 0, [], false⟩ v with | .next v => cloundRun m k v | o => o

/-- The module is accepted, and f(-2) = -5 stands on the caller's stack (R366). -/
theorem test_clound_f3x1 :
    (match Clound.accept f3 with
      | .ok m => (match m.enter 0 [.i32 (-2)] with
        | some a => (match cloundRun m 6 ⟨[a, ⟨9, 0, [], [], []⟩], {}⟩ with | .next v => v.acts == [⟨9, 0, [], [.i32 (-5)], []⟩] | _ => false)
        | none => false)
      | .error _ => false) = true := by decide +kernel

/-- A kernel of a Clound module with a body. -/
def ckernel (body : List Byte) : List Byte :=
  chead ++ csec 1 [1, 0x60, 0, 0] ++ csec 3 ([1, 0, 0, BitVec.ofNat 8 body.length] ++ body) ++ csec 4 [1, 0, 32, 64, 0, 0]
/-- A freeze of TID pages is not uniform (R65); a freeze whose operands are uniform is accepted. -/
theorem test_clound_uniform :
    (Clound.accept (ckernel [0x13, 0x14, 2, 0x41, 0xA3, 0x0D, 6])).isOk = false ∧
    (Clound.accept (ckernel [0x13, 0x13, 0x71, 0, 8, 0xA3, 0x0D, 6])).isOk = true := by decide +kernel

/-- The bytes of a text assembled at 0. -/
noncomputable def assembled (kind : Asm.Kind) (text : String) : Option (List Nat) :=
  match Asm.linesOf text with
  | .error _ => none
  | .ok ls => (Asm.assemble kind 0 [] [] ls).toOption.map fun c => c.bytes.map (·.toNat)

/-- The kernel scale2 (05_encoding, "Encoding the scale2 kernel"). -/
theorem test_assemble_scale2 :
    assembled .strand "        ld.b32   e0, [s0+g0]   ; e0 := word at SEG0 + g0\n fmul e0, #2.0\n st.b32 e0, [s1+g0]\n end" =
      some [0x00, 0x4A, 0x80, 0x88, 0x00, 0x68, 0x00, 0x00, 0x00, 0x40, 0x80, 0x9F, 0x00, 0x04, 0x00, 0x5E] := by decide +kernel

/-- `rmax` gets W = 7 and `nop !3` before what touches the accumulator (R119; 08_arith "Encodings worked out"). -/
theorem test_assemble_stall :
    assembled .strand "rmax hi, lo<hi\n add e0, #1" = some [0x80, 0x96, 0x20, 0xF5, 0x03, 0x60, 0x0B, 0x20] := by decide +kernel

/-- The example of 06_issue R130: offsets of `benz` and `bra`, W = 2. -/
theorem test_assemble_branch :
    assembled .strand "benz e0, els\n add e0, #1\n bra join\n els: blk\n shl e0, #2\n join: blk" =
      some [0x1A, 0x5A, 0x0B, 0x20, 0x1A, 0x56, 0x00, 0x5C, 0x13, 0x24, 0x00, 0x5C] := by decide +kernel

/-- `taddi s5, s5, #-1` is 0xC1145FFF (05_encoding). -/
theorem test_assemble_teller : assembled .teller "taddi s5, s5, #-1" = some [0xFF, 0x5F, 0x14, 0xC1] := by decide +kernel

/-- R118: a kind out of order or repeated, R153: X and B that differ, R117: an FP32 literal where B is an integer. -/
theorem test_assemble_refuses :
    (["fadd.neg.abs e0, g1", "fadd.rtz.rdn e0, g1", "mad e0, e1, e2", "add e0, #1.5"].all fun t => assembled .strand t == none) = true := by
  decide +kernel

/-- A kernel without code that strands share: SMASK 0x12 checked by `.accs`, the teller entered at `s`; Jialmush accepts the object (R47 to R49). -/
theorem test_object :
    (match Asm.sourceOf ".kernel b\n.gprs 3\n.accs 0x12\n.strand 4\n end\n.strand 1\n end\n.teller\n tnop\ns: gdone\n.entry s\n.close" with
      | .ok s => (match Asm.objectOf s with
        | .ok (o, _) => objectError? o == none && objectFormed o && kernelInCode o 0 && numAt (kernelHeader o 0) 0 3 == 0x030012 &&
            numAt (kernelHeader o 0) 12 4 == 4
        | .error _ => false)
      | .error _ => false) = true := by decide +kernel

/-- R58, R363: trampoline 8 of the object whose table lies at 0x200: `mov e14, #0x200`, `mov e15, #8`, then a far `bra` to the resolver. -/
theorem test_trampoline :
    (match decodeStrand (parcelsOf (trampoline 0x200 8 0x7F0000010400 0x7F0000020000)) with
      | .ok (i, rest) => i == .mov { lit 0x200 14 0 with w := 3 } && (match decodeStrand rest with
        | .ok (j, rest) => j == .mov { lit 8 15 0 with w := 3 } && (match decodeStrand rest with
          | .ok (.braLong _ o, []) => decide (0x7F0000010400 + 16 + 2 * o.toInt = 0x7F0000020000)
          | _ => false)
        | _ => false)
      | _ => false) = true := by
  decide +kernel

end Sys2Proof.Tests
end

section
/-! PROOFS. What an issue changes of the threads of its bundle: their strands, and the coin that each spends (R24, R114). -/

namespace Sys2Proof.Machine
open Sys2Proof.Claims

/-! ## Folds and joins of lists that agree on the elements (core Lean has them for equal functions alone) -/

theorem foldl_eq_of_mem {α β : Type} {f g : β → α → β} {l : List α} (h : ∀ b, ∀ a ∈ l, f b a = g b a) (b : β) : l.foldl f b = l.foldl g b := by
  induction l generalizing b with
  | nil => rfl
  | cons a l ih =>
    rw [List.foldl_cons, List.foldl_cons, h b a List.mem_cons_self]
    exact ih (fun b x hx => h b x (List.mem_cons_of_mem a hx)) _

theorem flatMap_eq_of_mem {α β : Type} {f g : α → List β} {l : List α} (h : ∀ a ∈ l, f a = g a) : l.flatMap f = l.flatMap g := by
  rw [List.flatMap_def, List.flatMap_def, List.map_congr_left h]

/-! ## General registers -/

/-- A write of a register is read back, and no other register changes, whether the thread listed it or not (R22). -/
theorem Thread.greg_setGreg (t : Thread) (g m : Nat) (r : GReg) : (t.setGreg g r).greg m = if m = g then r else t.greg m := by
  simp only [Thread.setGreg, Thread.greg, List.getD_eq_getElem?_getD, List.getElem?_set]
  by_cases hm : m = g
  · subst hm
    have hlen : m < t.gregs.length + (m + 1 - t.gregs.length) := by omega
    simp [hlen]
  · simp only [Ne.symm hm, hm, if_false]
    by_cases hlt : m < t.gregs.length
    · rw [List.getElem?_append_left hlt]
    · rw [List.getElem?_append_right (by omega), List.getElem?_eq_none (l := t.gregs) (by omega), List.getElem?_replicate]
      split <;> rfl

@[simp] theorem Thread.setGreg_tid (t : Thread) (g : Nat) (r : GReg) : (t.setGreg g r).tid = t.tid := rfl
@[simp] theorem Thread.setGreg_status (t : Thread) (g : Nat) (r : GReg) : (t.setGreg g r).status = t.status := rfl
@[simp] theorem Thread.setGreg_exited (t : Thread) (g : Nat) (r : GReg) : (t.setGreg g r).exited = t.exited := rfl
@[simp] theorem Thread.setGreg_retired (t : Thread) (g : Nat) (r : GReg) : (t.setGreg g r).retired = t.retired := rfl
@[simp] theorem Thread.setGreg_strand? (t : Thread) (g n : Nat) (r : GReg) : (t.setGreg g r).strand? n = t.strand? n := rfl

theorem Thread.greg_congr {x y : Thread} (h : y.gregs = x.gregs) (m : Nat) : y.greg m = x.greg m := by simp [Thread.greg, h]

/-- A read spends one coin of the register, the last one makes it absent, a sticky one spends none (R24). -/
theorem Thread.greg_spend (t : Thread) (g m : Nat) :
    (t.spend g).greg m =
      if m = g then
        (if (t.greg g).c = 0 then t.greg g
          else if (t.greg g).c = 1 then { t.greg g with p := false, c := 0 }
          else { t.greg g with c := (t.greg g).c - 1 })
      else t.greg m := by
  unfold Thread.spend
  dsimp only
  by_cases h0 : (t.greg g).c = 0
  · rw [if_pos h0, if_pos h0]
    split
    · rename_i hm
      rw [hm]
    · rfl
  · rw [if_neg h0, if_neg h0, Thread.greg_setGreg]

/-! ## Threads of which at most one strand has changed -/

theorem sameBut_refl (n : Nat) (x : Thread) : sameBut n x x := ⟨rfl, rfl, rfl, rfl, fun _ _ => rfl⟩

theorem sameBut_trans {n : Nat} {x y z : Thread} (h : sameBut n x y) (k : sameBut n y z) : sameBut n x z := by
  obtain ⟨h1, h2, h3, h4, h5⟩ := h
  obtain ⟨k1, k2, k3, k4, k5⟩ := k
  exact ⟨k1.trans h1, k2.trans h2, k3.trans h3, k4.trans h4, fun m hm => (k5 m hm).trans (h5 m hm)⟩

theorem sameBut_modStrand (t : Thread) (n : Nat) (f : Strand → Strand) (hf : ∀ st, (f st).n = st.n) : sameBut n t (t.modStrand n f) :=
  ⟨rfl, rfl, rfl, rfl, fun m hm => by rw [Thread.strand?_modStrand _ _ _ _ hf, if_neg hm]⟩

theorem sameBut_setGreg (t : Thread) (n g : Nat) (r : GReg) : sameBut n t (t.setGreg g r) := ⟨rfl, rfl, rfl, rfl, fun _ _ => rfl⟩

theorem sameBut_spent (fm : Form) (n : Nat) (t : Thread) : sameBut n t (spent fm t) := by
  unfold spent
  split
  · unfold Thread.spend
    dsimp only
    split
    · exact sameBut_refl n t
    · exact sameBut_setGreg ..
  · exact sameBut_refl n t

theorem Lane.issuedThread_eq (l : Lane) (c : Nat) (fm : Form) (t : Thread) :
    l.issuedThread c fm t = (spent fm t).modStrand l.st.n fun st =>
      { st.issued c fm.stall (st.pc + BitVec.ofNat 64 (2 * fm.size)) with
        know := l.know fm.use, after := l.after fm.use, fenced := l.fenced fm.use, cursor := if fm.use.dq then st.cursor + 1 else st.cursor } := rfl

theorem Lane.sameBut_issuedThread (l : Lane) (c : Nat) (fm : Form) : sameBut l.st.n l.t (l.issuedThread c fm l.t) := by
  rw [Lane.issuedThread_eq]
  exact sameBut_trans (sameBut_spent fm _ l.t) (sameBut_modStrand _ _ _ fun _ => rfl)

@[simp] theorem Lane.issuedThread_gregs (l : Lane) (c : Nat) (fm : Form) (t : Thread) : (l.issuedThread c fm t).gregs = (spent fm t).gregs := rfl

/-! ## What an issue may change -/

/-- What `State.Issued` says, in the terms of the statements. -/
theorem State.Issued.onlyWork {s t : State} {d : Bool} (h : s.Issued t d) : onlyWork s t d := by
  obtain ⟨⟨G, C, rfl⟩, hg, hc⟩ := h
  refine ⟨rfl, fun g x hx => ?_, fun k => ?_⟩
  · obtain ⟨T, D, M, h1, h2⟩ := hg g x hx
    exact ⟨_, h1, rfl, h2⟩
  · obtain ⟨e, a, q, h1⟩ := hc k
    rw [h1]

/-- One state is another in which, of the threads that `P` names, strand `n` has changed, and beside them only what every issue may
change. -/
def State.StrandsOnly (u v : State) (P : GroupId → Nat → Prop) (n : Nat) (d : Bool) : Prop :=
  u.Issued v d ∧ (∀ g tid, ¬ P g tid → v.thread? g tid = u.thread? g tid) ∧
  ∀ g tid x, u.thread? g tid = some x → ∃ y, v.thread? g tid = some y ∧ sameBut n x y ∧ y.gregs = x.gregs

section
variable {P : GroupId → Nat → Prop} {n : Nat} {d : Bool}

theorem State.StrandsOnly.refl (u : State) : u.StrandsOnly u P n d :=
  ⟨.rfl' u d, fun _ _ _ => rfl, fun _ _ x hx => ⟨x, hx, sameBut_refl n x, rfl⟩⟩

theorem State.StrandsOnly.trans {u v w : State} (h : u.StrandsOnly v P n d) (k : v.StrandsOnly w P n d) : u.StrandsOnly w P n d := by
  obtain ⟨hi, ho, ht⟩ := h
  obtain ⟨ki, ko, kt⟩ := k
  refine ⟨hi.trans ki, fun g tid hp => (ko g tid hp).trans (ho g tid hp), fun g tid x hx => ?_⟩
  obtain ⟨y, hy, hxy, hg⟩ := ht g tid x hx
  obtain ⟨z, hz, hyz, hg'⟩ := kt g tid y hy
  exact ⟨z, hz, sameBut_trans hxy hyz, hg'.trans hg⟩

theorem State.StrandsOnly.foldl {α : Type} {f : State → α → State} {l : List α}
    (h : ∀ u, ∀ a ∈ l, State.StrandsOnly u (f u a) P n d) (u : State) : u.StrandsOnly (l.foldl f u) P n d := by
  induction l generalizing u with
  | nil => exact .refl u
  | cons a l ih => exact (h u a (.head _)).trans (ih (fun u b hb => h u b (.tail _ hb)) _)

/-- A change that leaves the threads alone. -/
theorem State.StrandsOnly.of_issued {u v : State} (h : u.Issued v d) (ht : ∀ g tid, v.thread? g tid = u.thread? g tid) :
    u.StrandsOnly v P n d :=
  ⟨h, fun g tid _ => ht g tid, fun g tid x hx => ⟨x, (ht g tid).trans hx, sameBut_refl n x, rfl⟩⟩

theorem State.StrandsOnly.modStrand (u : State) {g : GroupId} {tid : Nat} (hp : P g tid) {f : Strand → Strand} (hf : ∀ st, (f st).n = st.n) :
    u.StrandsOnly (u.modStrand g tid n f) P n d := by
  have ht : ∀ g' tid', (u.modStrand g tid n f).thread? g' tid' =
      if g' = g ∧ tid' = tid then (u.thread? g' tid').map (·.modStrand n f) else u.thread? g' tid' :=
    fun g' tid' => State.thread?_modThread u g' g tid' tid (·.modStrand n f)
  refine ⟨.modThread u g tid d _, fun g' tid' hn => ?_, fun g' tid' x hx => ?_⟩
  · rw [ht, if_neg]
    rintro ⟨rfl, rfl⟩
    exact hn hp
  · rw [ht]
    split
    · exact ⟨_, by rw [hx]; rfl, sameBut_modStrand x n f hf, rfl⟩
    · exact ⟨x, hx, sameBut_refl n x, rfl⟩

end

/-- The threads of the bundle that issues. -/
def State.inBundle (s : State) (fm : Form) (g : GroupId) (tid : Nat) : Prop := ∃ l ∈ s.ready fm, (l.gid, l.tid) = (g, tid)

/-- A bundle that issues without a trap, by an instruction whose act changes the bundle's strands alone: the frame of R24. -/
theorem State.issueWith_onlyStrands {s : State} {fm : Form} {cause : Lane → Option Cause} {act : Nat → List Lane → State → State}
    (h : s.issues fm = true) (hc : ∀ l ∈ s.ready fm, cause l = none)
    (hact : ∀ u : State, u.StrandsOnly (act (Claims.now s) (s.ready fm) u) (s.inBundle fm) s.curStrand fm.use.dq) :
    onlyStrands s (s.issueWith fm cause act) fm := by
  obtain ⟨u, hu, hi, ht, ho⟩ := State.issueWith_ok cause act h hc
  obtain ⟨ai, ao, at_⟩ := hact u
  rw [hu]
  refine ⟨(hi.trans ai).onlyWork, fun g tid hn => ?_, fun l hl => ?_⟩
  · refine (ao g tid ?_).trans (ho g tid hn)
    rintro ⟨l, hl, he⟩
    exact hn l hl he
  · obtain ⟨y, hy, hs, hg⟩ := at_ _ _ _ (ht l hl)
    obtain ⟨-, -, -, hn, -⟩ := State.ready_spec hl
    refine ⟨y, hy, ?_, hg⟩
    rw [← hn] at hs
    exact sameBut_trans (l.sameBut_issuedThread _ fm) hs
end Sys2Proof.Machine
end

section
/-! PROOFS. The frame of the register-only instructions: O22. -/

namespace Sys2Proof.Machine
open Sys2Proof.Claims

/-! ## Acts that change the bundle's strands alone -/

section
variable {s : State} {fm : Form} {d : Bool}

/-- A fold over the bundle of a change to each thread's strand. -/
theorem State.StrandsOnly.foldl_ready {f : State → Lane → State}
    (h : ∀ u, ∀ l ∈ s.ready fm, s.inBundle fm l.gid l.tid → State.StrandsOnly u (f u l) (s.inBundle fm) l.st.n d) (u : State) :
    u.StrandsOnly ((s.ready fm).foldl f u) (s.inBundle fm) s.curStrand d := by
  refine .foldl (fun u l hl => ?_) u
  obtain ⟨-, -, -, hn, -⟩ := State.ready_spec hl
  rw [← hn]
  exact h u l hl ⟨l, hl, rfl⟩

theorem State.StrandsOnly.pushPend {P : GroupId → Nat → Prop} (u : State) (l : Lane) (hp : P l.gid l.tid) (p : Pend) :
    u.StrandsOnly (u.pushPend l p) P l.st.n d := by
  refine .modStrand u hp ?_
  exact fun _ => rfl

theorem State.StrandsOnly.acquire {P : GroupId → Nat → Prop} (u : State) {g : GroupId} {tid : Nat} (hp : P g tid) (n : Nat) :
    u.StrandsOnly (u.acquire g tid n) P n d := by
  refine .modStrand u hp ?_
  exact fun _ => rfl

theorem State.StrandsOnly.trace {P : GroupId → Nat → Prop} {n : Nat} (u : State) (g : Group) (ev id crew : Nat) (teller : Bool) (mask : Nat)
    (pc : Addr) : u.StrandsOnly (u.trace g ev id crew teller mask pc) P n d :=
  .of_issued (.trace ..) fun g' tid => State.thread?_trace u g ev id crew teller mask pc g' tid

theorem State.StrandsOnly.traceBranch {P : GroupId → Nat → Prop} {n : Nat} (u : State) (lanes : List Lane) (target : Lane → Option Addr) :
    u.StrandsOnly (u.traceBranch lanes target) P n d := by
  unfold State.traceBranch
  refine .foldl (fun u l _ => ?_) u
  dsimp only
  split
  · exact .refl u
  · exact .trace ..

end

/-! ## What exec does for the families of the register-only instructions -/

/-- The instructions that put one result in flight for each thread (R115). -/
def putsResult (i : Instr) : Bool :=
  (intRow i).isSome || (floatRow i).isSome || (convertRow i).isSome || (specialRow i).isSome || (moveRow i).isSome || (fetchRow i).isSome ||
    (crewRow i).isSome || (voteRow i).isSome || isRow i

theorem exec_putsResult {i : Instr} {fm : Form} (h : putsResult i = true) (hf : i.form = some fm) (s : State) :
    ∃ P : Nat → Lane → Pend, exec i s = .next (s.issueWith fm noCause fun c lanes u => lanes.foldl (fun u l => u.pushPend l (P c l)) u) := by
  cases i
  all_goals cases hf
  all_goals cases h
  all_goals exact ⟨_, rfl⟩

theorem exec_branchRow {i : Instr} {fm : Form} {r : Int × (Lane → Bool)} (h : branchRow i = some r) (hf : i.form = some fm) (s : State) :
    exec i s = branchIf fm r.1 r.2 s := by
  cases i
  all_goals cases hf
  all_goals cases h
  all_goals rfl

theorem exec_isPass {i : Instr} {fm : Form} (h : isPass i = true) (hf : i.form = some fm) (s : State) : exec i s = passes fm s := by
  cases i
  all_goals cases hf
  all_goals cases h
  all_goals rfl

theorem exec_fenceRow {i : Instr} {fm : Form} {k : Nat} (h : fenceRow i = some k) (hf : i.form = some fm) (s : State) :
    exec i s = fence fm k s := by
  cases i
  all_goals cases hf
  all_goals cases h
  all_goals rfl

theorem exec_flagRow {i : Instr} {fm : Form} {r : Nat × Bool} (h : flagRow i = some r) (hf : i.form = some fm) (s : State) :
    exec i s = .next (s.issueWith fm noCause fun c lanes s =>
      lanes.foldl (fun s l =>
        let fl := l.st.readFlags c
        let s := s.pushPend l { due := c + 4, writes := [(r.1, fl.word)], flags := {}, var := false, pc := l.st.pc }
        if r.2 then s.modStrand l.gid l.tid l.st.n fun st => { st with flags := st.flags.minus fl } else s) s) := by
  cases i
  all_goals cases hf
  all_goals cases h
  all_goals rfl

theorem exec_hintRow {i : Instr} {fm : Form} {r : Nat × Bool} (h : hintRow i = some r) (hf : i.form = some fm) (s : State) :
    exec i s = .next (s.issueWith fm noCause fun c lanes s =>
      lanes.foldl (fun s l => s.modStrand l.gid l.tid l.st.n fun st =>
        { st with hint := some { urgent := r.2, until_ := c + 4 * (r.1 + 1) } }) s) := by
  cases i
  all_goals cases hf
  all_goals cases h
  all_goals rfl

/-! ## The frame of the register-only instructions -/

section
variable {i : Instr} {fm : Form} {s : State} (hf : i.form = some fm) (h : s.issues fm = true)
include hf h

theorem putsResult_onlyStrands (hi : putsResult i = true) : ∃ t, exec i s = .next t ∧ onlyStrands s t fm := by
  obtain ⟨P, he⟩ := exec_putsResult hi hf s
  refine ⟨_, he, State.issueWith_onlyStrands h (fun _ _ => rfl) fun u => .foldl_ready (fun u l _ hp => ?_) u⟩
  exact .pushPend u l hp _

theorem branchRow_onlyStrands {r : Int × (Lane → Bool)} (hi : branchRow i = some r) : ∃ t, exec i s = .next t ∧ onlyStrands s t fm := by
  refine ⟨_, exec_branchRow hi hf s, State.issueWith_onlyStrands h (fun _ _ => rfl) fun u => .trans (.foldl_ready (fun u l _ hp => ?_) u) (.traceBranch ..)⟩
  refine .modStrand u hp fun st => ?_
  dsimp only [keepStrand]
  split <;> rfl

theorem isPass_onlyStrands (hi : isPass i = true) : ∃ t, exec i s = .next t ∧ onlyStrands s t fm :=
  ⟨_, exec_isPass hi hf s, State.issueWith_onlyStrands h (fun _ _ => rfl) fun u => .refl u⟩

theorem fenceRow_onlyStrands {k : Nat} (hi : fenceRow i = some k) : ∃ t, exec i s = .next t ∧ onlyStrands s t fm := by
  refine ⟨_, exec_fenceRow hi hf s, State.issueWith_onlyStrands h (fun _ _ => rfl) fun u => .foldl_ready (fun u l _ hp => ?_) u⟩
  refine .trans (.acquire u hp _) (.modStrand _ hp ?_)
  exact fun _ => rfl

theorem flagRow_onlyStrands {r : Nat × Bool} (hi : flagRow i = some r) : ∃ t, exec i s = .next t ∧ onlyStrands s t fm := by
  refine ⟨_, exec_flagRow hi hf s, State.issueWith_onlyStrands h (fun _ _ => rfl) fun u => .foldl_ready (fun u l _ hp => ?_) u⟩
  dsimp only
  split
  · refine .trans (.pushPend u l hp _) (.modStrand _ hp ?_)
    exact fun _ => rfl
  · exact .pushPend u l hp _

theorem hintRow_onlyStrands {r : Nat × Bool} (hi : hintRow i = some r) : ∃ t, exec i s = .next t ∧ onlyStrands s t fm := by
  refine ⟨_, exec_hintRow hi hf s, State.issueWith_onlyStrands h (fun _ _ => rfl) fun u => .foldl_ready (fun u l _ hp => ?_) u⟩
  refine .modStrand u hp ?_
  exact fun _ => rfl

end

/-- Settles O22: what each family's act changes is the strands of its bundle, and the issue itself spends the coin. -/
theorem registerOnlyFrame : Obligations.RegisterOnlyFrame := by
  unfold Obligations.RegisterOnlyFrame
  intro i fm s hrow hf h
  have hfamily : putsResult i = true ∨ (branchRow i).isSome ∨ isPass i = true ∨ (fenceRow i).isSome ∨ (flagRow i).isSome ∨
      (hintRow i).isSome := by
    simp only [putsResult, Bool.or_eq_true]
    grind only
  simp only [Option.isSome_iff_exists] at hfamily
  obtain hi | ⟨r, hi⟩ | hi | ⟨r, hi⟩ | ⟨r, hi⟩ | ⟨r, hi⟩ := hfamily
  · exact putsResult_onlyStrands hf h hi
  · exact branchRow_onlyStrands hf h hi
  · exact isPass_onlyStrands hf h hi
  · exact fenceRow_onlyStrands hf h hi
  · exact flagRow_onlyStrands hf h hi
  · exact hintRow_onlyStrands hf h hi

end Sys2Proof.Machine
end

section
/-! PROOFS. Reading a general register spends one coin: O21. -/

namespace Sys2Proof.Machine
open Sys2Proof.Claims

/-! ## Taking a trap -/

/-- A trap changes columns and contexts, and nothing else (R368, R370). -/
theorem State.takeTrap_eq (s : State) (g : GroupId) (t : Trap) :
    s.takeTrap g t = { s with columns := (s.takeTrap g t).columns, ctxs := (s.takeTrap g t).ctxs } := by
  unfold State.takeTrap
  split
  · rfl
  · dsimp only
    split <;> rfl

@[simp] theorem State.takeTrap_groups (s : State) (g : GroupId) (t : Trap) : (s.takeTrap g t).groups = s.groups := by
  rw [State.takeTrap_eq]

/-! ## Acts that leave the general registers alone -/

/-- Every thread of one state stands in the other, with the same general registers. -/
structure State.GregsKept (u v : State) : Prop where
  keeps : ∀ g tid x, u.thread? g tid = some x → ∃ y, v.thread? g tid = some y ∧ y.gregs = x.gregs

theorem State.GregsKept.refl (u : State) : u.GregsKept u := ⟨fun _ _ x hx => ⟨x, hx, rfl⟩⟩

theorem State.GregsKept.trans {u v w : State} (h : u.GregsKept v) (k : v.GregsKept w) : u.GregsKept w := by
  refine ⟨fun g tid x hx => ?_⟩
  obtain ⟨y, hy, hg⟩ := h.keeps g tid x hx
  obtain ⟨z, hz, hg'⟩ := k.keeps g tid y hy
  exact ⟨z, hz, hg'.trans hg⟩

theorem State.GregsKept.foldl {α : Type} {f : State → α → State} (h : ∀ u a, State.GregsKept u (f u a)) (l : List α) (u : State) :
    u.GregsKept (l.foldl f u) := by
  induction l generalizing u with
  | nil => exact .refl u
  | cons a l ih => exact (h u a).trans (ih _)

theorem State.GregsKept.of_groups {u v : State} (h : v.groups = u.groups) : u.GregsKept v :=
  ⟨fun g tid x hx => ⟨x, (State.thread?_congr h g tid).trans hx, rfl⟩⟩

theorem State.GregsKept.modStrand (u : State) (g : GroupId) (tid n : Nat) (f : Strand → Strand) : u.GregsKept (u.modStrand g tid n f) := by
  refine ⟨fun g' tid' x hx => ?_⟩
  have ht : (u.modStrand g tid n f).thread? g' tid' = _ := State.thread?_modThread u g' g tid' tid (·.modStrand n f)
  rw [ht, hx]
  split
  · exact ⟨_, rfl, rfl⟩
  · exact ⟨x, rfl, rfl⟩

theorem State.GregsKept.enterAcc (u : State) (a : AccSpec) (bundle c : Nat) (kind : AccKind) (l : Lane) :
    u.GregsKept (u.enterAcc a bundle c kind l) := by
  unfold State.enterAcc
  refine .trans ?_ (.modStrand ..)
  exact .of_groups rfl

/-- A bundle that issues without a trap, by an instruction whose act leaves the general registers alone, spends its coins and changes
no register otherwise (R24). -/
theorem State.issueWith_spends {s : State} {fm : Form} {cause : Lane → Option Cause} {act : Nat → List Lane → State → State}
    (h : s.issues fm = true) (hc : ∀ l ∈ s.ready fm, cause l = none) (hact : ∀ u, State.GregsKept u (act (Claims.now s) (s.ready fm) u)) :
    ∀ l ∈ s.ready fm, ∃ y, (s.issueWith fm cause act).thread? l.gid l.tid = some y ∧ y.gregs = (spent fm l.t).gregs := by
  obtain ⟨u, hu, -, ht, -⟩ := State.issueWith_ok cause act h hc
  intro l hl
  rw [hu]
  obtain ⟨y, hy, hg⟩ := (hact u).keeps _ _ _ (ht l hl)
  exact ⟨y, hy, hg⟩

/-! ## Memory instructions and sync words -/

/-- The access of a row, before a thread gives it an address and a size. -/
def specOf (r : AccRow) : AccSpec :=
  { g := r.g, seg := r.seg, addr := r.word, size := 0, aligned := r.aligned, faults := r.faults, writesAcc := r.writes, vec := r.vec }

theorem exec_accRow {i : Instr} {fm : Form} {r : AccRow} (h : accRow i = some r) (hf : i.form = some fm) (s : State) :
    exec i s = access fm (specOf r) r.kind r.flags s r.size := by
  cases i
  all_goals cases hf
  all_goals cases h
  all_goals rfl

/-- The address of the rows is that of the model (R104, R204). -/
theorem address_eq_va (r : AccRow) (l : Lane) : l.address r.g r.seg r.word = r.va l := by
  unfold Lane.address AccRow.va
  split
  · apply BitVec.eq_of_toNat_eq
    simp [Lane.offset]
  · rfl

/-- An access that the memory model allows has no cause to trap at issue (R226 to R228). -/
theorem cause_eq_none_of_legal {r : AccRow} {c : Nat} {l : Lane} (h : r.legal c l) : ({ specOf r with size := r.size c l } : AccSpec).cause l = none := by
  unfold AccSpec.cause
  split
  · rename_i hfaults
    obtain ⟨hbound, halign⟩ := h hfaults
    have hva : l.address (specOf r).g (specOf r).seg (specOf r).addr = r.va l := address_eq_va r l
    simp only [hva]
    unfold accessCause
    rw [if_neg, if_neg]
    · rintro ⟨ha, hm⟩
      exact hm (halign ha)
    · rintro ⟨hs, hlt⟩
      exact absurd (hbound hs) (by omega)
  · rfl

/-- A memory instruction whose accesses are all allowed spends its coins. -/
theorem access_spends {s : State} {fm : Form} (h : s.issues fm = true) (a : AccSpec) (kind : Nat → Lane → AccKind) (flags : Nat → Lane → Flags)
    (size : Nat → Lane → Nat) (hc : ∀ l ∈ s.ready fm, ({ a with size := size (Claims.now s) l } : AccSpec).cause l = none) :
    ∃ t, access fm a kind flags s size = .next t ∧
      ∀ l ∈ s.ready fm, ∃ y, t.thread? l.gid l.tid = some y ∧ y.gregs = (spent fm l.t).gregs := by
  refine ⟨_, rfl, State.issueWith_spends h hc fun u => .foldl (fun u l => ?_) (s.ready fm) u⟩
  dsimp only
  split
  · exact .enterAcc ..
  · exact .trans (.enterAcc ..) (.modStrand ..)

theorem State.syncUpdate_groups (s : State) (core off : Nat) (dT dC : Word) : (s.syncUpdate core off dT dC).1.groups = s.groups := by
  unfold State.syncUpdate
  dsimp only
  split <;> rfl

theorem syncCause_eq_none {g : BitVec 6} {l : Lane} (h : syncLegal g.toNat l) : syncCause g l = none := by
  obtain ⟨hb, ha⟩ := h
  unfold syncCause
  dsimp only
  rw [if_neg (by omega), if_neg (by omega)]

/-- What `sexp` and `sarr` do: a cause where the sync word's offset is illegal, and an act that touches no general register (R247). -/
theorem exec_syncRow {i : Instr} {fm : Form} {r : Nat × Nat × Bool} (h : syncRow i = some r) (hf : i.form = some fm) (s : State) :
    ∃ (g : BitVec 6) (act : Nat → List Lane → State → State), r.1 = g.toNat ∧ exec i s = .next (s.issueWith fm (syncCause g) act) ∧
      ∀ c lanes u, State.GregsKept u (act c lanes u) := by
  have hact : ∀ (lanes : List Lane) (g : BitVec 6) (d : BitVec 5) (target : Bool) (u : State), u.GregsKept (lanes.foldl (fun s l =>
      let v := l.st.elem d.toNat
      let r := s.syncUpdate l.g.core (l.g.wbase + (l.t.greg g.toNat).val.toNat) (if target then v else 0) (if target then 0 else v)
      if r.2 then r.1.syncFault l else r.1) u) := by
    intro lanes g d target u
    refine .foldl (fun u l => .of_groups ?_) lanes u
    dsimp only
    generalize (if target then l.st.elem d.toNat else 0) = dT
    generalize (if target then 0 else l.st.elem d.toNat) = dC
    split
    · exact (State.takeTrap_groups ..).trans (State.syncUpdate_groups ..)
    · exact State.syncUpdate_groups ..
  cases i
  all_goals cases hf
  all_goals cases h
  all_goals exact ⟨_, _, rfl, rfl, fun _ lanes u => hact lanes ..⟩

/-- The same of `swait` and `swait.ge`. -/
theorem exec_waitRow {i : Instr} {fm : Form} {r : Nat × Nat} (h : waitRow i = some r) (hf : i.form = some fm) (s : State) :
    ∃ (g : BitVec 6) (act : Nat → List Lane → State → State), r.1 = g.toNat ∧ exec i s = .next (s.issueWith fm (syncCause g) act) ∧
      ∀ c lanes u, State.GregsKept u (act c lanes u) := by
  cases i
  all_goals cases hf
  all_goals cases h
  all_goals
    refine ⟨_, _, rfl, rfl, fun c lanes u => .foldl (fun u l => .trans (.modStrand ..) (.modStrand ..)) lanes u⟩

/-! ## Reading a general register -/

/-- Outside these families no instruction reads a general register (R24, R102, R105, R106). -/
theorem use_read_eq_none {i : Instr} {fm : Form} (hf : i.form = some fm)
    (h : (putsResult i || (branchRow i).isSome || (accRow i).isSome || (syncRow i).isSome || (waitRow i).isSome) = false) :
    fm.use.read = none := by
  cases i
  all_goals cases hf
  all_goals cases h
  all_goals rfl

theorem onlyStrands_spends {s t : State} {fm : Form} (h : onlyStrands s t fm) :
    ∀ l ∈ s.ready fm, ∃ y, t.thread? l.gid l.tid = some y ∧ y.gregs = (spent fm l.t).gregs := by
  obtain ⟨-, -, ht⟩ := h
  intro l hl
  obtain ⟨y, hy, -, hg⟩ := ht l hl
  exact ⟨y, hy, hg⟩

/-- A reading instruction spends its threads' coins and leaves every other register alone. -/
theorem exec_spends {i : Instr} {fm : Form} {s : State} {g : Nat} (hf : i.form = some fm) (h : s.issues fm = true)
    (hr : fm.use.read = some g) (hacc : ∀ r, accRow i = some r → ∀ l ∈ s.ready fm, r.legal (Claims.now s) l)
    (hsync : ∀ k d x, syncRow i = some (k, d, x) → ∀ l ∈ s.ready fm, syncLegal k l)
    (hwait : ∀ k d, waitRow i = some (k, d) → ∀ l ∈ s.ready fm, syncLegal k l) :
    ∃ t, exec i s = .next t ∧ ∀ l ∈ s.ready fm, ∃ y, t.thread? l.gid l.tid = some y ∧ y.gregs = (spent fm l.t).gregs := by
  have hfamily : (putsResult i || (branchRow i).isSome || (accRow i).isSome || (syncRow i).isSome || (waitRow i).isSome) = true := by
    refine eq_true_of_ne_false fun hn => ?_
    rw [use_read_eq_none hf hn] at hr
    cases hr
  simp only [Bool.or_eq_true, or_assoc, Option.isSome_iff_exists] at hfamily
  obtain hi | ⟨r, hi⟩ | ⟨r, hi⟩ | ⟨⟨k, d, x⟩, hi⟩ | ⟨⟨k, d⟩, hi⟩ := hfamily
  · obtain ⟨t, he, ht⟩ := putsResult_onlyStrands hf h hi
    exact ⟨t, he, onlyStrands_spends ht⟩
  · obtain ⟨t, he, ht⟩ := branchRow_onlyStrands hf h hi
    exact ⟨t, he, onlyStrands_spends ht⟩
  · rw [exec_accRow hi hf s]
    exact access_spends h _ _ _ _ fun l hl => cause_eq_none_of_legal (hacc r hi l hl)
  · obtain ⟨g, act, rfl, he, hact⟩ := exec_syncRow hi hf s
    exact ⟨_, he, State.issueWith_spends h (fun l hl => syncCause_eq_none (hsync _ _ _ hi l hl)) fun u => hact _ _ u⟩
  · obtain ⟨g, act, rfl, he, hact⟩ := exec_waitRow hi hf s
    exact ⟨_, he, State.issueWith_spends h (fun l hl => syncCause_eq_none (hwait _ _ hi l hl)) fun u => hact _ _ u⟩

/-- Settles O21. -/
theorem readSpendsCoin : Obligations.ReadSpendsCoin := by
  unfold Obligations.ReadSpendsCoin
  intro i fm s g hf h hr hacc hsync hwait
  obtain ⟨t, he, ht⟩ := exec_spends hf h hr hacc hsync hwait
  refine ⟨t, he, fun l hl => ?_⟩
  obtain ⟨y, hy, hg⟩ := ht l hl
  have hm : ∀ m, y.greg m = (l.t.spend g).greg m := fun m => by
    have hs : spent fm l.t = l.t.spend g := by rw [spent, hr]
    rw [Thread.greg_congr hg, hs]
  refine ⟨y, hy, ?_, fun m hne => ?_⟩
  · rw [hm, Thread.greg_spend, if_pos rfl]
  · rw [hm, Thread.greg_spend, if_neg hne]
end Sys2Proof.Machine
end

section
/-! PROOFS. Writing and freeing general registers: O4. -/

namespace Sys2Proof.Machine
open Sys2Proof.Claims

/-! ## Writing and freeing general registers -/

/-- An act that changes, for each thread of the bundle, one general register of that thread: what becomes of the registers, and the frame. -/
theorem State.issueWith_setsGreg {s : State} {fm : Form} (g : Nat) (r : Nat → Lane → Thread → GReg) (hr : fm.use.read = none) (hd : fm.use.dq = false)
    (h : s.issues fm = true) :
    let t := s.issueWith fm noCause fun c lanes u => lanes.foldl (fun u l => u.modThread l.gid l.tid fun t => t.setGreg g (r c l t)) u
    onlyWork s t false ∧ othersKept s t fm ∧ strandsBecome s t fm (·.stepped (Claims.now s) fm) ∧
      ∀ l ∈ s.ready fm, ∃ x y, x.gregs = l.t.gregs ∧ t.thread? l.gid l.tid = some y ∧ sameBut l.st.n l.t y ∧ y.greg g = r (Claims.now s) l x ∧
        ∀ m, m ≠ g → y.greg m = l.t.greg m := by
  intro t
  obtain ⟨hsame, hother⟩ := State.issueWith_threads (s := s) (fm := fm) noCause
    (fun c _ u l => u.modThread l.gid l.tid fun t => t.setGreg g (r c l t)) (fun l t => t.setGreg g (r (Claims.now s) l t)) h (fun _ _ => rfl)
    (fun u l _ => by rw [State.thread?_modThread, if_pos ⟨rfl, rfl⟩]; rfl)
    (fun u l g' tid _ hn => by
      rw [State.thread?_modThread, if_neg]
      rintro ⟨rfl, rfl⟩
      exact hn rfl)
  refine ⟨?_, hother, fun l hl => ?_, fun l hl => ?_⟩
  · obtain ⟨u, hu, hi, -⟩ := State.issueWith_ok noCause
      (fun c lanes u => lanes.foldl (fun u l => u.modThread l.gid l.tid fun t => t.setGreg g (r c l t)) u) h fun _ _ => rfl
    rw [hd] at hi
    have ht : t = _ := hu
    rw [ht]
    exact (hi.trans (.foldl (fun u (l : Lane) => .modThread u l.gid l.tid false _) u _)).onlyWork
  · have ht : t.thread? l.gid l.tid = _ := hsame l hl
    obtain ⟨-, -, hst, -⟩ := State.ready_spec hl
    rw [State.strand?, ht, Option.bind_some, Thread.setGreg_strand?]
    exact Lane.issuedThread_strand? hst _ fm
  · have hspent : spent fm l.t = l.t := by rw [spent, hr]
    refine ⟨l.issuedThread (s.cycle s.curCore) fm l.t, _, ?_, hsame l hl, ?_, ?_, fun m hm => ?_⟩
    · rw [Lane.issuedThread_gregs, hspent]
    · exact sameBut_trans (l.sameBut_issuedThread _ fm) (sameBut_setGreg ..)
    · rw [Thread.greg_setGreg, if_pos rfl]
    · rw [Thread.greg_setGreg, if_neg hm]
      exact Thread.greg_congr (by rw [Lane.issuedThread_gregs, hspent]) m

/-- What a `put` is: its form reads neither a register nor the decision queue (R181). -/
theorem exec_putRow {i : Instr} {fm : Form} {r : Nat × Nat × Nat} (h : putRow i = some r) (hf : i.form = some fm) (s : State) :
    exec i s = putReg fm r.1 r.2.1 r.2.2 s ∧ fm.use.read = none ∧ fm.use.dq = false := by
  cases i
  all_goals cases hf
  all_goals cases h
  all_goals exact ⟨rfl, rfl, rfl⟩

/-- The same of a `drop` (R182). -/
theorem exec_dropRow {i : Instr} {fm : Form} {g : Nat} (h : dropRow i = some g) (hf : i.form = some fm) (s : State) :
    exec i s = dropReg fm g s ∧ fm.use.read = none ∧ fm.use.dq = false := by
  cases i
  all_goals cases hf
  all_goals cases h
  all_goals exact ⟨rfl, rfl, rfl⟩

/-- Settles O4. -/
theorem putsAndDrops : Obligations.PutsAndDrops := by
  unfold Obligations.PutsAndDrops
  refine ⟨fun i g d k fm s hi hf h => ?_, fun i g fm s hi hf h => ?_⟩
  · obtain ⟨he, hr, hd⟩ := exec_putRow hi hf s
    obtain ⟨hwork, hother, hst, hreg⟩ := State.issueWith_setsGreg g
      (fun c l _ => .put l.st.n c k (l.st.elem d) l.st.know l.st.after l.st.fenced l.st.pc) hr hd h
    refine ⟨_, he, hwork, hother, hst, fun l hl => ?_⟩
    obtain ⟨-, y, -, hy, hsame, hg, hm⟩ := hreg l hl
    exact ⟨y, hy, hsame, hg, hm⟩
  · obtain ⟨he, hr, hd⟩ := exec_dropRow hi hf s
    obtain ⟨hwork, hother, hst, hreg⟩ := State.issueWith_setsGreg g (fun _ _ t => { t.greg g with p := false, c := 0 }) hr hd h
    refine ⟨_, he, hwork, hother, hst, fun l hl => ?_⟩
    obtain ⟨x, y, -, hy, hsame, hg, hm⟩ := hreg l hl
    exact ⟨y, hy, hsame, by rw [hg], by rw [hg], hm⟩
end Sys2Proof.Machine
end

section
/-! PROOFS. Traps at issue: O19. -/

namespace Sys2Proof.Machine
open Sys2Proof.Claims

/-! ## What exec does for any strand instruction -/

@[simp] theorem State.pulse_zero (s : State) (core input : Nat) : s.pulse core input 0 = s := by
  simp [State.pulse, updWhere]

/-- Every strand instruction but `brk` is the issue of its form, with causes and an act of its own, and the act does nothing where no thread
of the bundle issues. -/
theorem exec_issueWith {i : Instr} {fm : Form} (hf : i.form = some fm) (hb : ∀ w c, i ≠ .brk w c) (s : State) :
    ∃ cause act, exec i s = .next (s.issueWith fm cause act) ∧ ∀ c u, act c [] u = u := by
  cases i
  case brk w c => exact absurd rfl (hb w c)
  case evpost w n => cases hf; exact ⟨_, _, rfl, fun _ u => u.pulse_zero _ _⟩
  all_goals cases hf
  all_goals exact ⟨_, _, rfl, fun _ _ => rfl⟩

/-- `brk` names no register and reads no decision queue. -/
theorem ne_brk_of_use {i : Instr} {fm : Form} (hf : i.form = some fm) (hu : fm.use ≠ {}) (w : BitVec 3) (c : BitVec 13) : i ≠ .brk w c := by
  rintro rfl
  cases hf
  exact hu rfl

/-! ## Bundles that trap -/

@[simp] theorem State.takeTrap_mems (s : State) (g : GroupId) (t : Trap) : (s.takeTrap g t).mems = s.mems := by
  rw [State.takeTrap_eq]

@[simp] theorem State.takeTrap_cycle (s : State) (g : GroupId) (t : Trap) (core : Nat) : (s.takeTrap g t).cycle core = s.cycle core := by
  rw [State.takeTrap_eq]
  rfl

theorem State.column?_id {s : State} {id : ColId} {c : Column} (h : s.column? id = some c) : c.id = id := by
  simpa using List.find?_some h

/-- A column that is placed takes the trap into its stop (R368, R369). -/
theorem State.takeTrap_column?_self {s : State} {g : GroupId} {c : Column} (hc : s.column? g.column = some c) (t : Trap) :
    (s.takeTrap g t).column? g.column =
      some { c with stop := some (Stop.raise c.stop t (s.ctxAt c.ctx).trapSeq s.time (s.cycle c.core)).1 } := by
  have hid := State.column?_id hc
  have hmod : ∀ st : Stop, (s.modColumn c.id fun c => { c with stop := some st }).column? g.column = some { c with stop := some st } := by
    intro st
    refine (State.column?_modColumn s _ _ _ ?_).trans ?_
    · exact fun _ => rfl
    · simp [hc]
  unfold State.takeTrap
  simp only [hc]
  split <;> exact hmod _

/-- No other column changes. -/
theorem State.takeTrap_column?_other (s : State) {g : GroupId} (t : Trap) {id : ColId} (hne : id ≠ g.column) :
    (s.takeTrap g t).column? id = s.column? id := by
  unfold State.takeTrap
  split
  · rfl
  · rename_i c hc
    have hid := State.column?_id hc
    have hmod : ∀ st : Stop, (s.modColumn c.id fun c => { c with stop := some st }).column? id = s.column? id := by
      intro st
      refine (State.column?_modColumn s _ _ _ ?_).trans ?_
      · exact fun _ => rfl
      · cases hx : s.column? id with
        | none => rfl
        | some x => simp [State.column?_id hx, hid, hne]
    dsimp only
    split <;> exact hmod _

/-- Of two traps that their agents take at their instructions on one cycle, the stop is that of the one that ranks first (R369). -/
theorem Stop.raise_same_cycle {st : Stop} {t0 t : Trap} (h : st.trap = some t0) (h0 : t0.atIssue = true) (h1 : t.atIssue = true) (seq : Word)
    (time : Nat) : (Stop.raise (some st) t seq time st.cycle).1 = { st with trap := some (if t.rank < t0.rank then t else t0) } := by
  have hother : (if t.rank < t0.rank then t0 else t).atIssue = true := by
    split
    · exact h0
    · exact h1
  simp [Stop.raise, h, hother]

/-- The lanes of a list whose columns are a given one. -/
def trapsOf (p : List Lane) (col : ColId) : List Lane := p.filter (·.gid.column == col)

theorem mem_trapsOf {p : List Lane} {col : ColId} {l : Lane} : l ∈ trapsOf p col ↔ l ∈ p ∧ l.gid.column = col := by simp [trapsOf]

/-- A column has stopped, on cycle `cyc`, for the first in rank of the traps of some lanes at their instructions. -/
def stopsFor (st : Stop) (cyc : Nat) (ls : List Lane) (cause : Lane → Cause) : Prop :=
  st.reason = .trap ∧ st.begun = false ∧ st.cycle = cyc ∧
    ∃ m ∈ ls, st.trap = some (trapAt m (cause m)) ∧ ∀ l ∈ ls, (trapAt m (cause m)).rank ≤ (trapAt l (cause l)).rank

theorem stopsFor_raise_none (t : Lane) (cause : Lane → Cause) (seq : Word) (time cyc : Nat) :
    stopsFor (Stop.raise none (trapAt t (cause t)) seq time cyc).1 cyc [t] cause :=
  ⟨rfl, rfl, rfl, t, List.mem_singleton_self t, rfl, fun _ hl => List.mem_singleton.1 hl ▸ Nat.le_refl _⟩

theorem stopsFor_raise {st : Stop} {cyc : Nat} {ls : List Lane} {cause : Lane → Cause} (h : stopsFor st cyc ls cause) (t : Lane) (seq : Word)
    (time : Nat) : stopsFor (Stop.raise (some st) (trapAt t (cause t)) seq time cyc).1 cyc (ls ++ [t]) cause := by
  obtain ⟨hr, hb, rfl, m, hm, ht, hle⟩ := h
  rw [Stop.raise_same_cycle ht rfl rfl]
  by_cases hlt : (trapAt t (cause t)).rank < (trapAt m (cause m)).rank
  · refine ⟨hr, hb, rfl, t, by simp, by rw [if_pos hlt], fun l hl => ?_⟩
    rcases List.mem_append.1 hl with hl | hl
    · exact Nat.le_trans (Nat.le_of_lt hlt) (hle l hl)
    · exact List.mem_singleton.1 hl ▸ Nat.le_refl _
  · refine ⟨hr, hb, rfl, m, List.mem_append_left _ hm, by rw [if_neg hlt], fun l hl => ?_⟩
    rcases List.mem_append.1 hl with hl | hl
    · exact hle l hl
    · rw [List.mem_singleton.1 hl]
      exact Nat.le_of_not_lt hlt

/-- What stands after the traps of the lanes `p`: the same groups, memories and clocks, and every column that ran stops for those of its
own lanes, or runs on where it has none. -/
structure State.Trapped (s u : State) (cause : Lane → Cause) (p : List Lane) : Prop where
  groups : u.groups = s.groups
  mems : u.mems = s.mems
  cycle : ∀ core, u.cycle core = s.cycle core
  column : ∀ col c, s.column? col = some c → c.stop = none → ∃ stop, u.column? col = some { c with stop := stop } ∧
    (trapsOf p col = [] ∧ stop = none ∨ ∃ st, stop = some st ∧ stopsFor st (s.cycle c.core) (trapsOf p col) cause)

theorem State.Trapped.refuse {s u : State} {cause : Lane → Cause} {p : List Lane} (h : s.Trapped u cause p) (l : Lane) :
    s.Trapped (u.refuse l (cause l)) cause (p ++ [l]) := by
  unfold State.refuse
  refine ⟨(u.takeTrap_groups ..).trans h.groups, (u.takeTrap_mems ..).trans h.mems, fun k => (u.takeTrap_cycle ..).trans (h.cycle k),
    fun col c hc hs => ?_⟩
  obtain ⟨stop, hu, hstop⟩ := h.column col c hc hs
  by_cases hcol : col = l.gid.column
  · have hls : trapsOf (p ++ [l]) col = trapsOf p col ++ [l] := by simp [trapsOf, hcol]
    subst hcol
    refine ⟨_, State.takeTrap_column?_self hu _, .inr ⟨_, rfl, ?_⟩⟩
    rw [hls, h.cycle]
    obtain ⟨hnil, rfl⟩ | ⟨st, rfl, hst⟩ := hstop
    · rw [hnil]
      exact stopsFor_raise_none ..
    · exact stopsFor_raise hst ..
  · have hls : trapsOf (p ++ [l]) col = trapsOf p col := by simp [trapsOf, Ne.symm hcol]
    rw [hls]
    exact ⟨stop, (State.takeTrap_column?_other u _ hcol).trans hu, hstop⟩

theorem State.Trapped.foldl {s u : State} {cause : Lane → Cause} {p : List Lane} (h : s.Trapped u cause p) (lanes : List Lane) :
    s.Trapped (lanes.foldl (fun s l => s.refuse l (cause l)) u) cause (p ++ lanes) := by
  induction lanes generalizing u p with
  | nil => exact (List.append_nil p).symm ▸ h
  | cons l lanes ih => exact List.append_cons p l lanes ▸ ih (h.refuse l)

theorem State.trapped_refuse (s : State) (cause : Lane → Cause) (lanes : List Lane) :
    s.Trapped (lanes.foldl (fun s l => s.refuse l (cause l)) s) cause lanes := by
  have hnone : s.Trapped s cause [] :=
    ⟨rfl, rfl, fun _ => rfl, fun col c hc hs => ⟨none, by rw [← hs]; exact hc, .inl ⟨rfl, rfl⟩⟩⟩
  exact hnone.foldl lanes

/-- A bundle every thread of which takes its trap at its instruction, on columns that run: `allTrap`. -/
theorem allTrap_refuse {s : State} {fm : Form} (h : columnsRun s fm) (cause : Lane → Cause) :
    allTrap s ((s.ready fm).foldl (fun s l => s.refuse l (cause l)) s) fm cause := by
  have ht := s.trapped_refuse cause (s.ready fm)
  refine ⟨ht.groups, ht.mems, fun l hl => ?_⟩
  obtain ⟨c, hc, hs⟩ := h l hl
  have hmem : l ∈ trapsOf (s.ready fm) l.gid.column := mem_trapsOf.2 ⟨hl, rfl⟩
  obtain ⟨stop, hu, ⟨hnil, -⟩ | ⟨st, rfl, hr, hb, -, m, hm, htr, hle⟩⟩ := ht.column _ c hc hs
  · rw [hnil] at hmem
    cases hmem
  · obtain ⟨hmr, hmc⟩ := mem_trapsOf.1 hm
    exact ⟨st, _, by rw [State.stopOf, hu]; rfl, hr, hb, htr, ⟨m, hmr, hmc, rfl⟩, hle l hmem⟩

/-! ## When an issue traps for every thread -/

section
variable {s : State} {fm : Form} {cause : Lane → Option Cause} {act : Nat → List Lane → State → State}

/-- Illegal in the kernel of the bundle (R19, R109). -/
theorem State.issueWith_illegal (hne : s.ready fm ≠ []) (h : ∀ l ∈ s.ready fm, illegalIn fm.use l.g.kernel = true) :
    s.issueWith fm cause act = (s.ready fm).foldl (fun s l => s.refuse l .illegal) s := by
  unfold State.issueWith
  generalize s.ready fm = lanes at *
  match lanes with
  | [] => exact absurd rfl hne
  | l :: rest =>
    dsimp only
    rw [if_pos (h l (.head _))]

/-- A decision-queue entry that is gone (R37). -/
theorem State.issueWith_reclaimed (hne : s.ready fm ≠ []) (h : ∀ l ∈ s.ready fm, illegalIn fm.use l.g.kernel = false)
    (hdq : (fm.use.dq && (s.ready fm).any (dqReclaimed (s.ready fm))) = true) :
    s.issueWith fm cause act = (s.ready fm).foldl (fun s l => s.refuse l .reclaimed) s := by
  unfold State.issueWith
  generalize s.ready fm = lanes at *
  match lanes with
  | [] => exact absurd rfl hne
  | l :: rest =>
    dsimp only
    rw [if_neg (by simp [h l (.head _)]), if_pos hdq]

/-- Every thread has a cause under CHECK (R116): none issues. -/
theorem State.issueWith_check {c : Cause} (hne : s.ready fm ≠ []) (h : ∀ l ∈ s.ready fm, illegalIn fm.use l.g.kernel = false)
    (hdq : fm.use.dq = false) (hc : ∀ l ∈ s.ready fm, checkCause fm.use l = some c) (hact : ∀ c u, act c [] u = u) :
    s.issueWith fm cause act = (s.ready fm).foldl (fun s l => s.refuse l c) s := by
  have hwhy : ∀ l ∈ s.ready fm, ((checkCause fm.use l).orElse fun _ => cause l) = some c := fun l hl => by rw [hc l hl]; rfl
  unfold State.issueWith
  generalize s.ready fm = lanes at *
  match lanes with
  | [] => exact absurd rfl hne
  | l :: rest =>
    dsimp only
    have hgo : (l :: rest).filter (fun l => ((checkCause fm.use l).orElse fun _ => cause l).isNone) = [] :=
      List.filter_eq_nil_iff.2 fun x hx => by rw [hwhy x hx]; simp
    rw [if_neg (by simp [h l (.head _)]), if_neg (by simp [hdq]), hgo]
    refine (hact _ _).trans ?_
    exact foldl_eq_of_mem (fun u x hx => by simp only [hwhy x hx]) s

end

/-- Settles O19. -/
theorem useTraps : Obligations.UseTraps := by
  have hillegal : ∀ (i : Instr) (fm : Form) (s : State), i.form = some fm → (∀ w c, i ≠ .brk w c) → s.ready fm ≠ [] → columnsRun s fm →
      (∀ l ∈ s.ready fm, illegalIn fm.use l.g.kernel = true) →
        ∃ t, exec i s = .next t ∧ allTrap s t fm fun _ => { cls := 1, code := 0 } := by
    intro i fm s hf hb hne hcol hall
    obtain ⟨cause, act, he, -⟩ := exec_issueWith hf hb s
    exact ⟨_, he, by rw [State.issueWith_illegal hne hall]; exact allTrap_refuse hcol _⟩
  unfold Obligations.UseTraps
  refine ⟨fun i fm s hf hne hcol hname => ?_, hillegal, fun i fm s hf hb hne hcol hall => ?_, fun i fm s l hf hl hcol hdq hleg hgone => ?_⟩
  · obtain ⟨l, hl⟩ := List.exists_mem_of_ne_nil _ hne
    obtain ⟨g, hg, -⟩ := hname l hl
    refine hillegal i fm s hf (ne_brk_of_use hf fun hu => ?_) hne hcol fun l hl => ?_
    · rw [hu] at hg
      cases hg
    · obtain ⟨g, hg, hle⟩ := hname l hl
      simp [illegalIn, hg, hle]
  · obtain ⟨cause, act, he, hact⟩ := exec_issueWith hf hb s
    obtain ⟨l, hl⟩ := List.exists_mem_of_ne_nil _ hne
    have hcheck : ∀ l ∈ s.ready fm, checkCause fm.use l = some { cls := 2, code := 0 } := by
      intro l hl
      obtain ⟨-, -, hchk, htouch, p, hp, hvar⟩ := hall l hl
      have hpend : l.st.unlanded = true := List.any_eq_true.2 ⟨p, hp, by simp [hvar]⟩
      simp [checkCause, hchk, htouch, hpend]
    refine ⟨_, he, ?_⟩
    rw [State.issueWith_check hne (fun l hl => (hall l hl).1) (hall l hl).2.1 hcheck hact]
    exact allTrap_refuse hcol _
  · obtain ⟨cause, act, he, -⟩ := exec_issueWith hf (ne_brk_of_use hf fun hu => by rw [hu] at hdq; cases hdq) s
    have hentry : l.dqEntry? = none := List.find?_eq_none.2 fun e he' => by simpa using hgone e he'
    refine ⟨_, he, ?_⟩
    rw [State.issueWith_reclaimed (by simp [hl]) (by simpa [hl] using hleg) (by simp [hl, hdq, dqReclaimed, hentry])]
    exact allTrap_refuse hcol _
end Sys2Proof.Machine
end

section
/-! PROOFS. The teller's arithmetic: O23. -/

namespace Sys2Proof.Machine
open Sys2Proof.Claims

/-! ## The rules of a teller's arithmetic in the terms of R258 to R260 -/

theorem add_eq_ofNat (a b : Word) : a + b = BitVec.ofNat 32 (a.toNat + b.toNat) := by
  apply BitVec.eq_of_toNat_eq; simp

theorem sub_eq_ofInt (a b : Word) : a - b = BitVec.ofInt 32 (a.toInt - b.toInt) := by
  apply BitVec.eq_of_toInt_eq; simp [BitVec.toInt_sub, BitVec.toInt_ofInt]

theorem mul_eq_ofNat (a b : Word) : a * b = BitVec.ofNat 32 (a.toNat * b.toNat) := by
  apply BitVec.eq_of_toNat_eq; simp [BitVec.toNat_mul]

theorem shiftLeft_eq_ofNat (a : Word) (n : Nat) : a <<< n = BitVec.ofNat 32 (a.toNat * 2 ^ n) := by
  apply BitVec.eq_of_toNat_eq; simp [Nat.shiftLeft_eq]

theorem ushiftRight_eq_ofNat (a : Word) (n : Nat) : a >>> n = BitVec.ofNat 32 (a.toNat / 2 ^ n) := by
  apply BitVec.eq_of_toNat_eq
  rw [BitVec.toNat_ushiftRight, Nat.shiftRight_eq_div_pow, BitVec.toNat_ofNat, Nat.mod_eq_of_lt]
  exact Nat.lt_of_le_of_lt (Nat.div_le_self _ _) a.isLt

theorem sshiftRight_eq_ofInt (a : Word) (n : Nat) : a.sshiftRight n = BitVec.ofInt 32 (a.toInt.fdiv (2 ^ n)) := by
  have hpow : ((2 ^ n : Nat) : Int) = 2 ^ n := Int.natCast_pow 2 n
  rw [BitVec.sshiftRight, Int.shiftRight_eq_div_pow, ← hpow, Int.fdiv_eq_ediv_of_nonneg _ (Int.natCast_nonneg _)]

theorem mulhs_eq_fdiv (a b : Word) : BitVec.ofInt 32 (a.toInt * b.toInt / 2 ^ 32) = BitVec.ofInt 32 ((a.toInt * b.toInt).fdiv 4294967296) := by
  rw [Int.fdiv_eq_ediv_of_nonneg _ (by decide)]
  rfl

theorem add_signExtend_eq_ofInt (a : Word) (i : BitVec 12) : a + i.signExtend 32 = BitVec.ofInt 32 (a.toInt + i.toInt) := by
  apply BitVec.eq_of_toInt_eq
  rw [BitVec.toInt_add, BitVec.toInt_signExtend_of_le (by decide), BitVec.toInt_ofInt]

theorem flagWord_eq_truth (b : Bool) (p : Prop) [Decidable p] (h : b = true ↔ p) : flagWord b = truth p := by
  unfold flagWord truth
  simp only [h]

theorem sle_eq_lesser (a b : Word) : (if a.sle b then a else b) = lesser (·.toInt) a b := by
  simp [lesser, BitVec.sle]

theorem sle_eq_larger (a b : Word) : (if a.sle b then b else a) = larger (·.toInt) a b := by
  simp [larger, BitVec.sle]

theorem ule_eq_lesser (a b : Word) : (if a.ule b then a else b) = lesser (·.toNat) a b := by
  simp [lesser, BitVec.ule]

theorem ule_eq_larger (a b : Word) : (if a.ule b then b else a) = larger (·.toNat) a b := by
  simp [larger, BitVec.ule]

theorem tlui_eq_ofNat (a : Word) (i : BitVec 18) : (a <<< 18) + i.setWidth 32 = BitVec.ofNat 32 (a.toNat * 2 ^ 18 + i.toNat) := by
  apply BitVec.eq_of_toNat_eq; simp [Nat.shiftLeft_eq]

/-! ## Teller instructions that complete -/

/-- A teller instruction that completes leaves its results in its teller, and changes nothing else (R31, R32). -/
theorem tellerOp_completes {i : Instr} {s : State} {g : Group} {act : State → Group → TEnd} {ws : List (BitVec 6 × Word)} {n : Nat}
    (he : exec i s = tellerOp act s) (h : s.curTeller = some g) (ha : act s g = .done s ws n) : tellerCompletes i s g ws n := by
  obtain ⟨hg, -, -⟩ := State.curTeller_spec h
  obtain ⟨hs, hself, hother⟩ := State.modTeller_spec hg fun t => t.complete ws (t.pc + 4) (s.cycle g.core + n)
  refine ⟨_, he.trans (tellerOp_done h ha), hs, ?_, hother⟩
  rw [hself, Teller.complete_eq]
  rfl

/-- A register-register instruction whose result is `v` (R258). -/
theorem tal_completes {i : Instr} {s : State} {g : Group} {d a b : BitVec 6} {n : Nat} (f : Word → Word → Word) {v : Word}
    (he : exec i s = tal d a b n f s) (h : s.curTeller = some g) (hv : f (g.teller.reg a) (g.teller.reg b) = v) :
    tellerCompletes i s g [(d, v)] n :=
  tellerOp_completes he h (by rw [hv])

/-- An instruction with an immediate whose result is `v` (R259). -/
theorem talImm_completes {i : Instr} {s : State} {g : Group} {d a : BitVec 6} (f : Word → Word) {v : Word}
    (he : exec i s = talImm d a f s) (h : s.curTeller = some g) (hv : f (g.teller.reg a) = v) : tellerCompletes i s g [(d, v)] 1 :=
  tellerOp_completes he h (by rw [hv])

/-- Settles O23: each arithmetic instruction completes, with the result that its row's rule gives. -/
theorem tellerArithmetic : Obligations.TellerArithmetic := by
  unfold Obligations.TellerArithmetic
  intro i d rule n s g hi h
  cases i
  all_goals cases hi
  case talAdd => exact tal_completes (· + ·) rfl h (add_eq_ofNat ..)
  case talSub => exact tal_completes (· - ·) rfl h (sub_eq_ofInt ..)
  case talMul => exact tal_completes (· * ·) rfl h (mul_eq_ofNat ..)
  case talMulhs => exact tal_completes (fun x y => BitVec.ofInt 32 (x.toInt * y.toInt / 2 ^ 32)) rfl h (mulhs_eq_fdiv ..)
  case talAnd => exact tal_completes (· &&& ·) rfl h rfl
  case talOr => exact tal_completes (· ||| ·) rfl h rfl
  case talXor => exact tal_completes (· ^^^ ·) rfl h rfl
  case talShl => exact tal_completes (fun x y => x <<< (y.toNat % 32)) rfl h (shiftLeft_eq_ofNat ..)
  case talShrn => exact tal_completes (fun x y => x >>> (y.toNat % 32)) rfl h (ushiftRight_eq_ofNat ..)
  case talShrs => exact tal_completes (fun x y => x.sshiftRight (y.toNat % 32)) rfl h (sshiftRight_eq_ofInt ..)
  case talMins => exact tal_completes (fun x y => if x.sle y then x else y) rfl h (sle_eq_lesser ..)
  case talMaxs => exact tal_completes (fun x y => if x.sle y then y else x) rfl h (sle_eq_larger ..)
  case talMinn => exact tal_completes (fun x y => if x.ule y then x else y) rfl h (ule_eq_lesser ..)
  case talMaxn => exact tal_completes (fun x y => if x.ule y then y else x) rfl h (ule_eq_larger ..)
  case talSlt => exact tal_completes (fun x y => flagWord (x.slt y)) rfl h (flagWord_eq_truth _ _ BitVec.slt_iff_toInt_lt)
  case talSltn => exact tal_completes (fun x y => flagWord (x.ult y)) rfl h (flagWord_eq_truth _ _ BitVec.ult_iff_toNat_lt)
  case taddi a imm => exact talImm_completes (· + imm.signExtend 32) rfl h (add_signExtend_eq_ofInt ..)
  case tandi a imm => exact talImm_completes (· &&& imm.setWidth 32) rfl h (by rw [BitVec.ofNat_toNat])
  case tori a imm => exact talImm_completes (· ||| imm.setWidth 32) rfl h (by rw [BitVec.ofNat_toNat])
  case txori a imm => exact talImm_completes (· ^^^ imm.setWidth 32) rfl h (by rw [BitVec.ofNat_toNat])
  case tshli a imm => exact talImm_completes (· <<< imm.toNat) rfl h (shiftLeft_eq_ofNat ..)
  case tshri a imm => exact talImm_completes (· >>> imm.toNat) rfl h (ushiftRight_eq_ofNat ..)
  case tslti a imm =>
    exact talImm_completes (fun x => flagWord (x.slt (imm.signExtend 32))) rfl h
      (flagWord_eq_truth _ _ (by rw [BitVec.slt_iff_toInt_lt, BitVec.toInt_signExtend_of_le (by decide)]))
  case tlui imm =>
    exact tellerOp_completes (act := fun s g => .done s [(d, (g.teller.reg d <<< 18) + imm.setWidth 32)] 1) rfl h (by rw [tlui_eq_ofNat])
end Sys2Proof.Machine
end

section
/-! PROOFS. The end of a group: O39. -/

namespace Sys2Proof.Machine
open Sys2Proof.Claims

/-! ## The end of a group (R11, R14, R21, R393, R394) -/

theorem State.launch?_modLaunch (s : State) (a b : Nat) (f : Launch → Launch) (hf : ∀ l, (f l).seq = l.seq) :
    (s.modLaunch a f).launch? b = (s.launch? b).map fun l => if l.seq == a then f l else l := by
  simp only [State.launch?, State.modLaunch]
  exact find?_updWhere _ _ _ (fun l => by simp [hf]) _

theorem State.launch?_seq {s : State} {n : Nat} {l : Launch} (h : s.launch? n = some l) : l.seq = n := by
  simpa using List.find?_some h

/-- A launch once a group of it is over (R393, R394). -/
def Launch.groupOver (l : Launch) (g : Group) : Launch :=
  { l with status := if g.stany then reduceStatus l.redop l.status g.status else l.status, ngroups := l.ngroups + 1,
           vcycles := min (l.vcycles + g.cycle) (2 ^ 64 - 1), doneGroups := g.id :: l.doneGroups }

/-- The state once a group has left: its launch has its totals, and its accesses' hints, routes and held slots are gone with it. -/
def State.withoutGroup (s : State) (g : Group) : State :=
  let t := (s.modLaunch g.id.launch (·.groupOver g)).modCore g.core fun k => { k with brkPass := k.brkPass.filter fun p => p.1 != g.id }
  { t with accs := t.accs.filter (fun a => a.gid != g.id || !a.isPrefetch), groups := t.groups.filter (·.id != g.id),
           routes := t.routes.filter (·.gid != g.id), held := t.held.filter (·.owner != g.id) }

/-- The state once the last group of a column has left it (R14). -/
def State.withoutColumn (s : State) (id : ColId) : State :=
  { s with columns := s.columns.filter (·.id != id), exch := { s.exch with trigger := true }, faults := s.faults.filter fun f => f.col != id }

theorem exec_groupComplete {s : State} {g : Group} (hg : s.group? g.id = some g) (hr : ∀ th ∈ g.threads, th.retired = true)
    (hd : g.teller.done = true ∨ g.teller.isDefault = true) (hc : ∀ c ∈ s.cmds, c.gid ≠ g.id) (hs : s.stopOf g.id.column = none) :
    exec (.groupComplete g.id) s =
      .next (if (s.withoutGroup g).groups.any (·.id.column == g.id.column) then s.withoutGroup g
        else (s.withoutGroup g).withoutColumn g.id.column) := by
  have hended : (g.threads.all (·.retired) && (g.teller.done || g.teller.isDefault) && !(s.cmds.any (·.gid == g.id))
      && (s.stopOf g.id.column).isNone) = true := by
    have hcmds : s.cmds.any (·.gid == g.id) = false := by simpa using hc
    simp [hs, hcmds, hd]
    exact hr
  change execGroupComplete g.id s = _
  unfold execGroupComplete
  simp only [hg, hended, Bool.not_true, Bool.false_eq_true, if_false]
  exact (apply_ite Host.Outcome.next _ _ _).symm

/-- Settles O39. -/
theorem groupsEnd : Obligations.GroupsEnd := by
  unfold Obligations.GroupsEnd
  intro s g hg hr hd hc hs
  refine ⟨_, exec_groupComplete hg hr hd hc hs, ?_⟩
  have hlaunch : ∀ l, s.launch? g.id.launch = some l → (s.withoutGroup g).launch? g.id.launch = some (l.groupOver g) := by
    intro l hl
    refine (State.launch?_modLaunch s _ _ _ ?_).trans ?_
    · exact fun _ => rfl
    · simp [hl, State.launch?_seq hl]
  have hany : (s.withoutGroup g).groups.any (·.id.column == g.id.column) = true ↔ ∃ x ∈ s.groups, x.id ≠ g.id ∧ x.id.column = g.id.column := by
    simp [State.withoutGroup]
  by_cases h : ∃ x ∈ s.groups, x.id ≠ g.id ∧ x.id.column = g.id.column
  · rw [if_pos (hany.2 h), if_pos h]
    exact ⟨rfl, rfl, rfl, fun l hl => ⟨_, hlaunch l hl, rfl, rfl, rfl⟩, rfl⟩
  · rw [if_neg (mt hany.1 h), if_neg h]
    exact ⟨rfl, rfl, rfl, fun l hl => ⟨_, hlaunch l hl, rfl, rfl, rfl⟩, rfl⟩
end Sys2Proof.Machine
end

section
/-! PROOFS. What falls due, coin deadlocks and retirements: the clauses of O38 about one thread (R26, R115, R127, R135, R201, R393). -/

namespace Sys2Proof.Machine
open Sys2Proof.Claims

/-! ## States with the same groups -/

theorem State.group?_congr {s t : State} (h : t.groups = s.groups) (g : GroupId) : t.group? g = s.group? g := by
  simp [State.group?, h]

theorem State.group?_modGroup_self {s : State} {gid : GroupId} {g : Group} (hg : s.group? gid = some g) {f : Group → Group}
    (hid : ∀ x, (f x).id = x.id) : (s.modGroup gid f).group? gid = some (f g) := by
  simp [State.group?_modGroup s gid gid f hid, hg, State.group?_id hg]

theorem State.trace_groups (s : State) (g : Group) (ev id crew : Nat) (teller : Bool) (mask : Nat) (pc : Addr) :
    (s.trace g ev id crew teller mask pc).groups = s.groups := by
  unfold State.trace
  split <;> rfl

/-! ## What falls due (R26, R115, R127, R201) -/

section Strands
variable {s : State} {gid : GroupId} {g : Group} {tid n : Nat} {st : Strand}

theorem State.groupCycle?_eq (hg : s.group? gid = some g) : s.groupCycle? gid = some (g, s.cycle g.core) := by
  simp [State.groupCycle?, hg]

/-- What a change of a strand that keeps its number makes of that strand. -/
theorem State.strand?_modStrand_self (hst : s.strand? gid tid n = some st) {f : Strand → Strand} (hf : ∀ x, (f x).n = x.n) :
    (s.modStrand gid tid n f).strand? gid tid n = some (f st) := by
  simp [State.strand?_modStrand _ _ _ _ _ _ _ _ hf, hst]

@[simp] theorem Strand.land_n (st : Strand) (c : Nat) (ws : List (Nat × Word)) (f : Flags) : (st.land c ws f).n = st.n := by
  unfold Strand.land
  split <;> rfl

@[simp] theorem Strand.landDue_n (st : Strand) (c : Nat) : (st.landDue c).n = st.n := by
  unfold Strand.landDue
  have hfold : ∀ (ps : List Pend) (x : Strand), (ps.foldl (fun st p => st.land c p.writes p.flags) x).n = x.n := by
    intro ps
    induction ps with
    | nil => exact fun _ => rfl
    | cons p ps ih => exact fun x => (ih _).trans (Strand.land_n ..)
  exact hfold _ _

theorem resultLands_answers (hg : s.group? gid = some g) (hst : s.strand? gid tid n = some st) :
    answers (.resultLands gid tid n) s fun t => t.strand? gid tid n = some (st.landDue (s.cycle g.core)) := by
  refine ⟨s.modStrand gid tid n (·.landDue (s.cycle g.core)), ?_, State.strand?_modStrand_self hst (by simp)⟩
  change execResultLands gid tid n s = _
  simp [execResultLands, State.groupCycle?_eq hg]

theorem promote_answers (hst : s.strand? gid tid n = some st) :
    answers (.promote gid tid n) s fun t =>
      t.strand? gid tid n = some { st with promoted := st.promoted || decide (256 ≤ st.wait) } := by
  refine ⟨_, rfl, (State.strand?_modStrand_self hst (by intro x; split <;> rfl)).trans (congrArg some ?_)⟩
  obtain ⟨⟩ := st
  unfold Strand.promotes
  dsimp only
  grind

theorem Strand.hint_of_over (st : Strand) (c : Nat) :
    (if st.hintOver c then none else st.hint) = st.hint.filter fun h => decide (c < h.until_) := by
  unfold Strand.hintOver
  cases st.hint with
  | none => simp
  | some h => by_cases hu : h.until_ ≤ c <;> simp [hu, Option.filter, Nat.not_lt.2, Nat.not_le.1]

theorem hintExpire_answers (hg : s.group? gid = some g) (hst : s.strand? gid tid n = some st) :
    answers (.hintExpire gid tid n) s fun t =>
      t.strand? gid tid n = some { st with hint := st.hint.filter fun h => decide (s.cycle g.core < h.until_) } := by
  refine ⟨s.modStrand gid tid n fun st => if st.hintOver (s.cycle g.core) then { st with hint := none } else st, ?_,
    (State.strand?_modStrand_self hst (by intro x; split <;> rfl)).trans (congrArg some ?_)⟩
  · change execHintExpire gid tid n s = _
    simp [execHintExpire, State.groupCycle?_eq hg]
  · rw [← Strand.hint_of_over]
    split <;> rfl

theorem registerPresent_answers {th : Thread} {r : Nat} (hg : s.group? gid = some g) (ht : s.thread? gid tid = some th)
    (hv : (th.greg r).visible ≤ s.cycle g.core) :
    answers (.registerPresent gid tid r) s fun t => ∃ y, t.thread? gid tid = some y ∧ y.greg r = { th.greg r with visible := 0 } ∧
      ∀ m, m ≠ r → y.greg m = th.greg m := by
  let c := s.cycle g.core
  refine ⟨s.modThread gid tid fun t => if (t.greg r).arrives c then t.setGreg r { t.greg r with visible := 0 } else t, ?_, ?_⟩
  · change execRegisterPresent gid tid r s = _
    simp [execRegisterPresent, State.groupCycle?_eq hg, c]
  · refine ⟨_, by simp [State.thread?_modThread, ht]; rfl, ?_⟩
    by_cases h0 : (th.greg r).visible = 0
    · have hsame : th.greg r = { th.greg r with visible := 0 } := by rw [← h0]
      simp [GReg.arrives, h0, ← hsame]
    · simp +contextual [GReg.arrives, h0, hv, c, Thread.greg_setGreg]

end Strands

/-! ## Coin deadlock (R43, R135) -/

theorem bestBy_eq_none {α : Type} {better : α → α → Bool} {l : List α} : bestBy better l = none ↔ l = [] := by
  cases l with
  | nil => simp [bestBy]
  | cons x xs =>
    simp only [bestBy, reduceCtorEq, iff_false]
    split
    · simp
    · split <;> simp

theorem coinDeadlock_answers {s : State} {gid : GroupId} {g : Group} (hg : s.group? gid = some g) (hd : 65536 ≤ g.deadlock)
    (hc : columnRuns s g) (hl : (s.lanesOn g.core).filter (·.gid == gid) ≠ []) :
    answers (.coinDeadlock gid) s fun t => (∃ y, t.group? gid = some y ∧ y.deadlock = 0) ∧
      ∃ st tr, t.stopOf gid.column = some st ∧ st.reason = .trap ∧ st.trap = some tr ∧ tr.cls = 7 ∧ tr.code = 0 := by
  obtain ⟨c, hcol, hstop⟩ := hc
  have hid := State.group?_id hg
  obtain ⟨l, hbest⟩ := Option.ne_none_iff_exists'.1 (mt (bestBy_eq_none
    (better := fun a b : Lane => decide (a.tid < b.tid) || (a.tid == b.tid && decide (a.st.n < b.st.n)))).1 hl)
  have hexec : exec (.coinDeadlock gid) s = .next ((s.modGroup gid fun g => { g with deadlock := 0 }).takeTrap gid
      { Trap.ofStrand 7 0 gid l.tid l.st.n l.st.pc with atIssue := false }) := by
    change execCoinDeadlock gid s = _
    unfold execCoinDeadlock
    simp only [hg, deadlockLimit, Nat.not_lt.2 hd, if_false, hbest]
  refine ⟨_, hexec, ⟨{ g with deadlock := 0 }, ?_, rfl⟩, ?_⟩
  · rw [State.group?_congr (State.takeTrap_groups _ _ _)]
    exact State.group?_modGroup_self hg fun _ => rfl
  · have hcol' : (s.modGroup gid fun g => { g with deadlock := 0 }).column? gid.column = some c := hid ▸ hcol
    obtain ⟨-, st, hst, hreason, -, htrap⟩ := State.takeTrap_spec hcol' hstop _
    exact ⟨st, _, hst, hreason, htrap, rfl, rfl⟩

/-! ## Retirement (R20, R36, R195, R243, R393) -/

/-- The group's status counts the thread in, and the thread has retired with its registers absent. -/
def State.RetiredIn (s : State) (gid : GroupId) (tid : Nat) (status : Word) : Prop :=
  ∃ y, s.group? gid = some y ∧ y.stany = true ∧ y.status = status ∧
    ∃ z, y.thread? tid = some z ∧ z.retired = true ∧ ∀ r ∈ z.gregs, r.p = false

section Retirement
variable {s : State} {gid : GroupId} {tid : Nat} {status : Word}

theorem State.RetiredIn.of_groups {t : State} (h : s.RetiredIn gid tid status) (hg : t.groups = s.groups) : t.RetiredIn gid tid status := by
  unfold State.RetiredIn
  rwa [State.group?_congr hg]

/-- A change of a group that keeps its status, and of each thread whether it has retired and its registers. -/
theorem State.RetiredIn.modGroup (h : s.RetiredIn gid tid status) (gid' : GroupId) {f : Group → Group} (hid : ∀ x, (f x).id = x.id)
    (hf : ∀ x, (f x).stany = x.stany ∧ (f x).status = x.status ∧ ∀ z, x.thread? tid = some z →
      ∃ z', (f x).thread? tid = some z' ∧ z'.retired = z.retired ∧ z'.gregs = z.gregs) :
    (s.modGroup gid' f).RetiredIn gid tid status := by
  obtain ⟨y, hy, hany, hstatus, z, hz, hretired, hgregs⟩ := h
  obtain ⟨fany, fstatus, fthread⟩ := hf y
  obtain ⟨z', hz', fretired, fgregs⟩ := fthread z hz
  refine ⟨_, (State.group?_modGroup s gid gid' f hid).trans (by rw [hy]; rfl), ?_⟩
  dsimp only
  split
  · exact ⟨fany.trans hany, fstatus.trans hstatus, z', hz', fretired.trans hretired, fgregs ▸ hgregs⟩
  · exact ⟨hany, hstatus, z, hz, hretired, hgregs⟩

theorem State.RetiredIn.foldl {α : Type} {f : State → α → State} (hf : ∀ u a, u.RetiredIn gid tid status → (f u a).RetiredIn gid tid status)
    (l : List α) (h : s.RetiredIn gid tid status) : (l.foldl f s).RetiredIn gid tid status := by
  induction l generalizing s with
  | nil => exact h
  | cons a l ih => exact ih (hf _ _ h)

theorem State.RetiredIn.endPhase (h : s.RetiredIn gid tid status) (gid' : GroupId) (b : Nat) :
    (s.endPhase gid' b).RetiredIn gid tid status := by
  unfold State.endPhase
  split
  · exact h
  · refine State.RetiredIn.modGroup ?_ gid' (fun _ => rfl) (fun x => ⟨rfl, rfl, fun z hz =>
      ⟨_, (List.getElem?_map ..).trans (congrArg _ hz), rfl, rfl⟩⟩)
    · split
      · exact (h.foldl (fun u k hu => hu.of_groups (State.trace_groups ..)) _).of_groups (State.trace_groups ..)
      · exact h.foldl (fun u k hu => hu.of_groups (State.trace_groups ..)) _

theorem State.RetiredIn.retireFromBarrier (h : s.RetiredIn gid tid status) (gid' : GroupId) (tid' b : Nat) :
    (s.retireFromBarrier gid' tid' b).RetiredIn gid tid status := by
  have hbar := h.modGroup gid' (f := (·.modBar b fun x => { x with expect := x.expect - 1 })) (fun _ => rfl)
    (fun x => ⟨rfl, rfl, fun z hz => ⟨z, hz, rfl, rfl⟩⟩)
  unfold State.retireFromBarrier
  split
  · exact h
  · dsimp only
    split
    · exact h
    · split
      · exact hbar.endPhase gid' b
      · exact hbar

theorem threadRetire_answers {g : Group} {th : Thread} (hg : s.group? gid = some g) (ht : g.thread? tid = some th)
    (hr : s.retires g th = true) :
    answers (.threadRetire gid tid) s fun t => t.RetiredIn gid tid
      (reduceStatus (match s.launch? gid.launch with | some l => l.redop | none => 0) g.status th.status) := by
  let redop := match s.launch? gid.launch with | some l => l.redop | none => 0
  let u := s.modGroup gid fun g =>
    { g.modThread tid fun t => { t with retired := true, gregs := t.gregs.map fun _ => .reset } with
      status := reduceStatus redop g.status th.status, stany := true, dq := unread g.dq th }
  have hexec : exec (.threadRetire gid tid) s =
      .next ((List.range g.kernel.nbar).foldl (fun s b => s.retireFromBarrier gid tid b) u) := by
    change execThreadRetire gid tid s = _
    simp only [execThreadRetire, hg, ht, hr, Bool.not_true, Bool.false_eq_true, if_false]
    rfl
  have hretired : u.RetiredIn gid tid (reduceStatus redop g.status th.status) := by
    refine ⟨_, State.group?_modGroup_self hg (fun _ => rfl), rfl, rfl, _, (List.getElem?_modify_eq ..).trans (congrArg _ ht), rfl, ?_⟩
    simp [GReg.reset]
  exact ⟨_, hexec, hretired.foldl (fun u b hu => hu.retireFromBarrier gid tid b) _⟩

end Retirement

end Sys2Proof.Machine
end

section
/-! PROOFS. Memory operations leave the work alone: what is issued, the clocks, the groups, the columns and the cores stay. -/

namespace Sys2Proof.Machine
open Sys2Proof.Claims

/-! ## The work of a state -/

/-- What the device works on: the issue of the cycle, the clocks of the dies, the groups, the columns and the cores. -/
structure Work where
  issue : List Issue
  dies : List Die
  groups : List Group
  columns : List Column
  cores : List Core

/-- The work of a state, without its memory, its host and its peers. -/
def State.work (s : State) : Work := ⟨s.issue, s.dies, s.groups, s.columns, s.cores⟩

theorem State.work_foldl {α : Type} {f : State → α → State} (hf : ∀ u a, (f u a).work = u.work) (l : List α) (s : State) :
    (l.foldl f s).work = s.work := by
  induction l generalizing s with
  | nil => rfl
  | cons a l ih => exact (ih _).trans (hf _ _)

theorem State.work_ite {p : Prop} [Decidable p] {a b : State} {w : Work} (ha : a.work = w) (hb : b.work = w) :
    (if p then a else b).work = w := by
  split
  · exact ha
  · exact hb

/-! ## Messages -/

@[simp] theorem State.send_work (s : State) (o : Output) : (s.send o).work = s.work := rfl

@[simp] theorem State.notify_work (s : State) (v : Nat) : (s.notify v).work = s.work := by
  unfold State.notify
  split <;> rfl

@[simp] theorem State.sendPeer_work (s : State) (chip lane : Nat) (m : PeerMsg) : (s.sendPeer chip lane m).work = s.work := by
  unfold State.sendPeer
  split <;> rfl

@[simp] theorem State.toPeer_work (s : State) (chip line : Nat) (m : PeerMsg) : (s.toPeer chip line m).work = s.work :=
  State.sendPeer_work ..

@[simp] theorem State.askPeer_work (s : State) (chip asid a : Nat) (k : RemoteKind) : (s.askPeer chip asid a k).work = s.work :=
  State.toPeer_work ..

/-! ## Lines and their homes -/

@[simp] theorem State.modL2_work (s : State) (k : LineKey) (f : L2Line → L2Line) : (s.modL2 k f).work = s.work := rfl

@[simp] theorem State.modAcc_work (s : State) (id : Nat) (f : Acc → Acc) : (s.modAcc id f).work = s.work := rfl

@[simp] theorem State.writeBackL1_work (s : State) (l : L1Line) : (s.writeBackL1 l).work = s.work := by
  unfold State.writeBackL1 State.mergeHome
  split
  · rfl
  · split <;> rfl

@[simp] theorem State.putL2_work (s : State) (k : LineKey) (off : Nat) (bs : List Byte) : (s.putL2 k off bs).work = s.work := by
  unfold State.putL2
  dsimp only
  split <;> rfl

@[simp] theorem State.settleLine_work (s : State) (k : LineKey) : (s.settleLine k).work = s.work := by
  refine State.work_foldl (fun u a => ?_) _ _
  split
  · exact State.work_foldl (fun u x => State.putL2_work ..) _ _
  · rfl

@[simp] theorem State.homeTake_work (s : State) (k : LineKey) : (s.homeTake k).work = s.work :=
  (State.settleLine_work ..).trans (State.work_foldl (fun u l => State.writeBackL1_work u l) _ s)

@[simp] theorem State.writeL2_work (s : State) (k : LineKey) (off : Nat) (bs : List Byte) : (s.writeL2 k off bs).work = s.work := by
  simp [State.writeL2]

@[simp] theorem State.settleFor_work (s : State) (core asid line : Nat) : (s.settleFor core asid line).work = s.work := by
  unfold State.settleFor
  split
  · split <;> simp
  · rfl

/-! ## The bridge -/

@[simp] theorem State.evictHalf_work (s : State) (h : BridgeHalf) (data : List Byte) : (s.evictHalf h data).work = s.work := by
  unfold State.evictHalf
  dsimp only
  split
  · rfl
  · split <;> rfl

@[simp] theorem State.returnHalves_work (s : State) (hpa : Nat) (data : Line) : (s.returnHalves hpa data).work = s.work := by
  refine State.work_foldl (fun u a => ?_) _ _
  split
  · split <;> simp
  · rfl

@[simp] theorem State.evictL2_work (s : State) (k : LineKey) : (s.evictL2 k).work = s.work := by
  unfold State.evictL2
  dsimp only
  split
  · simp
  · split
    · exact (State.returnHalves_work ..).trans (State.homeTake_work s k)
    · split <;> exact State.homeTake_work s k

@[simp] theorem State.fillL2_work (s : State) (k : LineKey) (p : Place) (perm : Perm) (v : Option VTag) (data : Line) :
    (s.fillL2 k p perm v data).work = s.work := by
  change State.work (if _ then s else _) = _
  split
  · rfl
  · split <;> simp

@[simp] theorem State.askHost_work (s : State) (r : HostReq) (hpa : Nat) : (s.askHost r hpa).work = s.work := by
  refine State.work_foldl (fun u h => ?_) _ s
  split
  · rfl
  · split <;> rfl

@[simp] theorem State.bridgeRoom_work (s : State) : s.bridgeRoom.work = s.work := by
  unfold State.bridgeRoom
  split
  · rfl
  · split <;> simp

@[simp] theorem State.hostAnswer_work (s : State) (r : HostReq) (hpa : Nat) : (s.hostAnswer r hpa).work = s.work := by
  refine Eq.trans ?_ (State.bridgeRoom_work s)
  unfold State.hostAnswer
  exact State.work_ite rfl (State.work_ite (State.work_foldl (fun _ (b : BridgeHalf) => State.evictHalf_work _ _ b.data) _ _) (State.fillL2_work ..))

@[simp] theorem State.hostLine_work (s : State) (ctx : Nat) (key : LineKey) (p : Place) (perm : Perm) (hpa : Nat) (own : Bool) :
    (s.hostLine ctx key p perm hpa own).work = s.work := by
  unfold State.hostLine
  dsimp only
  split <;> simp

@[simp] theorem State.flushHalves_work (s : State) (hpa n : Nat) : (s.flushHalves hpa n).work = s.work :=
  State.work_foldl (fun _ _ => State.evictHalf_work ..) _ _

@[simp] theorem State.portWrite_work (s : State) (a n : Nat) (line : Nat → List Byte) : (s.portWrite a n line).work = s.work := by
  refine State.work_foldl (fun u h => ?_) _ _
  split <;> rfl

/-! ## Translation and the sites of an access -/

@[simp] theorem State.tlbUse_work (s : State) (asid va : Nat) : (s.tlbUse asid va).work = s.work := by
  unfold State.tlbUse
  split <;> rfl

@[simp] theorem State.walked_work (s : State) (ctx va : Nat) (l : Leaf) : (s.walked ctx va l).work = s.work := by
  change (s.walkFill ctx va).work = _
  have hnote : ∀ (u : State) (a : Nat) (p : Nat × Nat), (u.walkNote a va p.1 p.2).work = u.work := fun _ _ _ => rfl
  exact State.work_foldl (fun u p => hnote u (s.ctxAt ctx).asid p) _ s

theorem State.translate_work {s t : State} {ctx va : Nat} {w : Want} {core : Option Nat} {fresh : Bool} {x : Xlat}
    (h : s.translate ctx va w core fresh = .ok (x, t)) : t.work = s.work := by
  unfold State.translate at h
  grind [State.tlbUse_work, State.walked_work]

theorem State.missSite_work {s t : State} {ctx va : Nat} {w : Want} {x : Xlat} {y : Site} {p : Perm}
    (h : s.missSite ctx va w x = .ok (y, p, t)) : t.work = s.work := by
  unfold State.missSite at h
  grind [State.hostLine_work]

theorem State.site_work {s t : State} {ctx va : Nat} {w : Want} {core : Option Nat} {y : Site} {p : Perm}
    (h : s.site ctx va w core = .ok (y, p, t)) : t.work = s.work := by
  unfold State.site at h
  split at h
  · cases h
  split at h
  · cases h
  dsimp only at h
  split at h
  · rename_i l hl
    split at h
    · cases h
    split at h
    · split at h
      · cases h
        exact State.work_ite rfl (State.hostLine_work ..)
      · cases h
        rfl
    · split at h
      · cases h
      · rename_i x u hu
        exact (State.missSite_work h).trans ((State.translate_work hu).trans (State.evictL2_work ..))
  · split at h
    · cases h
    · rename_i x u hu
      exact (State.missSite_work h).trans (State.translate_work hu)

theorem State.sites_work {s t : State} {ctx : Nat} {w : Want} {r : Rights} {l : List (Nat × Nat)} {ys : List (Site × Nat × Nat)}
    (h : s.sites ctx w r l = .ok (ys, t)) : t.work = s.work := by
  induction l generalizing s ys with
  | nil =>
    cases h
    rfl
  | cons x l ih =>
    unfold State.sites at h
    grind [State.site_work, State.settleFor_work]

@[simp] theorem State.writeSite_work (s : State) (x : Site) (va : Nat) (bs : List Byte) : (s.writeSite x va bs).work = s.work := by
  unfold State.writeSite
  split
  · simp
  · rename_i p
    cases p with
    | lpddr pa =>
      dsimp only
      split
      · exact State.portWrite_work ..
      · rfl
    | wstore pa => rfl
    | host hpa => exact (State.portWrite_work ..).trans (State.flushHalves_work s hpa bs.length)
    | remote chip asid a => exact State.askPeer_work ..

theorem State.vaWrite_work {s t : State} {ctx va : Nat} {bs : List Byte} {r : Rights} (h : s.vaWrite ctx va bs r = .ok t) : t.work = s.work := by
  unfold State.vaWrite at h
  split at h
  · cases h
  · rename_i xs u hu
    cases h
    exact (State.work_foldl (fun u x => State.writeSite_work ..) _ _).trans (State.sites_work hu)

/-! ## Rings -/

@[simp] theorem State.modRing_work (s : State) (ctx ring : Nat) (f : Ring → Ring) : (s.modRing ctx ring f).work = s.work := rfl

@[simp] theorem State.ringLost_work (s : State) (ctx ring : Nat) : (s.ringLost ctx ring).work = s.work := rfl

theorem eq_ok_of_ite_error {p : Prop} [Decidable p] {x : Except Denied State} {d : Denied} {t : State}
    (h : (if p then x else .error d) = .ok t) : x = .ok t := by
  split at h
  · exact h
  · cases h

theorem State.ringPut_work {s t : State} {ctx ring : Nat} {bytes : List Byte} (h : s.ringPut ctx ring bytes = some t) : t.work = s.work := by
  unfold State.ringPut at h
  dsimp only at h
  split at h
  · cases h
  split at h
  · cases h
    rfl
  split at h
  · cases h
    rfl
  · cases h
    rfl
  · rename_i u hu
    cases h
    have huw : u.work = s.work := State.vaWrite_work (eq_ok_of_ite_error hu)
    exact State.work_ite ((State.notify_work ..).trans huw) (State.work_ite ((State.notify_work ..).trans huw) huw)

/-- Writing out the trace of a core changes of the work that core's queue alone (R402, R403). -/
theorem State.flushTrace_work (s : State) (core : Nat) (q : List (Nat × List Byte)) :
    ∃ q', (s.flushTrace core q).work = (s.modCore core fun k => { k with traceQ := q' }).work := by
  have hmod : ∀ {t u : State} (f : Core → Core), t.work = u.work → (t.modCore core f).work = (u.modCore core f).work := by
    intro t u f h
    injection h with hi hd hg hc hk
    simp [State.work, State.modCore, *]
  induction q generalizing s with
  | nil => exact ⟨[], rfl⟩
  | cons r rest ih =>
    unfold State.flushTrace
    split
    · rename_i t ht
      obtain ⟨q', hq⟩ := ih t
      exact ⟨q', hq.trans (hmod _ (State.ringPut_work ht))⟩
    · split
      · exact ⟨_, rfl⟩
      · obtain ⟨q', hq⟩ := ih (s.ringLost r.1 ringTrace)
        exact ⟨q', hq⟩

end Sys2Proof.Machine
end

section
/-! PROOFS. A core's slot opens, and what it issues: the frame of FORM_BUNDLE (R122, R400, R402). -/

namespace Sys2Proof.Machine
open Sys2Proof.Claims

/-! ## What opening a slot changes (R122, R400, R402) -/

theorem State.coreAt_congr {s t : State} (h : t.cores = s.cores) (core : Nat) : t.coreAt core = s.coreAt core := by
  simp [State.coreAt, h]

theorem State.cycle_congr {s t : State} (h : t.dies = s.dies) (core : Nat) : t.cycle core = s.cycle core := by
  simp [State.cycle, h]

@[simp] theorem State.sample_work (s : State) (pc : Addr) (reason : Nat) : (s.sample pc reason).work = s.work := by
  unfold State.sample
  dsimp only
  split <;> rfl

@[simp] theorem State.samples_work (s : State) (core : Nat) (cs : List Runner) (fs : List Formed) : (s.samples core cs fs).work = s.work := by
  refine State.work_foldl (fun u cl => ?_) _ _
  split
  · simp
  · split
    · rfl
    · refine State.work_ite rfl ?_
      split <;> simp

@[simp] theorem State.useCode_work (s : State) (core : Nat) (l : Lane) : (s.useCode core l).work = s.work := State.work_ite rfl rfl

/-- The accounts, the samples and the code lines of a slot at which the bundles `fs` have been formed (R93, R404, R406). -/
def State.chargeSlot (s : State) (core : Nat) (cs : List Runner) (fs : List Formed) : State :=
  fs.foldl (fun s f => s.useCode core f.lead.lane) ((s.account core cs).samples core cs fs)

theorem State.chargeSlot_work (s : State) (core : Nat) (cs : List Runner) (fs : List Formed) :
    (s.chargeSlot core cs fs).work = (s.account core cs).work :=
  (State.work_foldl (fun u (f : Formed) => State.useCode_work u core f.lead.lane) fs _).trans (State.samples_work ..)

/-- The state once the bundles `fs` are issued on the cycle. -/
def State.issueBundles (s : State) (core : Nat) (cs : List Runner) (fs : List Formed) : State :=
  { s.chargeSlot core cs fs with issue := (s.chargeSlot core cs fs).issue ++ fs.map (·.issue core) }

theorem State.issueBundles_issue (s : State) (core : Nat) (cs : List Runner) (fs : List Formed) :
    (s.issueBundles core cs fs).issue = (s.chargeSlot core cs fs).issue ++ fs.map (·.issue core) := rfl

theorem State.issueBundles_slotDue (s : State) (core : Nat) (cs : List Runner) (fs : List Formed) (c : Nat) :
    (s.issueBundles core cs fs).slotDue c = (s.chargeSlot core cs fs).slotDue c := rfl

/-- A core once its slot has come: a stop asked of it has taken effect, and `q` is what is left of its trace (R400, R402). -/
def Core.atSlot (k : Core) (slot : Nat) (q : List (Nat × List Byte)) : Core :=
  { k with formed := some slot, stopped := k.stopped || k.stopAsked, stopAsked := false, traceQ := q }

/-- The state in which the bundles of a core's slot are formed. -/
def State.openSlot (s : State) (core : Nat) : State :=
  let u := (s.dropOnce core).modCore core fun k => k.atSlot (s.cycle core) k.traceQ
  u.flushTrace core (u.coreAt core).traceQ

/-- The bundles that a core forms at its slot, in the order in which they take effect. -/
def State.newBundles (s : State) (core : Nat) : List Formed :=
  if ((s.openSlot core).coreAt core).standsStill then []
  else Formed.sorted ((s.openSlot core).formed core (s.cycle core) ((s.openSlot core).runners core))

section OpenSlot
variable (s : State) (core : Nat)

/-- Opening a slot changes of the work the core alone. -/
theorem State.openSlot_work : ∃ q,
    (s.openSlot core).work =
      ((s.modCore core fun k => k.atSlot (s.cycle core) k.traceQ).modCore core fun k => { k with traceQ := q }).work :=
  State.flushTrace_work _ _ _

theorem State.openSlot_groups : (s.openSlot core).groups = s.groups := (State.openSlot_work s core).elim fun _ h => congrArg Work.groups h
theorem State.openSlot_columns : (s.openSlot core).columns = s.columns := (State.openSlot_work s core).elim fun _ h => congrArg Work.columns h
theorem State.openSlot_dies : (s.openSlot core).dies = s.dies := (State.openSlot_work s core).elim fun _ h => congrArg Work.dies h
theorem State.openSlot_issue : (s.openSlot core).issue = s.issue := (State.openSlot_work s core).elim fun _ h => congrArg Work.issue h

variable {s core}

theorem State.coreAt_modCore_twice (hc : core < s.cores.length) (f g : Core → Core) :
    ((s.modCore core f).modCore core g).coreAt core = g (f (s.coreAt core)) := by
  have hlen : core < (s.modCore core f).cores.length := by simpa [State.modCore] using hc
  rw [State.coreAt_modCore, if_pos ⟨rfl, hlen⟩, State.coreAt_modCore, if_pos ⟨rfl, hc⟩]

theorem State.openSlot_coreAt (hc : core < s.cores.length) :
    ∃ q, (s.openSlot core).coreAt core = (s.coreAt core).atSlot (s.cycle core) q := by
  obtain ⟨q, h⟩ := State.openSlot_work s core
  refine ⟨q, (State.coreAt_congr (congrArg Work.cores h) core).trans ?_⟩
  exact State.coreAt_modCore_twice hc _ _

/-- Without trace records to write and code lines that serve one issue alone, opening a slot changes the core alone. -/
theorem State.openSlot_eq (hc : core < s.cores.length) (hk : (s.coreAt core).standsStill = false) (hone : ∀ l ∈ s.code, l.once = false) :
    (∃ ks, s.openSlot core = { s with cores := ks }) ∧ (s.openSlot core).coreAt core = (s.coreAt core).atSlot (s.cycle core) [] := by
  have hq : (s.coreAt core).traceQ = [] := by
    simp only [Core.standsStill, Bool.or_eq_false_iff] at hk
    simpa using hk.2
  have hdrop : s.dropOnce core = s := by
    unfold State.dropOnce
    dsimp only
    rw [List.filter_eq_self.2 fun l hl => by simp [hone l hl]]
  have hq' : (((s.dropOnce core).modCore core fun k => k.atSlot (s.cycle core) k.traceQ).coreAt core).traceQ = [] := by
    rw [hdrop, State.coreAt_modCore, if_pos ⟨rfl, hc⟩]
    exact hq
  unfold State.openSlot
  dsimp only
  rw [hq', hdrop]
  refine ⟨⟨_, rfl⟩, ?_⟩
  exact State.coreAt_modCore_twice hc _ _

theorem State.account_coreAt_formed (cs : List Runner) (c : Nat) : ((s.account core cs).coreAt c).formed = (s.coreAt c).formed := by
  unfold State.account
  rw [State.coreAt_modCore]
  split <;> rfl

theorem exec_formBundle (hdue : s.slotDue core = true) :
    exec (.formBundle core) s =
      if ((s.openSlot core).coreAt core).standsStill then .next ((s.openSlot core).samples core ((s.openSlot core).runners core) [])
      else .next ((s.openSlot core).issueBundles core ((s.openSlot core).runners core)
        (Formed.sorted ((s.openSlot core).formed core (s.cycle core) ((s.openSlot core).runners core)))) := by
  change execFormBundle core s = _
  unfold execFormBundle
  rw [hdue]
  rfl

/-- FORM_BUNDLE issues the bundles formed, and the slot is over (R122, R125). -/
theorem formBundle_next (hc : core < s.cores.length) (hdue : s.slotDue core = true) :
    ∃ t, exec (.formBundle core) s = .next t ∧ t.slotDue core = false ∧ t.issue = s.issue ++ (s.newBundles core).map (·.issue core) := by
  obtain ⟨q, hcore⟩ := State.openSlot_coreAt hc
  have hformed : ((s.openSlot core).coreAt core).formed = some (s.cycle core) := by
    rw [hcore]
    rfl
  have hover : ∀ v w : State, v.work = w.work → w.dies = s.dies → (w.coreAt core).formed = some (s.cycle core) → v.slotDue core = false := by
    intro v w hv hd hf
    rw [← State.coreAt_congr (congrArg Work.cores hv)] at hf
    simp [State.slotDue, State.cycle_congr ((congrArg Work.dies hv).trans hd), hf]
  rw [exec_formBundle hdue, State.newBundles]
  generalize (s.openSlot core).runners core = cs
  split
  · have hw := State.samples_work (s.openSlot core) core cs []
    refine ⟨_, rfl, hover _ _ hw (State.openSlot_dies s core) hformed, ?_⟩
    exact (congrArg Work.issue hw).trans ((State.openSlot_issue s core).trans (List.append_nil _).symm)
  · generalize Formed.sorted ((s.openSlot core).formed core (s.cycle core) cs) = fs
    have hw := State.chargeSlot_work (s.openSlot core) core cs fs
    refine ⟨_, rfl, ?_, ?_⟩
    · rw [State.issueBundles_slotDue]
      exact hover _ _ hw (State.openSlot_dies s core) ((State.account_coreAt_formed ..).trans hformed)
    · rw [State.issueBundles_issue]
      exact congrArg (· ++ _) ((congrArg Work.issue hw).trans (State.openSlot_issue s core))

end OpenSlot

end Sys2Proof.Machine
end

section
/-! PROOFS. Which bundles are formed: the lead, the members, their order, at most two a cluster (R122, R125 to R128, R201). -/

namespace Sys2Proof.Machine
open Sys2Proof.Claims

/-! ## The best of a list -/

theorem bestBy_mem {α : Type} {better : α → α → Bool} {l : List α} {x : α} (h : bestBy better l = some x) : x ∈ l := by
  induction l generalizing x with
  | nil => cases h
  | cons a l ih =>
    cases hl : bestBy better l with
    | none =>
      simp only [bestBy, hl, Option.some.injEq] at h
      exact h ▸ List.mem_cons_self
    | some y =>
      simp only [bestBy, hl] at h
      split at h
      · cases h
        exact List.mem_cons_of_mem _ (ih hl)
      · cases h
        exact List.mem_cons_self

theorem bestBy_of_mem {α : Type} (better : α → α → Bool) {l : List α} {a : α} (h : a ∈ l) : ∃ x ∈ l, bestBy better l = some x := by
  obtain ⟨x, hx⟩ := Option.ne_none_iff_exists'.1 (mt (bestBy_eq_none (better := better)).1 (List.ne_nil_of_mem h))
  exact ⟨x, bestBy_mem hx, hx⟩

theorem foldl_min_mem {l : List Nat} {b : Nat} (hb : ∀ x ∈ l, x ≤ b) (hne : l ≠ []) : l.foldl min b ∈ l := by
  obtain ⟨m, hm⟩ := Option.ne_none_iff_exists'.1 (mt List.min?_eq_none_iff.1 hne)
  have hmem := List.min?_mem hm
  rw [List.foldl_min, hm]
  simpa [hb m hmem] using hmem

theorem foldl_max_mem {l : List Nat} (hne : l ≠ []) : l.foldl max 0 ∈ l := by
  obtain ⟨m, hm⟩ := Option.ne_none_iff_exists'.1 (mt List.max?_eq_none_iff.1 hne)
  have hmem := List.max?_mem hm
  rw [List.foldl_max, hm]
  simpa using hmem

/-! ## The lead of a pipe (R125, R201) -/

/-- The lead of candidates of which none is promoted: of the group that ranks oldest, the lowest or the highest strand in turn (R125). -/
def leadAmong (oldest : Option GroupId) (slot : Nat) (cs : List Runner) : Option Runner :=
  match bestBy GroupId.older (cs.map (·.rankAs oldest)) with
  | none => none
  | some grp =>
    let mine := cs.filter fun c => c.rankAs oldest == grp
    let ns := mine.map (·.lane.st.n)
    let n := if slot / 4 % 2 = 0 then ns.foldl min 15 else ns.foldl max 0
    bestBy Runner.lowerPc (mine.filter fun c => c.lane.st.n == n)

section Lead
variable {oldest : Option GroupId} {slot : Nat} {others cs : List Runner}

theorem leadOf_eq : leadOf oldest slot others cs =
    if !(cs.filter (·.lane.st.promoted)).isEmpty then bestBy (Runner.promotedBefore oldest) (cs.filter (·.lane.st.promoted))
    else leadAmong oldest slot
      (if others.any fun c => !c.lane.st.promoted && !c.hinted false then cs.filter fun c => !c.hinted false else cs) := rfl

theorem leadAmong_mem {l : Runner} (h : leadAmong oldest slot cs = some l) : l ∈ cs := by
  unfold leadAmong at h
  split at h
  · cases h
  · exact (List.mem_filter.1 (List.mem_filter.1 (bestBy_mem h)).1).1

theorem leadAmong_isSome {c : Runner} (hc : c ∈ cs) (hn : ∀ x ∈ cs, x.lane.st.n < 16) : ∃ l, leadAmong oldest slot cs = some l := by
  obtain ⟨grp, hgrp, hbest⟩ := bestBy_of_mem GroupId.older (List.mem_map_of_mem (f := (·.rankAs oldest)) hc)
  obtain ⟨m, hm, hrank⟩ := List.mem_map.1 hgrp
  let mine := cs.filter fun c => c.rankAs oldest == grp
  have hmine : m ∈ mine := List.mem_filter.2 ⟨hm, by simpa using hrank⟩
  have hns : mine.map (·.lane.st.n) ≠ [] := List.ne_nil_of_mem (List.mem_map_of_mem hmine)
  have hle : ∀ n ∈ mine.map (·.lane.st.n), n ≤ 15 := by
    intro n h
    obtain ⟨x, hx, rfl⟩ := List.mem_map.1 h
    exact Nat.le_of_lt_succ (hn x (List.mem_filter.1 hx).1)
  let turn := if slot / 4 % 2 = 0 then (mine.map (·.lane.st.n)).foldl min 15 else (mine.map (·.lane.st.n)).foldl max 0
  have hturn : turn ∈ mine.map (·.lane.st.n) := by
    unfold turn
    split
    · exact foldl_min_mem hle hns
    · exact foldl_max_mem hns
  obtain ⟨x, hx, hxn⟩ := List.mem_map.1 hturn
  obtain ⟨l, -, hl⟩ := bestBy_of_mem Runner.lowerPc (l := mine.filter fun c => c.lane.st.n == turn) (List.mem_filter.2 ⟨hx, beq_iff_eq.2 hxn⟩)
  unfold leadAmong
  rw [hbest]
  exact ⟨l, hl⟩

theorem leadOf_mem {l : Runner} (h : leadOf oldest slot others cs = some l) : l ∈ cs := by
  rw [leadOf_eq] at h
  split at h
  · exact (List.mem_filter.1 (bestBy_mem h)).1
  · have hl := leadAmong_mem h
    split at hl
    · exact (List.mem_filter.1 hl).1
    · exact hl

theorem leadOf_promoted {l c : Runner} (h : leadOf oldest slot others cs = some l) (hc : c ∈ cs) (hp : c.lane.st.promoted = true) :
    l.lane.st.promoted = true := by
  have hmem : c ∈ cs.filter (·.lane.st.promoted) := List.mem_filter.2 ⟨hc, hp⟩
  rw [leadOf_eq, if_pos (by simpa using List.ne_nil_of_mem hmem)] at h
  exact (List.mem_filter.1 (bestBy_mem h)).2

/-- A pipe with a candidate that is promoted, or does not yield, has a lead. -/
theorem leadOf_isSome {c : Runner} (hc : c ∈ cs) (hy : c.lane.st.promoted = true ∨ c.hinted false = false)
    (hn : ∀ x ∈ cs, x.lane.st.n < 16) : ∃ l, leadOf oldest slot others cs = some l := by
  rw [leadOf_eq]
  split
  · rename_i hp
    obtain ⟨a, ha⟩ := List.exists_mem_of_ne_nil (cs.filter (·.lane.st.promoted)) (by simpa using hp)
    obtain ⟨l, -, hl⟩ := bestBy_of_mem (Runner.promotedBefore oldest) ha
    exact ⟨l, hl⟩
  · rename_i hp
    have hnone : ∀ x ∈ cs, ¬x.lane.st.promoted = true := by simpa using hp
    have hstays : c.hinted false = false := hy.resolve_left (hnone c hc)
    split
    · exact leadAmong_isSome (List.mem_filter.2 ⟨hc, by simpa using hstays⟩) fun x hx => hn x (List.mem_filter.1 hx).1
    · exact leadAmong_isSome hc hn

end Lead

/-! ## The members of a bundle (R122, R125, R128) -/

section Bundle
variable {oldest : Option GroupId} {lead : Runner} {cs : List Runner}

theorem Runner.sameKey_iff {a b : Runner} : a.sameKey b = true ↔ a.lane.gid.launch = b.lane.gid.launch ∧ a.lane.gid.stage = b.lane.gid.stage ∧
    a.lane.st.n = b.lane.st.n ∧ a.lane.st.pc = b.lane.st.pc := by
  simp [Runner.sameKey, and_assoc]

/-- The member of a bundle in lane `i`. -/
def memberAt (oldest : Option GroupId) (lead : Runner) (cs : List Runner) (i : Nat) : Option Runner :=
  if i = laneOf lead.lane.tid then some lead
  else
    let on := (cs.filter (lead.sameKey ·)).filter fun c => laneOf c.lane.tid == i
    if lead.isCrew then on.find? fun c => c.lane.gid == lead.lane.gid && crewOf c.lane.tid == crewOf lead.lane.tid
    else bestBy (Runner.joinsBefore oldest) on

theorem bundleOf_eq : bundleOf oldest lead cs = (List.range 16).filterMap (memberAt oldest lead cs) := rfl

/-- The member in a lane stands in that lane, and is a candidate of the lead's key. -/
theorem memberAt_spec {i : Nat} {x : Runner} (hl : lead ∈ cs) (h : memberAt oldest lead cs i = some x) :
    laneOf x.lane.tid = i ∧ x ∈ cs ∧ lead.sameKey x = true := by
  have hon : x ∈ (cs.filter (lead.sameKey ·)).filter (fun c => laneOf c.lane.tid == i) → laneOf x.lane.tid = i ∧ x ∈ cs ∧ lead.sameKey x = true := by
    intro hx
    obtain ⟨hsame, hlane⟩ := List.mem_filter.1 hx
    obtain ⟨hcs, hkey⟩ := List.mem_filter.1 hsame
    exact ⟨beq_iff_eq.1 hlane, hcs, hkey⟩
  unfold memberAt at h
  split at h
  · rename_i hi
    cases h
    exact ⟨hi.symm, hl, Runner.sameKey_iff.2 ⟨rfl, rfl, rfl, rfl⟩⟩
  · dsimp only at h
    split at h
    · exact hon (List.mem_of_find?_eq_some h)
    · exact hon (bestBy_mem h)

theorem bundleOf_mem {x : Runner} (hl : lead ∈ cs) (h : x ∈ bundleOf oldest lead cs) : x ∈ cs ∧ lead.sameKey x = true := by
  obtain ⟨i, -, hi⟩ := List.mem_filterMap.1 (bundleOf_eq ▸ h)
  exact (memberAt_spec hl hi).2

theorem lead_mem_bundleOf : lead ∈ bundleOf oldest lead cs := by
  rw [bundleOf_eq]
  exact List.mem_filterMap.2 ⟨laneOf lead.lane.tid, List.mem_range.2 (Nat.mod_lt _ (by decide)), if_pos rfl⟩

/-- One thread a lane, in lane order. -/
theorem bundleOf_pairwise (hl : lead ∈ cs) : (bundleOf oldest lead cs).Pairwise fun a b => laneOf a.lane.tid < laneOf b.lane.tid := by
  rw [bundleOf_eq]
  refine List.Pairwise.filterMap _ (fun i j hij a ha b hb => ?_) List.pairwise_lt_range
  rw [(memberAt_spec hl ha).1, (memberAt_spec hl hb).1]
  exact hij

end Bundle

/-! ## The order of the bundles of a slot (R20, R27, R37) -/

/-- The place of a bundle's class among the nineteen in which the bundles of a slot take effect; an `exit`'s by its strand. -/
def Formed.place (f : Formed) : Nat := if f.cls < 3 then f.cls else if f.cls = 3 then 3 + f.lead.lane.st.n else 19

theorem Formed.place_eq_cls (f : Formed) {i : Nat} (hi : i < 3) : (f.place == i) = (f.cls == i) := by
  rw [Bool.eq_iff_iff]
  simp only [beq_iff_eq, Formed.place]
  split
  · rfl
  · split <;> omega

theorem Formed.place_eq_strand (f : Formed) {i : Nat} (hi : i < 16) : (f.place == 3 + i) = (f.cls == 3 && f.lead.lane.st.n == i) := by
  rw [Bool.eq_iff_iff]
  simp only [beq_iff_eq, Bool.and_eq_true, Formed.place]
  split
  · omega
  · split <;> omega

theorem Formed.sorted_eq (fs : List Formed) : Formed.sorted fs = (List.range 19).flatMap fun i => fs.filter (·.place == i) := by
  have hrange : List.range 19 = [0, 1, 2] ++ (List.range 16).map (3 + ·) := rfl
  have hcls : ∀ i < 3, fs.filter (·.place == i) = fs.filter (·.cls == i) := fun i hi => List.filter_congr fun f _ => f.place_eq_cls hi
  have hexit : ((List.range 16).flatMap fun i => fs.filter (·.place == 3 + i)) =
      (List.range 16).flatMap fun n => fs.filter fun f => f.cls == 3 && f.lead.lane.st.n == n :=
    flatMap_eq_of_mem fun i hi => List.filter_congr fun f _ => f.place_eq_strand (List.mem_range.1 hi)
  simp [hrange, Formed.sorted, List.flatMap_map, hcls, hexit]

theorem Formed.mem_sorted {fs : List Formed} {f : Formed} : f ∈ Formed.sorted fs ↔ f ∈ fs ∧ f.place < 19 := by
  rw [Formed.sorted_eq]
  simp [and_comm]

/-- Sorting a list by a key keeps each element once at most. -/
theorem countP_flatMap_filter_le {α κ : Type} [DecidableEq κ] (key : α → κ) (p : α → Bool) (l : List α) {ks : List κ} (hks : ks.Nodup) :
    (ks.flatMap fun k => l.filter (key · == k)).countP p ≤ l.countP p := by
  induction ks generalizing l with
  | nil => exact Nat.zero_le _
  | cons k ks ih =>
    obtain ⟨hk, hnd⟩ := List.nodup_cons.1 hks
    have hrest : (ks.flatMap fun j => l.filter (key · == j)) = ks.flatMap fun j => (l.filter fun x => !(key x == k)).filter (key · == j) := by
      refine flatMap_eq_of_mem fun j hj => ?_
      rw [List.filter_filter]
      refine List.filter_congr fun x _ => ?_
      by_cases hx : key x = j
      · have hne : j ≠ k := fun h => hk (h ▸ hj)
        simp [hx, hne]
      · simp [hx]
    rw [List.flatMap_cons, hrest, List.countP_append]
    calc _ ≤ (l.filter (key · == k)).countP p + (l.filter fun x => !(key x == k)).countP p := Nat.add_le_add_left (ih _ hnd) _
      _ = l.countP p := by rw [← List.countP_append, (List.filter_append_perm (key · == k) l).countP_eq]

theorem Formed.countP_sorted_le (fs : List Formed) (p : Formed → Bool) : (Formed.sorted fs).countP p ≤ fs.countP p := by
  rw [Formed.sorted_eq]
  exact countP_flatMap_filter_le Formed.place p fs List.nodup_range

/-! ## The bundles of a slot (R122, R125) -/

/-- The free candidates of a cluster whose column is not stopping. -/
def State.clusterCands (s : State) (cs : List Runner) (cl : Nat) : List Runner :=
  (cs.filter fun c => c.free && (s.stopOf c.lane.gid.column).isNone).filter fun c => clusterOf c.lane.st.n == cl

/-- Those of one pipe. -/
def State.pipeCands (s : State) (cs : List Runner) (cl : Nat) (elem : Bool) : List Runner :=
  (s.clusterCands cs cl).filter fun c => c.use.elem == elem

/-- The bundle of a lead of a cluster's pipe. -/
def State.bundleFor (s : State) (core : Nat) (cs : List Runner) (cl : Nat) (elem : Bool) (lead : Runner) : Formed :=
  { cluster := cl, elem := elem, lead := lead, members := bundleOf (s.oldestOn core) lead (s.pipeCands cs cl elem),
    cls := orderClass lead.use (s.isExit core lead.lane) }

/-- The cycle until which a cluster's pipe is busy. -/
def Core.pipeBusy (k : Core) (cl : Nat) (elem : Bool) : Nat := (if elem then k.elemBusy else k.accBusy).getD cl 0

/-- The bundle of a cluster's pipe, if it is free and has a lead. -/
def State.pipeBundle (s : State) (core slot : Nat) (cs : List Runner) (cl : Nat) (elem : Bool) : Option Formed :=
  if slot < (s.coreAt core).pipeBusy cl elem then none
  else (leadOf (s.oldestOn core) slot (s.clusterCands cs cl) (s.pipeCands cs cl elem)).map (s.bundleFor core cs cl elem)

section Formed
variable {s : State} {core slot : Nat} {cs : List Runner}

theorem State.formed_eq : s.formed core slot cs = (List.range 8).flatMap fun cl => [true, false].filterMap (s.pipeBundle core slot cs cl) := rfl

theorem State.mem_pipeCands {cl : Nat} {elem : Bool} {c : Runner} : c ∈ s.pipeCands cs cl elem ↔
    c ∈ cs ∧ c.free = true ∧ s.stopOf c.lane.gid.column = none ∧ clusterOf c.lane.st.n = cl ∧ c.use.elem = elem := by
  simp only [State.pipeCands, State.clusterCands, List.mem_filter, Bool.and_eq_true, Option.isNone_iff_eq_none, beq_iff_eq, and_assoc]

theorem State.pipeBundle_eq_some {cl : Nat} {elem : Bool} {f : Formed} (h : s.pipeBundle core slot cs cl elem = some f) :
    ∃ lead ∈ s.pipeCands cs cl elem, f = s.bundleFor core cs cl elem lead := by
  unfold State.pipeBundle at h
  split at h
  · cases h
  · obtain ⟨lead, hlead, rfl⟩ := Option.map_eq_some_iff.1 h
    exact ⟨lead, leadOf_mem hlead, rfl⟩

theorem State.mem_formed {f : Formed} (h : f ∈ s.formed core slot cs) :
    ∃ cl elem, ∃ lead ∈ s.pipeCands cs cl elem, f = s.bundleFor core cs cl elem lead := by
  obtain ⟨cl, -, hcl⟩ := List.mem_flatMap.1 (State.formed_eq ▸ h)
  obtain ⟨elem, -, helem⟩ := List.mem_filterMap.1 hcl
  exact ⟨cl, elem, State.pipeBundle_eq_some helem⟩

theorem orderClass_le (u : Use) (exit : Bool) : orderClass u exit ≤ 3 := by
  unfold orderClass
  split
  · decide
  · split
    · decide
    · split <;> decide

theorem Formed.place_lt {f : Formed} (hcls : f.cls ≤ 3) (hn : f.lead.lane.st.n < 16) : f.place < 19 := by
  unfold Formed.place
  split
  · omega
  · split <;> omega

/-- A candidate that is promoted, or does not yield, has its cluster form a bundle where its pipe is free (R122, R125, R201). -/
theorem State.exists_formed {c : Runner} (hn : ∀ x ∈ cs, x.lane.st.n < 16) (hc : c ∈ cs) (hfree : c.free = true)
    (hstop : s.stopOf c.lane.gid.column = none) (hy : c.lane.st.promoted = true ∨ c.hinted false = false)
    (hbusy : (s.coreAt core).pipeBusy (clusterOf c.lane.st.n) c.use.elem ≤ slot) :
    ∃ f ∈ Formed.sorted (s.formed core slot cs), clusterOf f.lead.lane.st.n = clusterOf c.lane.st.n ∧ f.lead ∈ f.members ∧ f.lead ∈ cs ∧
      (c.lane.st.promoted = true → f.lead.lane.st.promoted = true) := by
  let cl := clusterOf c.lane.st.n
  have hmine : c ∈ s.pipeCands cs cl c.use.elem := State.mem_pipeCands.2 ⟨hc, hfree, hstop, rfl, rfl⟩
  obtain ⟨lead, hlead⟩ := leadOf_isSome (oldest := s.oldestOn core) (slot := slot) (others := s.clusterCands cs cl) hmine hy
    fun x hx => hn x (State.mem_pipeCands.1 hx).1
  obtain ⟨hlcs, -, -, hlcl, -⟩ := State.mem_pipeCands.1 (leadOf_mem hlead)
  have hbundle : s.pipeBundle core slot cs cl c.use.elem = some (s.bundleFor core cs cl c.use.elem lead) := by
    unfold State.pipeBundle
    rw [if_neg (Nat.not_lt.2 hbusy), hlead]
    rfl
  refine ⟨s.bundleFor core cs cl c.use.elem lead, Formed.mem_sorted.2 ⟨?_, Formed.place_lt (orderClass_le ..) (hn lead hlcs)⟩, hlcl,
    lead_mem_bundleOf, hlcs, leadOf_promoted hlead hmine⟩
  rw [State.formed_eq]
  exact List.mem_flatMap.2 ⟨cl, List.mem_range.2 (Nat.mod_lt _ (by decide)), List.mem_filterMap.2 ⟨c.use.elem, by simp, hbundle⟩⟩

/-- Where a list gathers, for each key, at most `n` elements of that key, each key has at most `n`. -/
theorem length_filter_flatMap_le {α κ : Type} [DecidableEq κ] {key : α → κ} {g : κ → List α} {n : Nat} (hkey : ∀ k, ∀ x ∈ g k, key x = k)
    (hlen : ∀ k, (g k).length ≤ n) (k : κ) {ks : List κ} (hks : ks.Nodup) : ((ks.flatMap g).filter (key · == k)).length ≤ n := by
  induction ks with
  | nil => simp
  | cons j ks ih =>
    obtain ⟨hj, hnd⟩ := List.nodup_cons.1 hks
    rw [List.flatMap_cons, List.filter_append]
    by_cases hjk : j = k
    · have hrest : (ks.flatMap g).filter (key · == k) = [] := by
        refine List.filter_eq_nil_iff.2 fun x hx => ?_
        obtain ⟨i, hi, hxi⟩ := List.mem_flatMap.1 hx
        simp only [beq_iff_eq, hkey i x hxi]
        exact fun h => hj (hjk.trans h.symm ▸ hi)
      rw [hrest, List.append_nil]
      exact Nat.le_trans (List.length_filter_le ..) (hlen j)
    · have hfirst : (g j).filter (key · == k) = [] := by
        refine List.filter_eq_nil_iff.2 fun x hx => ?_
        simpa [hkey j x hx] using hjk
      rw [hfirst, List.nil_append]
      exact ih hnd

/-- A cluster forms two bundles at most (R122). -/
theorem State.sorted_formed_le (cl : Nat) :
    ((Formed.sorted (s.formed core slot cs)).filter fun f => clusterOf f.lead.lane.st.n == cl).length ≤ 2 := by
  rw [← List.countP_eq_length_filter]
  refine Nat.le_trans (Formed.countP_sorted_le _ _) ?_
  rw [List.countP_eq_length_filter, State.formed_eq]
  refine length_filter_flatMap_le (key := fun f : Formed => clusterOf f.lead.lane.st.n) (fun k f hf => ?_)
    (fun k => List.length_filterMap_le ..) cl List.nodup_range
  obtain ⟨elem, -, helem⟩ := List.mem_filterMap.1 hf
  obtain ⟨lead, hlead, rfl⟩ := State.pipeBundle_eq_some helem
  exact (State.mem_pipeCands.1 hlead).2.2.2.1

end Formed

end Sys2Proof.Machine
end

section
/-! PROOFS. Threads go on: O38. -/

namespace Sys2Proof.Machine
open Sys2Proof.Claims

/-! ## The strands of a core that could issue -/

/-- The lane is a strand, not ended, of a thread of a group on the core that has neither exited nor retired. -/
def State.LaneOf (s : State) (core : Nat) (l : Lane) : Prop :=
  ∃ y ∈ s.groups, y.id = l.gid ∧ y.core = core ∧ ∃ th ∈ y.threads, th.tid = l.tid ∧ th.retired = false ∧ th.exited = false ∧
    ∃ st ∈ th.strands, st = l.st ∧ st.ended = false

theorem State.laneOf_lanesOn {s : State} {core : Nat} {l : Lane} (h : l ∈ s.lanesOn core) : s.LaneOf core l := by
  obtain ⟨y, hy, h⟩ := List.mem_flatMap.1 h
  obtain ⟨th, hth, h⟩ := List.mem_flatMap.1 h
  obtain ⟨st, hst, rfl⟩ := List.mem_map.1 h
  obtain ⟨hyg, hyc⟩ := List.mem_filter.1 hy
  obtain ⟨hthy, hlive⟩ := List.mem_filter.1 hth
  obtain ⟨hstt, hended⟩ := List.mem_filter.1 hst
  simp only [Bool.and_eq_true, Bool.not_eq_true'] at hlive hended
  exact ⟨y, hyg, rfl, beq_iff_eq.1 hyc, th, hthy, rfl, hlive.1, hlive.2, st, hstt, rfl, hended⟩

@[simp] theorem State.runner_lane (s : State) (core : Nat) (l : Lane) : (s.runner core l).lane = l := by
  unfold State.runner
  split <;> rfl

theorem State.lane_mem_lanesOn {s : State} {core : Nat} {c : Runner} (h : c ∈ s.runners core) : c.lane ∈ s.lanesOn core := by
  obtain ⟨l, hl, rfl⟩ := List.mem_map.1 h
  rwa [State.runner_lane]

/-! ## The bundles that a slot issues (R122, R125, R126, R400) -/

section NewBundles
variable {s : State} {core : Nat}

theorem State.stopOf_congr {s t : State} (h : t.columns = s.columns) (c : ColId) : t.stopOf c = s.stopOf c := by
  simp [State.stopOf, State.column?, h]

theorem State.mem_newBundles {f : Formed} (h : f ∈ s.newBundles core) :
    f ∈ (s.openSlot core).formed core (s.cycle core) ((s.openSlot core).runners core) := by
  unfold State.newBundles at h
  split at h
  · cases h
  · exact (Formed.mem_sorted.1 h).1

/-- A stopped core forms none (R400). -/
theorem State.newBundles_stopped (hc : core < s.cores.length) (h : (s.coreAt core).stopped = true ∨ (s.coreAt core).stopAsked = true) :
    s.newBundles core = [] := by
  obtain ⟨q, hcore⟩ := State.openSlot_coreAt hc
  have hstill : ((s.openSlot core).coreAt core).standsStill = true := by
    rw [hcore]
    rcases h with h | h <;> simp [Core.standsStill, Core.atSlot, h]
  unfold State.newBundles
  rw [if_pos hstill]

/-- What a bundle that is issued holds (R122, R125, R374). -/
theorem Formed.issue_of_new {f : Formed} (h : f ∈ s.newBundles core) :
    ∃ n pc members, f.issue core = .bundle core n pc members ∧ members.Pairwise (fun a b => laneOf a.2 < laneOf b.2) ∧
      ∃ l ∈ members, ∀ m ∈ members, m.1.launch = l.1.launch ∧ m.1.stage = l.1.stage ∧ s.stopOf m.1.column = none ∧
        ∃ y ∈ s.groups, y.id = m.1 ∧ y.core = core ∧ ∃ th ∈ y.threads, th.tid = m.2 ∧ th.retired = false ∧ th.exited = false ∧
          ∃ st ∈ th.strands, st.n = n ∧ st.pc = pc ∧ st.ended = false := by
  obtain ⟨cl, elem, lead, hlead, rfl⟩ := State.mem_formed (State.mem_newBundles h)
  refine ⟨_, _, _, rfl, List.pairwise_map.2 (bundleOf_pairwise hlead), (lead.lane.gid, lead.lane.tid),
    List.mem_map_of_mem lead_mem_bundleOf, fun m hm => ?_⟩
  obtain ⟨x, hx, rfl⟩ := List.mem_map.1 hm
  obtain ⟨hxc, hkey⟩ := bundleOf_mem hlead hx
  obtain ⟨hlaunch, hstage, hn, hpc⟩ := Runner.sameKey_iff.1 hkey
  obtain ⟨hxr, -, hstop, -, -⟩ := State.mem_pipeCands.1 hxc
  obtain ⟨y, hy, hid, hcore, th, hth, htid, hretired, hexited, st, hst, rfl, hended⟩ := State.laneOf_lanesOn (State.lane_mem_lanesOn hxr)
  rw [State.stopOf_congr (State.openSlot_columns s core)] at hstop
  rw [State.openSlot_groups s core] at hy
  exact ⟨hlaunch.symm, hstage.symm, hstop, y, hy, hid, hcore, th, hth, htid, hretired, hexited, x.lane.st, hst, hn.symm, hpc.symm, hended⟩

/-- A cluster forms two bundles at most (R122). -/
theorem State.newBundles_le (cl : Nat) : (((s.newBundles core).map (·.issue core)).filter (inCluster cl)).length ≤ 2 := by
  rw [List.filter_map, List.length_map]
  change ((s.newBundles core).filter fun f => clusterOf f.lead.lane.st.n == cl).length ≤ 2
  unfold State.newBundles
  split
  · simp
  · exact State.sorted_formed_le cl

/-- A candidate that is promoted, or does not yield, has its cluster form a bundle where its pipe is free (R125, R127, R201). -/
theorem State.newBundles_serve (hc : core < s.cores.length) (hk : (s.coreAt core).standsStill = false) (ha : (s.coreAt core).stopAsked = false)
    (hone : ∀ l ∈ s.code, l.once = false) (hn : ∀ l ∈ s.lanesOn core, l.st.n < 16) {c : Runner} (hcs : c ∈ s.runners core)
    (hfree : c.free = true) (hstop : s.stopOf c.lane.gid.column = none) (hy : c.lane.st.promoted = true ∨ c.hinted false = false)
    (hbusy : (s.coreAt core).pipeBusy (clusterOf c.lane.st.n) c.use.elem ≤ s.cycle core) :
    ∃ n pc members, .bundle core n pc members ∈ (s.newBundles core).map (·.issue core) ∧ clusterOf n = clusterOf c.lane.st.n ∧
      (c.lane.st.promoted = true → ∃ m ∈ members, ∃ l ∈ s.lanesOn core, (l.gid, l.tid) = m ∧ l.st.promoted = true) := by
  obtain ⟨⟨ks, hopen⟩, hcore⟩ := State.openSlot_eq hc hk hone
  have hrunners : (s.openSlot core).runners core = s.runners core := by rw [hopen]; rfl
  have hpipe : ((s.openSlot core).coreAt core).pipeBusy = (s.coreAt core).pipeBusy := by rw [hcore]; rfl
  have hstill : ((s.openSlot core).coreAt core).standsStill = false := by
    simp only [Core.standsStill, Bool.or_eq_false_iff] at hk
    rw [hcore]
    simp [Core.standsStill, Core.atSlot, hk.1, ha]
  obtain ⟨f, hf, hcl, hmember, hlead, hprom⟩ := State.exists_formed (s := s.openSlot core) (core := core) (slot := s.cycle core)
    (cs := s.runners core) (fun x hx => hn _ (State.lane_mem_lanesOn hx)) hcs hfree
    ((State.stopOf_congr (State.openSlot_columns s core) _).trans hstop) hy (hpipe ▸ hbusy)
  refine ⟨f.lead.lane.st.n, f.lead.lane.st.pc, _, List.mem_map.2 ⟨f, ?_, rfl⟩, hcl, fun hp => ?_⟩
  · unfold State.newBundles
    rwa [hstill, hrunners]
  · exact ⟨_, List.mem_map_of_mem hmember, f.lead.lane, State.lane_mem_lanesOn hlead, rfl, hprom hp⟩

end NewBundles

/-- Settles O38. -/
theorem threadsGoOn : Obligations.ThreadsGoOn := by
  unfold Obligations.ThreadsGoOn
  intro s gid g hg
  refine ⟨fun tid n st hst => ⟨resultLands_answers hg hst, promote_answers hst, hintExpire_answers hg hst⟩,
    fun tid th r ht hv => registerPresent_answers hg ht hv, fun hd hcol hl => coinDeadlock_answers hg hd hcol hl,
    fun tid th ht hr => threadRetire_answers hg ht hr, fun hc hdue => ?_⟩
  obtain ⟨t, hexec, hover, hissue⟩ := formBundle_next hc hdue
  refine ⟨t, hexec, hover, _, hissue, fun hstop => ?_, fun x hx => ?_, State.newBundles_le, ?_⟩
  · rw [State.newBundles_stopped hc hstop, List.map_nil]
  · obtain ⟨f, hf, rfl⟩ := List.mem_map.1 hx
    exact Formed.issue_of_new hf
  · intro hk ha hone hn c hcs hfree hstop hy hbusy
    exact State.newBundles_serve hc hk ha hone hn hcs hfree hstop hy hbusy

end Sys2Proof.Machine
end

section
/-! PROOFS. What becomes of a strand that branches, calls or returns: O8. -/

namespace Sys2Proof.Machine
open Sys2Proof.Claims

/-! ## Bundles that branch (R192, R193) -/

/-- What a branch makes of a strand that has issued: `upd` of it, at the target where the thread has one. -/
def Lane.branched (l : Lane) (target : Lane → Option Addr) (upd : Lane → Strand → Strand) (st : Strand) : Strand :=
  { upd l st with pc := (target l).getD (upd l st).pc }

theorem branch_eq (fm : Form) (cause : Lane → Option Cause) (target : Lane → Option Addr) (upd : Lane → Strand → Strand) (s : State) :
    branch fm cause target upd s = .next (s.issueWith fm cause fun _ lanes u =>
      (lanes.foldl (fun u l => u.modStrand l.gid l.tid l.st.n (l.branched target upd)) u).traceBranch lanes target) := by
  unfold branch
  congr 2
  funext _ lanes u
  congr 2
  funext u l
  congr 1
  funext st
  unfold Lane.branched
  cases target l <;> rfl

@[simp] theorem State.thread?_traceBranch (s : State) (lanes : List Lane) (target : Lane → Option Addr) (g : GroupId) (tid : Nat) :
    (s.traceBranch lanes target).thread? g tid = s.thread? g tid := by
  obtain ⟨-, hkept, -⟩ : s.StrandsOnly (s.traceBranch lanes target) (fun _ _ => False) 0 false := .traceBranch s lanes target
  exact hkept g tid id

@[simp] theorem State.strand?_traceBranch (s : State) (lanes : List Lane) (target : Lane → Option Addr) (g : GroupId) (tid n : Nat) :
    (s.traceBranch lanes target).strand? g tid n = s.strand? g tid n := by
  simp [State.strand?]

/-- A fold over the bundle of a change to each thread's strand changes each of them once. -/
theorem State.strand?_foldl_ready {s : State} {fm : Form} (h : s.issues fm = true) {F : Lane → Strand → Strand}
    (hF : ∀ l st, (F l st).n = st.n) (u : State) {l : Lane} (hl : l ∈ s.ready fm) :
    ((s.ready fm).foldl (fun u l => u.modStrand l.gid l.tid l.st.n (F l)) u).strand? l.gid l.tid l.st.n =
      (u.strand? l.gid l.tid l.st.n).map (F l) := by
  have hthread : ∀ (u : State) (m : Lane) g tid, (u.modStrand m.gid m.tid m.st.n (F m)).thread? g tid = _ :=
    fun u m g tid => State.thread?_modThread u g m.gid tid m.tid (·.modStrand m.st.n (F m))
  obtain ⟨hsame, -⟩ := foldl_threads (upd := fun u m => u.modStrand m.gid m.tid m.st.n (F m)) (F := fun m t => t.modStrand m.st.n (F m))
    (fun u m _ => by rw [hthread, if_pos ⟨rfl, rfl⟩])
    (fun u m g tid _ hne => by
      rw [hthread, if_neg]
      rintro ⟨rfl, rfl⟩
      exact hne rfl)
    (State.ready_nodup (State.issues_members h)) u
  unfold State.strand?
  rw [hsame l hl]
  cases u.thread? l.gid l.tid with
  | none => rfl
  | some t => simp [Thread.strand?_modStrand _ _ _ _ (hF l)]

/-- A branch that issues without a trap: each thread's strand has branched, and nothing else has changed but what the issue changes. -/
theorem branch_answers {s : State} {fm : Form} {cause : Lane → Option Cause} {target : Lane → Option Addr} {upd : Lane → Strand → Strand}
    (h : s.issues fm = true) (hc : ∀ l ∈ s.ready fm, cause l = none) (hupd : ∀ l st, (upd l st).n = st.n) :
    ∃ t, branch fm cause target upd s = .next t ∧ onlyStrands s t fm ∧
      strandsBecome s t fm fun l => l.branched target upd (l.stepped (Claims.now s) fm) := by
  have hn : ∀ (l : Lane) st, (l.branched target upd st).n = st.n := hupd
  refine ⟨_, branch_eq .., State.issueWith_onlyStrands h hc fun u => ?_, fun l hl => ?_⟩
  · exact .trans (.foldl_ready (fun u l _ hp => .modStrand u hp (hn l)) u) (.traceBranch ..)
  · obtain ⟨u, hu, -, hissued, -⟩ := State.issueWith_ok cause
      (fun _ lanes u => (lanes.foldl (fun u l => u.modStrand l.gid l.tid l.st.n (l.branched target upd)) u).traceBranch lanes target) h hc
    obtain ⟨-, -, hst, -⟩ := State.ready_spec hl
    have hstepped : u.strand? l.gid l.tid l.st.n = some (l.stepped (Claims.now s) fm) := by
      rw [State.strand?, hissued l hl]
      exact Lane.issuedThread_strand? hst _ fm
    rw [hu, State.strand?_traceBranch, State.strand?_foldl_ready h hn u hl, hstepped]
    rfl

/-! ## Calls and returns (R54, R193) -/

/-- A call is a branch to its target that pushes; to an even target, a full stack alone is a cause. -/
theorem exec_callRow {i : Instr} {fm : Form} {target : Lane → Addr} (h : callRow i = some target) (hf : i.form = some fm) (s : State) :
    ∃ cause, exec i s = branch fm cause (fun l => some (target l)) pushReturn s ∧
      ∀ l, (target l).getLsbD 0 = false → cause l = callCause l := by
  cases i
  case callx w d =>
    cases hf
    cases h
    exact ⟨callxCause d, rfl, fun l heven => if_neg (Bool.eq_false_iff.1 heven)⟩
  all_goals cases hf
  all_goals cases h
  all_goals exact ⟨callCause, rfl, fun _ _ => rfl⟩

theorem exec_isReturn {i : Instr} {fm : Form} (h : isReturn i = true) (hf : i.form = some fm) (s : State) :
    exec i s = branch fm retCause (fun l => l.st.rstack.head?) popReturn s := by
  cases i
  all_goals cases hf
  all_goals cases h
  all_goals rfl

theorem callCause_eq_none {l : Lane} (h : l.st.rstack.length < 8) : callCause l = none := if_neg (Nat.not_le.2 h)

theorem retCause_eq_none {l : Lane} (h : l.st.rstack ≠ []) : retCause l = none := by simp [retCause, h]

theorem Lane.branched_call (l : Lane) (target : Lane → Addr) (st : Strand) :
    l.branched (fun l => some (target l)) pushReturn st = { st with pc := target l, rstack := st.pc :: st.rstack } := rfl

theorem Lane.branched_return {l : Lane} (h : l.st.rstack ≠ []) (st : Strand) :
    l.branched (fun l => l.st.rstack.head?) popReturn st = { st with pc := l.st.rstack.headD 0, rstack := st.rstack.tail } := by
  obtain ⟨pc, rest, hstack⟩ := List.exists_cons_of_ne_nil h
  simp [Lane.branched, popReturn, hstack]

/-- Settles O8: calls and returns are branches, which push the address where the issue has left the PC and pop the newest entry. -/
theorem callsAndReturns : Obligations.CallsAndReturns := by
  unfold Obligations.CallsAndReturns
  refine ⟨fun i target fm s hi hf h hroom => ?_, fun i fm s hi hf h hstack => ?_⟩
  · obtain ⟨cause, he, hcause⟩ := exec_callRow hi hf s
    have hnone : ∀ l ∈ s.ready fm, cause l = none := fun l hl => by
      obtain ⟨hlen, heven⟩ := hroom l hl
      rw [hcause l heven, callCause_eq_none hlen]
    rw [he]
    exact branch_answers h hnone fun _ _ => rfl
  · rw [exec_isReturn hi hf s]
    obtain ⟨t, he, honly, hbecome⟩ := branch_answers (target := fun l => l.st.rstack.head?) (upd := popReturn) h
      (fun l hl => retCause_eq_none (hstack l hl)) fun _ _ => rfl
    exact ⟨t, he, honly, fun l hl => (hbecome l hl).trans (congrArg some (Lane.branched_return (hstack l hl) _))⟩

end Sys2Proof.Machine
end

section
/-! PROOFS. Floats, conversions and functions put results in flight: O2. -/

namespace Sys2Proof.Machine
open Sys2Proof.Claims

/-! ## Elementwise instructions that put a result and its flags in flight (R115, R131) -/

/-- A bundle that issues an elementwise instruction without a trap: what its rule makes of each thread is in flight. -/
theorem elementwise_answers {i : Instr} {f : EFields} {lat : Nat} {rule : ElemIn → ElemOut} {fm : Form} {s : State}
    (he : exec i s = elementwise fm f lat rule s) (h : s.issues fm = true) : elementwiseResult i f lat rule s fm :=
  ⟨_, he, State.issueWith_pushes noCause (fun c _ l => inFlight l (landsAt c lat f.dst) (l.results c f rule).1 (l.results c f rule).2) h
    fun _ _ => rfl⟩

theorem exec_floatRow {i : Instr} {fm : Form} {f : EFields} {rule : ElemIn → ElemOut} (h : floatRow i = some (f, rule))
    (hf : i.form = some fm) (s : State) : exec i s = elementwise fm f 4 rule s := by
  cases i
  all_goals cases hf
  all_goals cases h
  all_goals rfl

theorem exec_convertRow {i : Instr} {fm : Form} {f : EFields} {rule : ElemIn → ElemOut} (h : convertRow i = some (f, rule))
    (hf : i.form = some fm) (s : State) : exec i s = elementwise fm f 4 rule s := by
  cases i
  all_goals cases hf
  all_goals cases h
  all_goals rfl

theorem exec_specialRow {i : Instr} {fm : Form} {f : EFields} {lat : Nat} {rule : ElemIn → ElemOut}
    (h : specialRow i = some (f, lat, rule)) (hf : i.form = some fm) (s : State) : exec i s = elementwise fm f lat rule s := by
  cases i
  all_goals cases hf
  all_goals cases h
  all_goals rfl

/-- Settles O2: each of these instructions is elementwise, with the operands, the latency and the rule of its row. -/
theorem floatsConversionsFunctions : Obligations.FloatsConversionsFunctions :=
  ⟨fun _ _ _ _ s hi hf h => elementwise_answers (exec_floatRow hi hf s) h,
    fun _ _ _ _ s hi hf h => elementwise_answers (exec_convertRow hi hf s) h,
    fun _ _ _ _ _ s hi hf h => elementwise_answers (exec_specialRow hi hf s) h⟩

end Sys2Proof.Machine
end

section
/-! PROOFS. Bytes, words and lines: what is read back of what is written, little-endian (R2). -/

namespace Sys2Proof.Machine

/-! ## Bytes and the numbers they stand for (R2) -/

@[simp] theorem leBytes_length (n v : Nat) : (leBytes n v).length = n := by
  induction n generalizing v with
  | zero => rfl
  | succ n ih => simp [leBytes, ih]

theorem leBytes_leNat (bs : List Byte) : leBytes bs.length (leNat bs) = bs := by
  induction bs with
  | nil => rfl
  | cons b bs ih =>
    have hb := b.isLt
    have hhigh : (b.toNat + 256 * leNat bs) / 256 = leNat bs := by omega
    rw [leNat, List.length_cons, leBytes, hhigh, ih]
    congr 1
    apply BitVec.eq_of_toNat_eq
    rw [BitVec.toNat_ofNat]
    omega

theorem leBytes_append (m n v : Nat) : leBytes (m + n) v = leBytes m v ++ leBytes n (v / 256 ^ m) := by
  induction m generalizing v with
  | zero => simp [leBytes]
  | succ m ih => rw [Nat.succ_add, leBytes, leBytes, ih, List.cons_append, Nat.pow_succ', Nat.div_div_eq_div_mul]

/-- The bytes of a number depend on it as far as they reach. -/
theorem leBytes_mod (n v : Nat) : leBytes n (v % 256 ^ n) = leBytes n v := by
  induction n generalizing v with
  | zero => rfl
  | succ n ih =>
    have hlow : v % 256 ^ (n + 1) % 256 = v % 256 := Nat.mod_mod_of_dvd v ⟨256 ^ n, Nat.pow_succ'⟩
    have hhigh : v % 256 ^ (n + 1) / 256 = v / 256 % 256 ^ n := by rw [Nat.pow_succ', Nat.mod_mul_right_div_self]
    rw [leBytes, leBytes, hhigh, ih]
    congr 1
    apply BitVec.eq_of_toNat_eq
    simp [hlow]

theorem leNat_drop (bs : List Byte) (n : Nat) : leNat (bs.drop n) = leNat bs / 256 ^ n := by
  induction n generalizing bs with
  | zero => simp
  | succ n ih =>
    cases bs with
    | nil => simp [leNat]
    | cons b bs =>
      have hb := b.isLt
      rw [List.drop_succ_cons, ih, leNat, Nat.pow_succ', ← Nat.div_div_eq_div_mul]
      congr 1
      omega

theorem leNat_take (bs : List Byte) (n : Nat) : leNat (bs.take n) = leNat bs % 256 ^ n := by
  induction n generalizing bs with
  | zero => simp [leNat, Nat.mod_one]
  | succ n ih =>
    cases bs with
    | nil => simp [leNat]
    | cons b bs =>
      have hb := b.isLt
      have hhigh : (b.toNat + 256 * leNat bs) / 256 = leNat bs := by omega
      rw [List.take_succ_cons, leNat, leNat, ih, Nat.pow_succ', Nat.mod_mul, hhigh]
      omega

@[simp] theorem wordBytes_length (w : Word) : (wordBytes w).length = 4 := leBytes_length ..

theorem wordBytes_wordOf {bs : List Byte} (h : bs.length = 4) : wordBytes (wordOf bs) = bs := by
  rw [wordBytes, wordOf, BitVec.toNat_ofNat, show 2 ^ 32 = 256 ^ 4 from rfl, leBytes_mod, ← h, leBytes_leNat]

/-- The bytes of a pair of words, the low word first (R255). -/
theorem leBytes_append_words (hi lo : Word) : leBytes 8 (hi ++ lo).toNat = wordBytes lo ++ wordBytes hi := by
  have hlo := lo.isLt
  have hpair : (hi ++ lo).toNat = 2 ^ 32 * hi.toNat + lo.toNat := by
    rw [BitVec.toNat_append, Nat.shiftLeft_eq, Nat.mul_comm, Nat.two_pow_add_eq_or_of_lt hlo]
  rw [leBytes_append 4 4, hpair, wordBytes, wordBytes, ← leBytes_mod 4]
  congr 2 <;> omega

/-- The two words of eight bytes (R255, R263). -/
theorem pairWrites_leNat (d : BitVec 6) (bs : List Byte) :
    pairWrites d (leNat bs) = [(d, wordOf (bs.take 4)), (d + 1, wordOf (bs.drop 4))] := by
  have hlow : BitVec.ofNat 32 (leNat bs) = wordOf (bs.take 4) := by
    apply BitVec.eq_of_toNat_eq
    rw [wordOf, leNat_take, BitVec.toNat_ofNat, BitVec.toNat_ofNat]
    exact (Nat.mod_mod _ _).symm
  have hhigh : BitVec.ofNat 32 (leNat bs / 2 ^ 32) = wordOf (bs.drop 4) := congrArg (BitVec.ofNat 32) (leNat_drop bs 4).symm
  rw [pairWrites, hlow, hhigh]

/-! ## Lines (R2) -/

theorem getLsbD_byteOnes (m : Nat) : (0xFF#1024).getLsbD m = decide (m < 8) := by
  rw [BitVec.getLsbD_ofNat, show (0xFF : Nat) = 2 ^ 8 - 1 from rfl, Nat.testBit_two_pow_sub_one]
  by_cases h : m < 8
  · have hline : m < 1024 := by omega
    rw [decide_eq_true h, decide_eq_true hline, Bool.and_true]
  · rw [decide_eq_false h, Bool.and_false]

/-- A bit of a line in which a byte is replaced is the byte's, or, outside the byte, the line's. -/
theorem getLsbD_lineSet (l : Line) (i : Nat) (b : Byte) {m : Nat} (hm : m < 1024) :
    (lineSet l i b).getLsbD m = if 8 * i ≤ m ∧ m < 8 * i + 8 then b.getLsbD (m - 8 * i) else l.getLsbD m := by
  have hoff : m - 8 * i < 1024 := by omega
  rw [lineSet, BitVec.getLsbD_or, BitVec.getLsbD_and, BitVec.getLsbD_not, BitVec.getLsbD_shiftLeft, BitVec.getLsbD_shiftLeft,
    getLsbD_byteOnes, BitVec.getLsbD_setWidth, decide_eq_true hm, decide_eq_true hoff]
  by_cases hbelow : m < 8 * i
  · rw [if_neg (by omega), decide_eq_true hbelow]
    simp only [Bool.not_true, Bool.and_false, Bool.false_and, Bool.not_false, Bool.and_true, Bool.or_false]
  · by_cases hin : m - 8 * i < 8
    · rw [if_pos (by omega), decide_eq_false hbelow, decide_eq_true hin]
      simp only [Bool.not_true, Bool.not_false, Bool.and_true, Bool.true_and, Bool.and_false, Bool.false_or]
    · rw [if_neg (by omega), decide_eq_false hbelow, decide_eq_false hin, BitVec.getLsbD_of_ge b _ (Nat.not_lt.1 hin)]
      simp only [Bool.not_false, Bool.and_true, Bool.and_false, Bool.or_false]

/-- A byte written in a line is read back, and every other byte reads as before. -/
theorem lineByte_lineSet (l : Line) (i : Nat) {j : Nat} (hj : j < 128) (b : Byte) :
    lineByte (lineSet l i b) j = if j = i then b else lineByte l j := by
  apply BitVec.eq_of_getLsbD_eq
  intro k hk
  rw [lineByte, BitVec.getLsbD_extractLsb', decide_eq_true hk, Bool.true_and, getLsbD_lineSet l i b (by omega)]
  by_cases hji : j = i
  · rw [if_pos (by omega), if_pos hji, hji, Nat.add_sub_cancel_left]
  · rw [if_neg (by omega), if_neg hji, lineByte, BitVec.getLsbD_extractLsb', decide_eq_true hk, Bool.true_and]

@[simp] theorem lineBytes_length (l : Line) : (lineBytes l).length = 128 := by simp [lineBytes]

theorem lineByte_lineWrite_below (l : Line) {off j : Nat} (bs : List Byte) (h : j < off) : lineByte (lineWrite l off bs) j = lineByte l j := by
  induction bs generalizing l off with
  | nil => rfl
  | cons b bs ih =>
    rw [lineWrite]
    split
    · rename_i hoff
      rw [ih _ (by omega), lineByte_lineSet _ _ (by omega), if_neg (by omega)]
    · rfl

theorem lineByte_lineWrite (l : Line) (off : Nat) (bs : List Byte) (h : off + bs.length ≤ 128) {i : Nat} (hi : i < bs.length) :
    lineByte (lineWrite l off bs) (off + i) = bs[i] := by
  induction bs generalizing l off i with
  | nil => cases hi
  | cons b bs ih =>
    rw [List.length_cons] at h hi
    rw [lineWrite, if_pos (by omega)]
    cases i with
    | zero => rw [Nat.add_zero, lineByte_lineWrite_below _ _ (by omega), lineByte_lineSet _ _ (by omega), if_pos (by rfl)]; rfl
    | succ i =>
      have hnext : off + (i + 1) = off + 1 + i := by omega
      rw [hnext]
      exact ih _ (off + 1) (by omega) (by omega)

/-- Bytes written within a line are read back. -/
theorem lineBytes_lineWrite (l : Line) (off : Nat) (bs : List Byte) (h : off + bs.length ≤ 128) :
    ((lineBytes (lineWrite l off bs)).drop off).take bs.length = bs := by
  apply List.ext_getElem
  · rw [List.length_take, List.length_drop, lineBytes_length]
    omega
  · intro i _ hi
    simp [lineBytes, lineByte_lineWrite l off bs h hi]

end Sys2Proof.Machine
end

section
/-! PROOFS. A teller's loads, stores and atomics in its column's window: O25. -/

namespace Sys2Proof.Machine
open Sys2Proof.Claims

/-! ## Teller addresses (R256) -/

theorem extractLsb'_segment (pair : BitVec 64) : (pair.extractLsb' 61 3).toNat = pair.toNat / 2 ^ 61 := by
  have h := pair.isLt
  rw [BitVec.extractLsb'_toNat, Nat.shiftRight_eq_div_pow]
  omega

/-- Through K = 7 an access lies in the window, at its offset. -/
theorem teleAddr_windowAt {g : Group} {r : TellerAcc} (hk : segAt g r = 7) (ho : offsetAt g r < 2 ^ 32) :
    teleAddr g.seg (g.teller.pair r.pair) (g.teller.reg r.add).toNat = .window (windowAt g r) := by
  have hsmall : (g.teller.pair r.pair).toNat % 2 ^ 61 / 2 ^ 32 = 0 := Nat.div_eq_of_lt ho
  unfold teleAddr
  rw [extractLsb'_segment, show (g.teller.pair r.pair).toNat / 2 ^ 61 = 7 from hk]
  simp only [hsmall, if_true, ne_eq, not_true_eq_false, if_false]
  rfl

/-- Through any other segment it lies at its virtual address. -/
theorem teleAddr_addressAt {g : Group} {r : TellerAcc} (hk : segAt g r < 7) :
    teleAddr g.seg (g.teller.pair r.pair) (g.teller.reg r.add).toNat = .glob (addressAt g r) := by
  unfold teleAddr
  rw [extractLsb'_segment]
  simp only [show (g.teller.pair r.pair).toNat / 2 ^ 61 ≠ 7 from Nat.ne_of_lt hk, if_false]
  rfl

/-! ## What an access leaves and gives (R263, R264) -/

/-- The bytes that an access leaves in place of those it found, if it stores any. -/
def TellerAct.leaves (k : TellerAct) (old : List Byte) : Option (List Byte) :=
  match k with | .load => none | .store bs => some bs | .atomic f _ => some (f old)
/-- The old bytes that an access answers. -/
def TellerAct.gives (k : TellerAct) (old : List Byte) : List Byte := match k with | .store _ => [] | _ => old

/-- A scratchpad in which what an access stores, if anything, stands at an offset. -/
def Mems.scratchStore (m : Mems) (core off : Nat) (new : Option (List Byte)) : Mems :=
  match new with | some bs => m.scratchWrite core off bs | none => m

/-- A teller access in the window (R132, R263, R264). -/
theorem State.tellerBank_eq (s : State) (g : Group) (off n : Nat) (k : TellerAct) :
    s.tellerBank g off n k =
      let old := s.mems.scratchRead g.core (g.wbase + off) n
      (k.gives old, if k.want = .atomic then 24 else 20, { s with mems := s.mems.scratchStore g.core (g.wbase + off) (k.leaves old) }) := by
  cases k <;> rfl

/-! ## The teller's memory instructions -/

/-- Under an order that tells all words apart it does not matter which of two equal ones a maximum takes (R237). -/
theorem larger_of_injective {f : Word → Int} (hf : f.Injective) (a b : Word) : (if f b ≤ f a then a else b) = larger f a b := by
  unfold larger
  by_cases hab : f a ≤ f b
  · by_cases hba : f b ≤ f a
    · rw [if_pos hba, if_pos hab]
      exact hf (Int.le_antisymm hab hba)
    · rw [if_neg hba, if_pos hab]
  · rw [if_neg hab, if_pos (by omega)]

theorem atomResult_maxs (old v : Word) : atomResult .maxs old v = larger (·.toInt) old v :=
  larger_of_injective (fun _ _ => BitVec.eq_of_toInt_eq) old v

theorem atomResult_minn (old v : Word) : atomResult .minn old v = lesser (·.toNat) old v := by simp [atomResult, lesser]

theorem atomResult_maxn (old v : Word) : atomResult .maxn old v = larger (·.toNat) old v := by
  rw [← larger_of_injective fun _ _ h => BitVec.eq_of_toNat_eq (Int.ofNat_inj.1 h)]
  simp [atomResult]

section
variable {i : Instr} {r : TellerAcc} (h : tellerAccRow i = some r)
include h

theorem exec_tellerAccRow (s : State) : exec i s = tellerAccess r.pair r.add r.size (fun g => r.act g.teller) r.results s := by
  cases i
  all_goals cases h
  case tldD d a b =>
    have hpair := funext (pairWrites_leNat d)
    dsimp only at hpair ⊢
    rw [← hpair]
    rfl
  all_goals rfl

theorem tellerAccRow_size : r.size = 4 ∨ r.size = 8 := by
  cases i
  all_goals cases h
  case tldD | tstD => exact .inr rfl
  all_goals exact .inl rfl

theorem tellerAccRow_want (x : Teller) : (r.act x).want = r.want := by
  cases i
  all_goals cases h
  all_goals rfl

/-- A store has no result. -/
theorem tellerAccRow_results (x : Teller) (old : List Byte) : r.results ((r.act x).gives old) = r.results old := by
  cases i
  all_goals cases h
  all_goals rfl

/-- What a row's rule stores is what its access leaves in place of as many old bytes. -/
theorem tellerAccRow_new (x : Teller) {old : List Byte} (hlen : old.length = r.size) : r.new x old = (r.act x).leaves old := by
  cases i
  all_goals cases h
  case tstD d a b => exact congrArg some (leBytes_append_words _ _).symm
  case tatomMaxs => exact congrArg (fun w => some (wordBytes w)) (atomResult_maxs ..).symm
  case tatomMinn => exact congrArg (fun w => some (wordBytes w)) (atomResult_minn ..).symm
  case tatomMaxn => exact congrArg (fun w => some (wordBytes w)) (atomResult_maxn ..).symm
  case tatomCas d a b =>
    refine congrArg some ?_
    dsimp only
    split
    · rfl
    · exact wordBytes_wordOf hlen
  all_goals rfl

theorem tellerAccRow_new_length (x : Teller) {old bs : List Byte} (hnew : r.new x old = some bs) : bs.length = r.size := by
  cases i
  all_goals cases h
  all_goals cases hnew
  case tstD => rfl
  all_goals exact wordBytes_length _
end

/-! ## Accesses in the window -/

/-- A teller instruction that completes leaves its results in its teller, and of the state in which it does so nothing else changes. -/
theorem tellerOp_groupBecomes {s u : State} {g : Group} {act : State → Group → TEnd} {ws : List (BitVec 6 × Word)} {n : Nat}
    (h : s.curTeller = some g) (ha : act s g = .done u ws n) (hg : u.group? g.id = some g) :
    ∃ t, tellerOp act s = .next t ∧ groupBecomes u t g { g with teller := tellerDone s g ws n } := by
  obtain ⟨hs, hself, hother⟩ := State.modTeller_spec hg fun t => t.complete ws (t.pc + 4) (s.cycle g.core + n)
  refine ⟨_, tellerOp_done h ha, hs, ?_, hother⟩
  rw [hself, Teller.complete_eq]
  rfl

/-- Settles O25: inside the window and aligned, the access is that of the bank, and its results are the row's. -/
theorem tellerWindowAccesses : Obligations.TellerWindowAccesses := by
  unfold Obligations.TellerWindowAccesses
  intro i r s g hi h hk ho hfit halign old mems
  obtain ⟨hg, -, -⟩ := State.curTeller_spec h
  have hnew : r.new g.teller old = (r.act g.teller).leaves old := tellerAccRow_new hi _ (by simp [old, Mems.scratchRead, Cells.gets])
  have hmems : mems = s.mems.scratchStore g.core (g.wbase + windowAt g r) ((r.act g.teller).leaves old) := hnew ▸ rfl
  rw [exec_tellerAccRow hi, windowCycles]
  refine tellerOp_groupBecomes (u := { s with mems := mems }) h ?_ hg
  rw [teleAddr_windowAt hk ho]
  dsimp only
  rw [if_neg (Nat.not_lt.2 hfit), if_neg (Decidable.not_not.2 halign), State.tellerBank_eq]
  dsimp only
  rw [tellerAccRow_results hi, tellerAccRow_want hi, hmems]

end Sys2Proof.Machine
end

section
/-! PROOFS. Accesses at the home of a line that serves them: the line, the accesses in flight and the groups (R217, R228, R339, R340). -/

namespace Sys2Proof.Machine
open Sys2Proof.Claims

/-! ## The accesses in flight and the tags of the L2 -/

/-- The accesses in flight, and the tags of the lines that the slices hold. -/
def State.homeTags (s : State) : List Acc × List LineKey := (s.accs, s.l2.map (·.key))

theorem map_updWhere {α β : Type} (p : α → Bool) (key : α → β) {f : α → α} (hf : ∀ a, key (f a) = key a) (l : List α) :
    (updWhere p f l).map key = l.map key := by
  rw [updWhere, List.map_map]
  refine List.map_congr_left fun a _ => ?_
  rw [Function.comp_apply]
  split
  · exact hf a
  · rfl

theorem State.modL2_homeTags (s : State) (k : LineKey) {f : L2Line → L2Line} (hf : ∀ l, (f l).key = l.key) :
    (s.modL2 k f).homeTags = s.homeTags :=
  congrArg (Prod.mk s.accs) (map_updWhere _ L2Line.key hf s.l2)

@[simp] theorem State.writeBackL1_homeTags (s : State) (l : L1Line) : (s.writeBackL1 l).homeTags = s.homeTags := by
  unfold State.writeBackL1 State.mergeHome
  split
  · rfl
  · split
    · exact State.modL2_homeTags s _ fun _ => rfl
    · rfl

theorem State.foldl_writeBackL1_homeTags (s : State) (ls : List L1Line) : (ls.foldl State.writeBackL1 s).homeTags = s.homeTags := by
  induction ls generalizing s with
  | nil => rfl
  | cons l ls ih => exact (ih _).trans (State.writeBackL1_homeTags s l)

theorem State.exists_l2Key? {s : State} {k : LineKey} (h : k ∈ s.homeTags.2) : ∃ x, s.l2Key? k = some x := by
  obtain ⟨x, hx, rfl⟩ := List.mem_map.1 h
  exact Option.isSome_iff_exists.1 (List.find?_isSome.2 ⟨x, hx, by simp⟩)

/-! ## Reads and writes of a line at its home (R339) -/

@[simp] theorem State.homeClean_work (s : State) (k : LineKey) : (s.homeClean k).work = s.work := by
  unfold State.homeClean
  split
  · rfl
  · exact State.work_foldl (fun u l => State.writeBackL1_work u l) _ s

/-- A read brings the home's copy up to date, and no line comes or goes. -/
@[simp] theorem State.homeClean_homeTags (s : State) (k : LineKey) : (s.homeClean k).homeTags = s.homeTags := by
  unfold State.homeClean
  split
  · rfl
  · refine (State.modL2_homeTags _ k fun l => ?_).trans (State.foldl_writeBackL1_homeTags s (s.copies k))
    split <;> rfl

theorem State.readSite_l2_snd (s : State) (k : LineKey) (va n : Nat) : (s.readSite (.l2 k) va n).2 = s.homeClean k := by
  unfold State.readSite
  dsimp only
  split <;> rfl

/-- The bytes of an access that lies in one line. -/
theorem State.readSite_l2_length (s : State) (k : LineKey) {va n : Nat} (hfit : va % 128 + n ≤ 128) :
    (s.readSite (.l2 k) va n).1.length = n := by
  unfold State.readSite
  dsimp only
  split
  · simp only [List.length_take, List.length_drop, lineBytes_length]
    omega
  · exact List.length_replicate

theorem State.updateSite_l2 (s : State) (k : LineKey) (va n : Nat) (f : List Byte → List Byte) (kind : Option RemoteKind) :
    s.updateSite (.l2 k) va n f kind =
      ((s.readSite (.l2 k) va n).1, (s.readSite (.l2 k) va n).2.writeL2 k (va % 128) (f (s.readSite (.l2 k) va n).1)) := rfl

/-- No store lies in an L1, its upgrade owed (R340). -/
def State.noneHeld (s : State) : Prop := ∀ a ∈ s.accs, a.inL1 = false

theorem State.settleLine_of_noneHeld {s : State} (h : s.noneHeld) (k : LineKey) : s.settleLine k = s := by
  have hnone : s.accs.filter (·.heldOn k) = [] := List.filter_eq_nil_iff.2 fun a ha => by simp [Acc.heldOn, h a ha]
  rw [State.settleLine, hnone]
  rfl

theorem State.heldStores_of_noneHeld {s : State} (h : s.noneHeld) (core : Nat) (k : LineKey) : s.heldStores core k = false := by
  simp only [State.heldStores, List.any_eq_false]
  intro a ha
  simp [Acc.heldOn, h a ha]

theorem State.settleFor_of_noneHeld {s : State} (h : s.noneHeld) (core asid line : Nat) : s.settleFor core asid line = s := by
  unfold State.settleFor
  split
  · rw [if_neg (by simp [State.heldStores_of_noneHeld h])]
  · rfl

theorem State.heldInL1_of_noneHeld {s : State} (h : s.noneHeld) (col : ColId) : s.heldInL1 col = [] := by
  have hnone : s.accs.filter (fun a => a.inL1 && a.gid.column == col) = [] := List.filter_eq_nil_iff.2 fun a ha => by simp [h a ha]
  rw [State.heldInL1, hnone]
  rfl

theorem State.noneHeld_congr {s t : State} (h : s.noneHeld) (ht : t.homeTags = s.homeTags) : t.noneHeld := by
  have haccs : t.accs = s.accs := congrArg Prod.fst ht
  unfold State.noneHeld
  rw [haccs]
  exact h

theorem State.homeTake_homeTags {s : State} (h : s.noneHeld) (k : LineKey) : (s.homeTake k).homeTags = s.homeTags := by
  have hback := State.foldl_writeBackL1_homeTags s (s.copies k)
  have htaken : ∀ u : State, u.homeTags = s.homeTags →
      ((u.modL2 k fun l => { l with dir := .i, sharers := [] }).settleLine k).homeTags = s.homeTags := fun u hu => by
    have hmod := (State.modL2_homeTags u k (f := fun l => { l with dir := .i, sharers := [] }) fun _ => rfl).trans hu
    rw [State.settleLine_of_noneHeld (State.noneHeld_congr h hmod), hmod]
  exact htaken _ hback

theorem State.putL2_accs (s : State) (k : LineKey) (off : Nat) (bs : List Byte) : (s.putL2 k off bs).accs = s.accs := by
  unfold State.putL2
  dsimp only
  split <;> rfl

theorem State.putL2_l2Key? {s : State} {k : LineKey} {x : L2Line} (h : s.l2Key? k = some x) (off : Nat) (bs : List Byte) :
    (s.putL2 k off bs).l2Key? k = some { x with data := lineWrite x.data off bs, dirty := true } := by
  have hkey : x.key = k := by simpa using List.find?_some h
  have hmod : (s.modL2 k fun l => { l with data := lineWrite l.data off bs, dirty := true }).l2Key? k =
      some { x with data := lineWrite x.data off bs, dirty := true } := by
    refine (find?_updWhere _ (·.key == k) _ ?_ s.l2).trans ?_
    · exact fun _ => rfl
    · rw [show s.l2.find? (·.key == k) = some x from h]
      simp [hkey]
  unfold State.putL2
  dsimp only
  split
  · exact hmod
  · exact hmod

theorem State.writeL2_accs {s : State} (h : s.noneHeld) (k : LineKey) (off : Nat) (bs : List Byte) : (s.writeL2 k off bs).accs = s.accs :=
  (State.putL2_accs ..).trans (congrArg Prod.fst (State.homeTake_homeTags h k))

/-- A write to a line that its slice holds stands in the line, which is dirty. -/
theorem State.writeL2_lineBytes {s : State} (h : s.noneHeld) {k : LineKey} (hk : k ∈ s.homeTags.2) {va n : Nat} {bs : List Byte}
    (hfit : va % 128 + n ≤ 128) (hlen : bs.length = n) :
    ∃ x, (s.writeL2 k (va % 128) bs).l2Key? k = some x ∧ x.dirty = true ∧ lineBytesAt x va n = bs := by
  subst hlen
  obtain ⟨x, hx⟩ := State.exists_l2Key? (s := s.homeTake k) (by rw [State.homeTake_homeTags h]; exact hk)
  exact ⟨_, State.putL2_l2Key? hx _ _, rfl, lineBytes_lineWrite x.data _ bs hfit⟩

/-! ## The line that serves an access (R217, R228) -/

section
variable {s : State} {ctx va core n : Nat} {w : Want} {h : L2Line} (hs : lineServes s ctx va core w h)
include hs

theorem lineServes_mem_homeTags : h.key ∈ s.homeTags.2 := by
  obtain ⟨hl2, -⟩ := hs
  exact List.mem_map_of_mem (List.mem_of_find?_eq_some hl2)

theorem lineServes_noneHeld : s.noneHeld := by
  obtain ⟨-, -, -, -, -, -, -, -, hnone, -⟩ := hs
  exact hnone

/-- The line itself is where the access is served, and finding it changes nothing. -/
theorem State.site_of_lineServes : s.site ctx va w (some core) = .ok (.l2 h.key, h.perm, s) := by
  obtain ⟨hl2, hva, hheld, hallows, hown, hplace, -, hasked, -⟩ := hs
  unfold State.site
  rw [if_neg (Nat.not_le.2 hva), hheld]
  dsimp only
  rw [hl2]
  dsimp only
  rw [hasked, hallows, hown]
  cases hp : h.place with
  | host a => exact absurd hp (hplace a)
  | lpddr | wstore | remote => rfl

theorem State.sites_of_lineServes : s.sites ctx w { core := some core } [(va, n)] = .ok ([(.l2 h.key, va, n)], s) := by
  have hsettle := State.settleFor_of_noneHeld (lineServes_noneHeld hs) core (s.ctxAt ctx).asid (va / 128)
  have hsite := State.site_of_lineServes hs
  obtain ⟨-, -, -, -, -, -, htyp, -, -, hwrite, hshd⟩ := hs
  have hhost : (h.perm.typ == .host) = false := by simpa using htyp
  simp only [State.sites, hsettle, hsite, hhost, hshd]
  cases hw : w.wr with
  | false => simp
  | true =>
    obtain ⟨hwstore, hfrozen⟩ := hwrite hw
    simp [hwstore, hfrozen]

/-- An access that the L2 serves makes no hotness sample (R222). -/
theorem State.sampleSites_of_lineServes (x : Site) (label typ : Nat) (who : Option (Nat × Reader)) :
    s.sampleSites s ctx label typ w (some core) who [(x, va, n)] = s := by
  obtain ⟨hl2, -, -, hallows, hown, -⟩ := hs
  have hserves : s.l2Serves ctx va w (some core) = true := by
    unfold State.l2Serves
    rw [hl2]
    simp [hallows, hown]
  simp [State.sampleSites, hserves]

/-- The line is in its slice, so that the access takes the time of the slice (R132). -/
theorem State.tierCycles_of_lineServes (p : Place) :
    s.tierCycles core (s.ctxAt ctx).asid va p = if homeSlice (va / 128) / 48 = dieOf core then 160 else 290 := by
  obtain ⟨hl2, -⟩ := hs
  simp [State.tierCycles, hl2]

theorem State.placeOf_of_lineServes : ∃ p, s.placeOf (.l2 h.key, va, n) = some p := by
  obtain ⟨x, hx⟩ := State.exists_l2Key? (lineServes_mem_homeTags hs)
  exact ⟨x.place.add (va % 128), by simp [State.placeOf, hx]⟩

end

end Sys2Proof.Machine
end

section
/-! PROOFS. A teller's loads, stores and atomics at their homes: O26. -/

namespace Sys2Proof.Machine
open Sys2Proof.Claims

/-! ## What an access at the home leaves behind (R241, R265) -/

theorem State.group?_of_work {s t : State} (h : t.work = s.work) (gid : GroupId) : t.group? gid = s.group? gid := by
  have hgroups : t.groups = s.groups := congrArg Work.groups h
  rw [State.group?, State.group?, hgroups]

/-- An acquire by a teller over which no L1 holds a store puts nothing before it (log 140). -/
theorem State.group?_tellerAcquire {u : State} {g : Group} (h : u.noneHeld) (hg : u.group? g.id = some g) :
    (u.tellerAcquire g).group? g.id = some g := by
  obtain ⟨-, hself, -⟩ := State.modTeller_spec hg fun t => { t with after := t.after ++ u.heldInL1 g.id.column }
  refine hself.trans ?_
  rw [State.heldInL1_of_noneHeld h, List.append_nil]

theorem State.l2Key?_tellerAcquire (u : State) (g : Group) (k : LineKey) : (u.tellerAcquire g).l2Key? k = u.l2Key? k := rfl

/-- A teller's write at the home stands in its line, and is one more access in flight, which no L1 holds (R265). -/
theorem State.owedAck_writeL2 {u : State} (h : u.noneHeld) {k : LineKey} (hk : k ∈ u.homeTags.2) (g : Group) {va n : Nat} (bs : List Byte)
    (hfit : va % 128 + n ≤ 128) :
    ((u.writeL2 k (va % 128) bs).owedAck g va n).noneHeld ∧ ((u.writeL2 k (va % 128) bs).owedAck g va n).accs ≠ u.accs ∧
      (bs.length = n → ∃ x, ((u.writeL2 k (va % 128) bs).owedAck g va n).l2Key? k = some x ∧ x.dirty = true ∧ lineBytesAt x va n = bs) := by
  have haccs := State.writeL2_accs h k (va % 128) bs
  refine ⟨fun a ha => ?_, fun hsame => ?_, fun hlen => State.writeL2_lineBytes h hk hfit hlen⟩
  · obtain ha | ha := List.mem_append.1 ha
    · exact h a (haccs ▸ ha)
    · rw [List.mem_singleton.1 ha]
      rfl
  · have hlonger := congrArg List.length (hsame.trans haccs.symm)
    simp [State.owedAck] at hlonger

/-- An aligned word or pair lies in one line. -/
theorem aligned_in_line {va n : Nat} (hn : n = 4 ∨ n = 8) (h : va % n = 0) : va % 128 + n ≤ 128 := by
  obtain rfl | rfl := hn <;> omega

/-- An access at the line that serves it: the old bytes, the time of its slice, and the line as it leaves it; its group is as before, and
a change of memory is owed its acknowledgement (R132, R263 to R265). -/
theorem State.tellerGlobal_of_lineServes {s : State} {g : Group} {va n : Nat} {k : TellerAct} {h : L2Line}
    (hs : lineServes s g.ctx va g.core k.want h) (hg : s.group? g.id = some g) (hfit : va % 128 + n ≤ 128)
    (hahead : k.want ≠ .load → s.writesAhead g.core (s.ctxAt g.ctx).asid (va / 128) = false) :
    ∃ u, s.tellerGlobal g va n k = .ok (k.gives (s.readSite (.l2 h.key) va n).1,
        (if homeSlice (va / 128) / 48 = dieOf g.core then 160 else 290) + (if k.want = .atomic then 8 else 0), u) ∧
      u.group? g.id = some g ∧ (u.accs = s.accs ↔ k.leaves (s.readSite (.l2 h.key) va n).1 = none) ∧
      ∀ bs, k.leaves (s.readSite (.l2 h.key) va n).1 = some bs → bs.length = n →
        ∃ x, u.l2Key? h.key = some x ∧ x.dirty = true ∧ lineBytesAt x va n = bs := by
  have hnone := lineServes_noneHeld hs
  have hmem := lineServes_mem_homeTags hs
  have hgroup : ∀ u : State, u.work = s.work → u.group? g.id = some g := fun u hu => (State.group?_of_work hu g.id).trans hg
  have hread : (s.readSite (.l2 h.key) va n).2.homeTags = s.homeTags ∧ (s.readSite (.l2 h.key) va n).2.work = s.work := by
    simp [State.readSite_l2_snd]
  obtain ⟨htags, hwork⟩ := hread
  have hnoneRead := State.noneHeld_congr hnone htags
  have hfree : (k.writes && s.writesAhead g.core (s.ctxAt g.ctx).asid (va / 128)) = false := by
    cases k with
    | load => rfl
    | store | atomic => exact hahead (by simp only [TellerAct.want]; decide)
  obtain ⟨p, hp⟩ := State.placeOf_of_lineServes (n := n) hs
  unfold State.tellerGlobal
  rw [hfree, State.sites_of_lineServes hs]
  dsimp only
  rw [hp, State.sampleSites_of_lineServes hs]
  dsimp only
  rw [State.tierCycles_of_lineServes hs]
  cases k with
  | load =>
    refine ⟨_, rfl, State.group?_tellerAcquire hnoneRead (hgroup _ hwork), ⟨fun _ => rfl, fun _ => congrArg Prod.fst htags⟩, fun _ hbs => ?_⟩
    cases hbs
  | store bs =>
    obtain ⟨-, haccs, hline⟩ := State.owedAck_writeL2 hnone hmem g bs hfit
    refine ⟨_, rfl, hgroup _ (State.writeL2_work s h.key _ bs), ⟨fun hsame => absurd hsame haccs, fun hleaves => ?_⟩, fun bs' hbs => ?_⟩
    · cases hleaves
    · cases hbs
      exact hline
  | atomic f kind =>
    dsimp only
    rw [State.updateSite_l2]
    obtain ⟨hheld, haccs, hline⟩ := State.owedAck_writeL2 hnoneRead (htags ▸ hmem) g (f (s.readSite (.l2 h.key) va n).1) hfit
    rw [show (s.readSite (.l2 h.key) va n).2.accs = s.accs from congrArg Prod.fst htags] at haccs
    refine ⟨_, rfl, State.group?_tellerAcquire hheld (hgroup _ ((State.writeL2_work ..).trans hwork)),
      ⟨fun hsame => absurd hsame haccs, fun hleaves => ?_⟩, fun bs hbs => ?_⟩
    · cases hleaves
    · cases hbs
      rw [State.l2Key?_tellerAcquire]
      exact hline

/-! ## The endings of an access at its home -/

/-- An access through another segment than the window's, aligned, ends as its home answers (R228, R256). -/
theorem exec_tellerAccRow_glob {i : Instr} {r : TellerAcc} {g : Group} (hi : tellerAccRow i = some r) (hk : segAt g r < 7)
    (halign : (addressAt g r).toNat % r.size = 0) (s : State) : ∃ act, exec i s = tellerOp act s ∧
    (∀ old c u, s.tellerGlobal g (addressAt g r).toNat r.size (r.act g.teller) = .ok (old, c, u) → act s g = .done u (r.results old) c) ∧
    ∀ d, s.tellerGlobal g (addressAt g r).toNat r.size (r.act g.teller) = .error d → act s g = d.tend s r.want := by
  refine ⟨_, exec_tellerAccRow hi s, fun old c u hu => ?_, fun d hd => ?_⟩
  · rw [teleAddr_addressAt hk]
    dsimp only
    rw [if_neg (Decidable.not_not.2 halign), hu]
  · rw [teleAddr_addressAt hk]
    dsimp only
    rw [if_neg (Decidable.not_not.2 halign), hd, ← tellerAccRow_want hi g.teller]

theorem tellerOp_held {s : State} {g : Group} {act : State → Group → TEnd} (h : s.curTeller = some g) (ha : act s g = .held) :
    tellerOp act s = .next s := by
  simp [tellerOp, h, ha]

theorem tellerOp_park {s : State} {g : Group} {act : State → Group → TEnd} {cause va : Nat} {w : Want} (h : s.curTeller = some g)
    (ha : act s g = .park s cause va w) :
    tellerOp act s = .next ((s.record g.id g.ctx va cause 4 w).2.modTeller g.id fun t =>
      { t with parked := some (s.record g.id g.ctx va cause 4 w).1 }) := by
  simp [tellerOp, h, ha]

theorem State.writeRecords_work (s : State) (ctx : Nat) (fs : List FaultRec) : (s.writeRecords ctx fs).work = s.work := by
  induction fs generalizing s with
  | nil => rfl
  | cons f fs ih =>
    unfold State.writeRecords
    split
    · exact ih s
    · split
      · rfl
      · rename_i u hu
        have hput : u.work = s.work := State.ringPut_work hu
        exact (ih _).trans hput

/-- A fault record changes no group (R219). -/
theorem State.record_groups (s : State) (gid : GroupId) (ctx va cause access : Nat) (w : Want) :
    (s.record gid ctx va cause access w).2.groups = s.groups := by
  unfold State.record
  dsimp only
  split
  · rfl
  · exact congrArg Work.groups (State.writeRecords_work _ ctx _)

/-- A teller instruction that parks on a translation fault leaves its teller at the instruction, with its registers (R219, R257). -/
theorem tellerOp_parks {s : State} {g : Group} {act : State → Group → TEnd} {cause va : Nat} {w : Want} (h : s.curTeller = some g)
    (ha : act s g = .park s cause va w) : ∃ t fid y, tellerOp act s = .next t ∧ t.group? g.id = some y ∧ y.teller.parked = some fid ∧
      y.teller.pc = g.teller.pc ∧ y.teller.s = g.teller.s := by
  obtain ⟨hg, -, -⟩ := State.curTeller_spec h
  have hrec : (s.record g.id g.ctx va cause 4 w).2.group? g.id = some g := by
    rw [State.group?, State.record_groups]
    exact hg
  obtain ⟨-, hself, -⟩ := State.modTeller_spec hrec fun t => { t with parked := some (s.record g.id g.ctx va cause 4 w).1 }
  exact ⟨_, _, _, tellerOp_park h ha, hself, rfl, rfl, rfl⟩

/-- A teller instruction that traps in a column that runs stops it (R367 to R369). -/
theorem tellerOp_traps {i : Instr} {s : State} {g : Group} {act : State → Group → TEnd} {cls code : Nat} {va : Addr}
    (he : exec i s = tellerOp act s) (h : s.curTeller = some g) (hc : columnRuns s g) (ha : act s g = .trap cls code va) :
    tellerTraps i s g cls code va := by
  obtain ⟨c, hc, hstop⟩ := hc
  obtain ⟨hs, st, hst, hreason, hbegun, htrap⟩ := State.takeTrap_spec hc hstop (Trap.ofTeller cls code g.id g.teller.pc va)
  refine ⟨_, st, he.trans (tellerOp_trap h ha), ?_, ?_, hst, hreason, hbegun, htrap⟩
  · rw [hs]
  · rw [hs]

/-- Settles O26: the access ends as its home answers, and a line that serves it answers with its own bytes. -/
theorem tellerGlobalAccesses : Obligations.TellerGlobalAccesses := by
  unfold Obligations.TellerGlobalAccesses
  intro i r s g hi h hk halign va asid home
  obtain ⟨hg, -, -⟩ := State.curTeller_spec h
  obtain ⟨act, he, hok, herr⟩ := exec_tellerAccRow_glob hi hk halign s
  refine ⟨fun l hserves hahead => ?_, fun old cycles u hhome => ?_, fun hhome => ?_, fun cause va hhome => ?_, fun va hc => ?_⟩
  · have hwant := tellerAccRow_want hi g.teller
    have hfit := aligned_in_line (tellerAccRow_size hi) halign
    have hnew := tellerAccRow_new hi g.teller (State.readSite_l2_length s l.key hfit)
    obtain ⟨u, hu, hgroup, haccs, hline⟩ :=
      State.tellerGlobal_of_lineServes (k := r.act g.teller) (by rw [hwant]; exact hserves) hg hfit (by rw [hwant]; exact hahead)
    have hdone := hok _ _ _ hu
    rw [tellerAccRow_results hi, hwant] at hdone
    rw [← hnew] at haccs hline
    obtain ⟨-, hself, -⟩ := State.modTeller_spec hgroup fun t => t.complete _ (t.pc + 4) (s.cycle g.core + _)
    refine ⟨_, he.trans (tellerOp_done h hdone), hself.trans ?_, haccs, fun bs hbs => hline bs hbs (tellerAccRow_new_length hi _ hbs)⟩
    rw [Teller.complete_eq]
    rfl
  · rw [he, tellerOp_done h (hok _ _ _ hhome)]
    simp only [Teller.complete_eq]
    rfl
  · rw [he, tellerOp_held h (herr _ hhome)]
  · rw [he]
    exact tellerOp_parks h (herr _ hhome)
  · exact ⟨fun hhome => tellerOp_traps he h hc (herr _ hhome), fun hhome => tellerOp_traps he h hc (herr _ hhome),
      fun hhome => tellerOp_traps he h hc (herr _ hhome), fun hhome => tellerOp_traps he h hc (herr _ hhome)⟩

end Sys2Proof.Machine
end

section
/-! PROOFS. `stflag`, `hint` and `ifence`: O12. -/

namespace Sys2Proof.Machine
open Sys2Proof.Claims

/-! ## Two changes of one strand -/

theorem updWhere_updWhere {α : Type} (p : α → Bool) {f g : α → α} (hg : ∀ a, p (g a) = p a) (l : List α) :
    updWhere p f (updWhere p g l) = updWhere p (f ∘ g) l := by
  simp only [updWhere, List.map_map]
  refine List.map_congr_left fun a _ => ?_
  cases h : p a <;> simp [h, hg]

theorem Thread.modStrand_modStrand (t : Thread) (n : Nat) {f g : Strand → Strand} (hg : ∀ st, (g st).n = st.n) :
    (t.modStrand n g).modStrand n f = t.modStrand n (f ∘ g) := by
  simp only [Thread.modStrand]
  rw [updWhere_updWhere _ fun st => by simp [hg]]

theorem Group.modThread_modThread (g : Group) (tid : Nat) (f h : Thread → Thread) :
    (g.modThread tid h).modThread tid f = g.modThread tid (f ∘ h) := by
  simp only [Group.modThread, List.modify_modify_eq]

theorem State.modGroup_modGroup (s : State) (g : GroupId) (f : Group → Group) {h : Group → Group} (hh : ∀ x, (h x).id = x.id) :
    (s.modGroup g h).modGroup g f = s.modGroup g (f ∘ h) :=
  congrArg (fun G => { s with groups := G }) (updWhere_updWhere (·.id == g) (fun x => by simp [hh]) s.groups)

theorem State.modThread_modThread (s : State) (g : GroupId) (tid : Nat) (f h : Thread → Thread) :
    (s.modThread g tid h).modThread g tid f = s.modThread g tid (f ∘ h) :=
  (State.modGroup_modGroup s g (·.modThread tid f) (h := (·.modThread tid h)) fun _ => rfl).trans
    (congrArg (s.modGroup g) (funext fun x => x.modThread_modThread tid f h))

theorem State.modStrand_modStrand (s : State) (g : GroupId) (tid n : Nat) (f : Strand → Strand) {h : Strand → Strand}
    (hh : ∀ st, (h st).n = st.n) : (s.modStrand g tid n h).modStrand g tid n f = s.modStrand g tid n (f ∘ h) :=
  (State.modThread_modThread s g tid _ _).trans (congrArg (s.modThread g tid) (funext fun t => t.modStrand_modStrand n hh))

/-! ## Flags and hints (R149, R200, R201) -/

/-- What `stflag` makes of a strand that has issued: the word it read is in flight, and the clearing form has cleared what it read. -/
def Lane.flagsRead (l : Lane) (c : Nat) (r : Nat × Bool) (st : Strand) : Strand :=
  { st with
    pend := st.pend ++ [inFlight l (c + 4) [(r.1, (l.st.readFlags c).word)] {}]
    flags := if r.2 then st.flags.minus (l.st.readFlags c) else st.flags }

/-- `stflag` puts its result in flight and clears, which is one change of the strand. -/
theorem exec_flagRow_modStrand {i : Instr} {fm : Form} {r : Nat × Bool} (h : flagRow i = some r) (hf : i.form = some fm) (s : State) :
    exec i s = .next (s.issueWith fm noCause fun c lanes u =>
      lanes.foldl (fun u l => u.modStrand l.gid l.tid l.st.n (l.flagsRead c r)) u) := by
  rw [exec_flagRow h hf s]
  congr 2
  funext c lanes u
  congr 1
  funext u l
  unfold Lane.flagsRead
  cases r.2
  · rfl
  · exact State.modStrand_modStrand u _ _ _ _ fun _ => rfl

theorem flagRow_strands {i : Instr} {fm : Form} {r : Nat × Bool} {s : State} (hi : flagRow i = some r) (hf : i.form = some fm)
    (h : s.issues fm = true) :
    ∃ t, exec i s = .next t ∧ strandsBecome s t fm fun l => l.flagsRead (now s) r (l.stepped (now s) fm) :=
  ⟨_, exec_flagRow_modStrand hi hf s,
    State.issueWith_strands noCause _ (fun l => l.flagsRead (now s) r) (fun _ _ => rfl) h (fun _ _ => rfl) fun _ _ _ => rfl⟩

theorem hintRow_strands {i : Instr} {fm : Form} {r : Nat × Bool} {s : State} (hi : hintRow i = some r) (hf : i.form = some fm)
    (h : s.issues fm = true) :
    ∃ t, exec i s = .next t ∧ strandsBecome s t fm fun l =>
      { l.stepped (now s) fm with hint := some { urgent := r.2, until_ := now s + 4 * (r.1 + 1) } } :=
  ⟨_, exec_hintRow hi hf s,
    State.issueWith_strands noCause _ (fun _ st => { st with hint := some { urgent := r.2, until_ := now s + 4 * (r.1 + 1) } })
      (fun _ _ => rfl) h (fun _ _ => rfl) fun _ _ _ => rfl⟩

/-! ## Dropping code lines (R199) -/

/-- The code lines without those of a core that an ASID matches, which the lines of global pages are for every ASID. -/
def withoutCode (code : List CodeLine) (core asid : Nat) : List CodeLine :=
  code.filter fun c => !(c.core == core && tagMatch c.key.asid asid)

theorem mem_withoutCode {code : List CodeLine} {core asid : Nat} {c : CodeLine} :
    c ∈ withoutCode code core asid ↔ c ∈ code ∧ ¬(c.core = core ∧ (c.key.asid = none ∨ c.key.asid = some asid)) := by
  have htag : tagMatch c.key.asid asid = true ↔ c.key.asid = none ∨ c.key.asid = some asid := by
    cases c.key.asid <;> simp [tagMatch]
  rw [withoutCode, List.mem_filter, Bool.not_eq_true', ← Bool.not_eq_true, Bool.and_eq_true, beq_iff_eq, htag]

theorem State.ready_ne_nil {s : State} {fm : Form} (h : s.issues fm = true) : s.ready fm ≠ [] := by
  simp only [State.issues, Bool.and_eq_true] at h
  simpa using h.1.2

/-- `ifence` of a bundle of one context issues, and drops the code lines of its core that the context's ASID matches. -/
theorem exec_ifence {w : BitVec 3} {fm : Form} {s : State} {ctx : Nat} (hf : (Instr.ifence w).form = some fm) (h : s.issues fm = true)
    (hctx : ∀ l ∈ s.ready fm, l.g.ctx = ctx) :
    ∃ u, exec (.ifence w) s = .next { u with code := withoutCode s.code s.curCore (s.ctxAt ctx).asid } ∧ s.Issued u fm.use.dq ∧
      (∀ l ∈ s.ready fm, u.thread? l.gid l.tid = some (l.issuedThread (now s) fm l.t)) ∧ othersKept s u fm := by
  cases hf
  obtain ⟨u, hu, hi, ht, ho⟩ := State.issueWith_ok noCause (fun _ lanes s =>
    match lanes with
    | [] => s
    | l :: _ => { s with code := withoutCode s.code s.curCore (s.ctxAt l.g.ctx).asid }) h fun _ _ => rfl
  refine ⟨u, (congrArg Host.Outcome.next hu).trans ?_, hi, ht, ho⟩
  obtain ⟨l, rest, hready⟩ := List.exists_cons_of_ne_nil (State.ready_ne_nil h)
  have hl : l.g.ctx = ctx := hctx l (by rw [hready]; exact .head _)
  obtain ⟨⟨G, C, rfl⟩, -, -⟩ := hi
  rw [hready, ← hl]
  rfl

/-- Settles O12: `stflag` and `hint` change the strand of each thread once, and `ifence` filters the code lines after an issue that
changes the strands as any does. -/
theorem flagsHintsAndIfence : Obligations.FlagsHintsAndIfence := by
  unfold Obligations.FlagsHintsAndIfence
  refine ⟨⟨fun i d clear fm s hi hf h => ?_, fun i d urgent fm s hi hf h => hintRow_strands hi hf h⟩, fun w fm s ctx hf h hctx => ?_⟩
  · obtain ⟨t, he, hbecome⟩ := flagRow_strands hi hf h
    refine ⟨t, he, fun l hl => (hbecome l hl).trans ?_⟩
    simp only [Lane.flagsRead, Strand.readFlags, beq_iff_eq]
    rfl
  · obtain ⟨u, he, hi, ht, ho⟩ := exec_ifence hf h hctx
    refine ⟨_, he, ⟨?_, ho, fun l hl => ⟨_, ht l hl, l.sameBut_issuedThread _ fm, rfl⟩⟩, fun l hl => ?_, fun c => mem_withoutCode⟩
    · obtain ⟨hs, hg, hc⟩ := hi.onlyWork
      refine ⟨?_, hg, hc⟩
      rw [hs]
    · obtain ⟨-, -, hst, -⟩ := State.ready_spec hl
      have hstrand := congrArg (Option.bind · (·.strand? l.st.n)) (ht l hl)
      exact hstrand.trans (Lane.issuedThread_strand? hst _ fm)

end Sys2Proof.Machine
end

section
/-! PROOFS. The teller's formats, mode, reads and clock requests: O30, which fails for a launch that replays a log without CAPTURE. What
holds of each instruction is proved first, then the counterexample. -/

namespace Sys2Proof.Machine
open Sys2Proof.Claims

/-! ## Changes of the teller's group -/

/-- A change of one group that keeps its name. -/
theorem groupBecomes_modGroup {s : State} {g : Group} (hg : s.group? g.id = some g) {f : Group → Group} (hf : ∀ x, (f x).id = x.id) :
    groupBecomes s (s.modGroup g.id f) g (f g) := by
  refine ⟨rfl, State.group?_modGroup_self hg hf, fun k hk => ?_⟩
  rw [State.group?_modGroup s k g.id f hf]
  cases hx : s.group? k with
  | none => rfl
  | some x =>
    have hne : x.id ≠ g.id := by rw [State.group?_id hx]; exact hk
    simp [hne]

theorem Teller.complete_eq_tellerDone (s : State) (g : Group) (ws : List (BitVec 6 × Word)) (n : Nat) :
    g.teller.complete ws (g.teller.pc + 4) (s.cycle g.core + n) = tellerDone s g ws n := by
  rw [Teller.complete_eq]
  rfl

/-- A teller instruction that changes its group by `f`, which leaves the teller alone, and completes. -/
theorem tellerOp_modGroup {s : State} {g : Group} {act : State → Group → TEnd} {f : Group → Group} {ws : List (BitVec 6 × Word)} {n : Nat}
    (h : s.curTeller = some g) (ha : act s g = .done (s.modGroup g.id f) ws n) (hf : ∀ x, (f x).id = x.id)
    (hteller : (f g).teller = g.teller) :
    ∃ t, tellerOp act s = .next t ∧ groupBecomes s t g { f g with teller := tellerDone s g ws n } := by
  obtain ⟨hg, -, -⟩ := State.curTeller_spec h
  refine ⟨_, tellerOp_done h ha, ?_⟩
  rw [State.modTeller, State.modGroup_modGroup s g.id _ hf, ← Teller.complete_eq_tellerDone, ← hteller]
  exact groupBecomes_modGroup hg hf

/-! ## Formats and the mode (R143, R277, R278) -/

/-- On the cycle of a change the formats are read as they were, and on any other as they are now (R143). -/
theorem Group.nfAt_reformat (g : Group) (c c' j : Nat) (nf : List Word) (sf : Bool) :
    (g.reformat c nf sf).nfAt c' j = if c = c' then g.nfAt c' j else nf.getD j fmtReset := by
  by_cases h : c = c' <;> simp [Group.nfAt, Group.reformat, h]

/-- The mode likewise (R143, R174). -/
theorem Group.sfAt_reformat_same (g : Group) (c : Nat) (nf : List Word) (sf : Bool) : (g.reformat c nf sf).sfAt c = g.sfAt c := by
  simp [Group.sfAt, Group.reformat]

/-- A write of a legal word to a format register, its feature there (R46, R141, R277). -/
theorem writeFormat_legal {w : Word} (hlegal : fmtLegal w = true) (hxv : w.getLsbD 18 = true → Config.available 7 = true)
    (k : BitVec 3) (s : State) (g : Group) :
    writeFormat k w s g = .done (s.modGroup g.id fun x => x.reformat (s.cycle x.core) (x.nf.set k.toNat w) x.sfmode) [] 1 := by
  have hthere : (w.getLsbD 18 && !Config.available 7) = false := by
    cases h : w.getLsbD 18 with
    | false => rfl
    | true => simp [hxv h]
  unfold writeFormat
  rw [hlegal, hthere]
  rfl

theorem xvEnable_eq_ofNat {v : Word} (h : v.toNat < 2 ^ 9) : (v &&& 0x100#32) <<< 10 = BitVec.ofNat 32 (v.toNat / 2 ^ 8 * 2 ^ 18) := by
  have htest : v.getLsbD 8 = decide (v.toNat / 2 ^ 8 % 2 = 1) := Nat.testBit_eq_decide_div_mod_eq
  have hmask : v &&& 0x100#32 = if v.getLsbD 8 = true then 0x100#32 else 0#32 := BitVec.and_twoPow v 8
  obtain hclear | hset : v.toNat / 2 ^ 8 = 0 ∨ v.toNat / 2 ^ 8 = 1 := by omega
  · rw [hmask, htest, hclear]
    rfl
  · rw [hmask, htest, hset]
    rfl

theorem xvCode_eq_ofNat (v : Word) : (v &&& 0xFF#32) <<< 19 = BitVec.ofNat 32 (v.toNat % 2 ^ 8 * 2 ^ 19) := by
  have hmask : (v &&& 0xFF#32).toNat = v.toNat % 2 ^ 8 := Nat.and_two_pow_sub_one_eq_mod v.toNat 8
  rw [shiftLeft_eq_ofNat, hmask]

/-- The word that an instruction would write to format register `k`: `setfmt` its operand, `setxv` the register's own with XV_EN and XV
replaced (R277). -/
def formatWritten (g : Group) (a : BitVec 6) (k : BitVec 3) (w : Word) (i : Instr) : Prop :=
  i = .setfmt a k ∧ w = g.teller.reg a ∨
    i = .setxv a k ∧ (g.teller.reg a).toNat < 2 ^ 9 ∧
      w = (g.nf.getD k.toNat fmtReset &&& ~~~0x07FC0000#32) ||| BitVec.ofNat 32 ((g.teller.reg a).toNat / 2 ^ 8 * 2 ^ 18) |||
        BitVec.ofNat 32 ((g.teller.reg a).toNat % 2 ^ 8 * 2 ^ 19)

theorem exec_formatWritten {g : Group} {a : BitVec 6} {k : BitVec 3} {w : Word} {i : Instr} (hi : formatWritten g a k w i) (s : State) :
    ∃ act, exec i s = tellerOp act s ∧ act s g = writeFormat k w s g := by
  obtain ⟨rfl, rfl⟩ | ⟨rfl, hsmall, rfl⟩ := hi
  · exact ⟨fun s g => writeFormat k (g.teller.reg a) s g, rfl, rfl⟩
  · change ∃ act, execSetxv a k s = tellerOp act s ∧ _
    refine ⟨_, rfl, ?_⟩
    dsimp only
    rw [if_neg (by omega), xvEnable_eq_ofNat hsmall, xvCode_eq_ofNat]

/-- `setfmt` and `setxv` write one format register, which instructions of the same cycle do not see (R143, R277). -/
theorem formatWritten_formats {s : State} {g : Group} {a : BitVec 6} {k : BitVec 3} {w : Word} {i : Instr} (h : s.curTeller = some g)
    (hi : formatWritten g a k w i) (hlegal : fmtLegal w = true) (hxv : w.getLsbD 18 = true → Config.available 7 = true) :
    ∃ t G, exec i s = .next t ∧ groupBecomes s t g G ∧ G.teller = tellerDone s g [] 1 ∧ G.nf = g.nf.set k.toNat w ∧ G.sfmode = g.sfmode ∧
      ∀ c j, G.nfAt c j = if s.cycle g.core = c then g.nfAt c j else G.nf.getD j fmtReset := by
  obtain ⟨act, he, ha⟩ := exec_formatWritten hi s
  obtain ⟨t, ht, hbecomes⟩ := tellerOp_modGroup h (ha.trans (writeFormat_legal hlegal hxv k s g)) (fun _ => rfl) rfl
  exact ⟨t, _, he.trans ht, hbecomes, rfl, rfl, rfl, fun c j => g.nfAt_reformat (s.cycle g.core) c j (g.nf.set k.toNat w) g.sfmode⟩

/-- `sfmode` sets the mode, which instructions of the same cycle do not see (R143, R174, R278). -/
theorem sfmode_mode {s : State} {g : Group} (h : s.curTeller = some g) (m : BitVec 1) :
    ∃ t G, exec (.sfmode m) s = .next t ∧ groupBecomes s t g G ∧ G.teller = tellerDone s g [] 1 ∧ G.nf = g.nf ∧
      (G.sfmode = true ↔ m = 1) ∧ G.sfAt (s.cycle g.core) = g.sfAt (s.cycle g.core) := by
  obtain ⟨t, ht, hbecomes⟩ := tellerOp_modGroup (f := fun x => x.reformat (s.cycle x.core) x.nf (m == 1#1))
    (act := fun s g => .done (s.modGroup g.id fun g => g.reformat (s.cycle g.core) g.nf (m == 1#1)) [] 1) h rfl (fun _ => rfl) rfl
  exact ⟨t, _, ht, hbecomes, rfl, rfl, beq_iff_eq, g.sfAt_reformat_same (s.cycle g.core) g.nf (m == 1#1)⟩

/-! ## Clock requests (R279) -/

/-- A launch's clock request is another word, and the exchange is triggered where the launch governs. -/
def State.clockAsked (s : State) (launch : Nat) (w : Word) : State :=
  { s with
    launches := s.launches.map fun l => if l.seq = launch then { l with clkreq := w } else l
    exch := { s.exch with trigger := s.exch.trigger || s.governs launch } }

theorem exec_rreq (a : BitVec 6) (s : State) :
    exec (.rreq a) s = tellerOp (fun s g => .done (s.clockAsked g.id.launch (g.teller.reg a)) [] 1) s := by
  change execRreq a s = _
  unfold execRreq
  congr 1
  funext s g
  cases hgoverns : s.governs g.id.launch <;> simp [State.clockAsked, State.modLaunch, updWhere, hgoverns]

/-- `rreq` replaces its launch's clock request, and triggers the exchange where the launch governs (R279). -/
theorem rreq_requests {s : State} {g : Group} (h : s.curTeller = some g) (a : BitVec 6) :
    ∃ t, exec (.rreq a) s = .next t ∧ groupBecomes (s.clockAsked g.id.launch (g.teller.reg a)) t g { g with teller := tellerDone s g [] 1 } := by
  obtain ⟨hg, -, -⟩ := State.curTeller_spec h
  refine ⟨_, (exec_rreq a s).trans (tellerOp_done h rfl), ?_⟩
  rw [← Teller.complete_eq_tellerDone]
  exact State.modTeller_spec (u := s.clockAsked g.id.launch (g.teller.reg a)) hg _

/-! ## Non-deterministic reads of a launch without CAPTURE (R397, R398) -/

/-- A launch without CAPTURE logs no value (R397). -/
theorem State.logValue_uncaptured {s : State} {n : Nat} (h : uncaptured s n) (a : Reader) (src v : Nat) : s.logValue n a src v = s := by
  unfold State.logValue
  split
  · rfl
  · rename_i k hk
    simp [h k hk]

/-- Where its launch replays no log either, a read gives the live value and changes nothing (R397, R398). -/
theorem State.readValue_live {s : State} {n : Nat} (h : uncaptured s n) (hreplay : ∀ k, s.launch? n = some k → k.replay = none)
    (a : Reader) (src live : Nat) : s.readValue n a src live = (live, s) := by
  unfold State.readValue
  split
  · rfl
  · rename_i k hk
    simp [hreplay k hk, State.logValue_uncaptured h]

/-- A launch with RDIVERGE where `b` (R398). -/
def Launch.diverged (b : Bool) (l : Launch) : Launch := { l with rDiverge := l.rDiverge || b }

/-- A read that finds no entry in the log that its launch replays marks the launch, whether it captures or not (R398). -/
theorem State.readValue_noEntry {s : State} {n : Nat} {k : Launch} (hk : s.launch? n = some k) (hlog : k.replay = some [])
    (h : uncaptured s n) (a : Reader) (src live : Nat) :
    s.readValue n a src live = (live, s.modLaunch n (·.diverged (replayed src))) := by
  have hmarked : uncaptured (s.modLaunch n (·.diverged (replayed src))) n := fun x hx => by
    rw [State.launch?_modLaunch s n n (·.diverged (replayed src)) fun _ => rfl, hk, Option.map_some,
      if_pos (by simp [State.launch?_seq hk])] at hx
    cases hx
    exact h k hk
  unfold State.readValue
  simp only [hk, hlog, List.find?_nil]
  exact congrArg (Prod.mk live) (State.logValue_uncaptured hmarked ..)

theorem exec_ratio (d : BitVec 6) (s : State) :
    exec (.ratio d) s = tellerOp (fun s g =>
      let r := s.tellerValue g 24 (s.ratioWord (dieOf g.core)).toNat
      .done r.2 [(d, BitVec.ofNat 32 r.1)] 1) s := rfl

/-- `tread` of a register that a teller may read (R281). -/
theorem exec_tread (d : BitVec 6) {n : BitVec 18} (hlo : 4 ≤ n.toNat) (hhi : n.toNat ≤ 18) (s : State) :
    exec (.tread d n) s = tellerOp (fun s g =>
      let live := s.groupReg g n.toNat
      let r := if nondeterministic n.toNat then s.tellerValue g n.toNat live else (live, s)
      .done r.2 (if isWide n.toNat then pairWrites d r.1 else [(d, BitVec.ofNat 32 r.1)]) 1) s := by
  have hrange : ¬(n.toNat < 4 ∨ 18 < n.toNat) := by omega
  change execTread d n s = _
  unfold execTread
  simp only [hrange, if_false]

section
variable {s : State} {g : Group} (h : s.curTeller = some g) (hcapture : uncaptured s g.id.launch)
include h hcapture

section
variable (hreplay : ∀ k, s.launch? g.id.launch = some k → k.replay = none)
include hreplay

/-- `ratio` reads the ratio word of its die (R279). -/
theorem ratio_live (d : BitVec 6) : tellerCompletes (.ratio d) s g [(d, s.ratioWord (dieOf g.core))] 1 := by
  refine tellerOp_completes (exec_ratio d s) h ?_
  simp only [State.tellerValue, State.readValue_live hcapture hreplay, BitVec.ofNat_toNat, BitVec.setWidth_eq]

/-- `tread` reads the special registers 4 to 18, those of 64 bits to a pair (R281). -/
theorem tread_live (d : BitVec 6) {n : BitVec 18} (hlo : 4 ≤ n.toNat) (hhi : n.toNat ≤ 18) :
    tellerCompletes (.tread d n) s g
      ((d, BitVec.ofNat 32 (s.groupReg g n.toNat)) ::
        if n.toNat = 14 ∨ n.toNat = 15 ∨ n.toNat = 18 then [(d + 1, BitVec.ofNat 32 (s.groupReg g n.toNat / 2 ^ 32))] else []) 1 := by
  have hwide : isWide n.toNat = true ↔ n.toNat = 14 ∨ n.toNat = 15 ∨ n.toNat = 18 := by simp [isWide, or_assoc]
  refine tellerOp_completes (exec_tread d hlo hhi s) h ?_
  simp only [State.tellerValue, State.readValue_live hcapture hreplay, ite_self, hwide]
  split <;> rfl

end

/-- `ratio` of a launch that replays a log without an entry for it sets the launch's RDIVERGE (R279, R398). -/
theorem ratio_noEntry {k : Launch} (hk : s.launch? g.id.launch = some k) (hlog : k.replay = some []) (d : BitVec 6) :
    ∃ t, exec (.ratio d) s = .next t ∧ t.launches = updWhere (·.seq == g.id.launch) (·.diverged true) s.launches := by
  refine ⟨_, (exec_ratio d s).trans (tellerOp_done h rfl), ?_⟩
  simp only [State.tellerValue, State.readValue_noEntry hk hlog hcapture]
  rfl

end

/-! ## A launch that replays a log without CAPTURE -/

/-- A launch whose block sets no flag, CAPTURE neither, and which replays a log without entries. -/
def rerunWithoutCapture : Launch :=
  { State.reset.newLaunch { ctx := 0, block := List.replicate 256 0, arrived := (0, 0), replog := 0, slotted := true } with replay := some [] }

/-- The turn of the teller of a group of that launch. -/
def rerunTurn : State :=
  { State.reset with groups := [probeGroup 0], launches := [rerunWithoutCapture], cur := some (.teller (probeGroup 0).id) }

theorem rerunTurn_curTeller : rerunTurn.curTeller = some (probeGroup 0) := by decide +kernel

theorem rerunTurn_launch? : rerunTurn.launch? (probeGroup 0).id.launch = some rerunWithoutCapture := by decide +kernel

theorem rerunTurn_uncaptured : uncaptured rerunTurn (probeGroup 0).id.launch := fun k hk => by
  obtain rfl : rerunWithoutCapture = k := Option.some.inj (rerunTurn_launch?.symm.trans hk)
  decide +kernel

/-- Refutes O30: `uncaptured` asks that the launch does not capture, but not that it replays no log. Where it replays one that has no entry
for the ratio word, `ratio` sets RDIVERGE of its launch (R398), so that more than the teller changes. No block is accepted as such a launch
(`State.replayOf`), but the statement is about every state. The other clauses follow from the theorems above, and `ratio_live` and
`tread_live` are its clause about reads for a launch that replays none. -/
theorem not_tellerFormatsAndReads : ¬ Obligations.TellerFormatsAndReads := by
  unfold Obligations.TellerFormatsAndReads
  intro h
  obtain ⟨-, -, hreads, -⟩ := h rerunTurn (probeGroup 0) rerunTurn_curTeller
  obtain ⟨hratio, -⟩ := hreads rerunTurn_uncaptured
  obtain ⟨t, he, hs, -⟩ := hratio 1
  obtain ⟨u, hu, hmarked⟩ := ratio_noEntry rerunTurn_curTeller rerunTurn_uncaptured rerunTurn_launch? rfl 1
  obtain rfl : t = u := Host.Outcome.next.inj (he.symm.trans hu)
  have hkept : t.launches = rerunTurn.launches := by rw [hs]
  have hdiverge := congrArg (List.map Launch.rDiverge) (hmarked.symm.trans hkept)
  exact absurd hdiverge (by decide +kernel)

end Sys2Proof.Machine
end

section
/-! PROOFS. The integer instructions put the results of R155 to R157 in flight: O1. -/

namespace Sys2Proof.Machine
open Sys2Proof.Claims

/-! ## Patterns and the integers they stand for (R155 to R157) -/

/-- The clamp of SATM, then the value modulo 2^32 (R157). -/
theorem formS32_eq_narrowInt (v : Int) (m : SatMode) : formS32 v m = narrowInt m v := by
  unfold formS32 narrowInt satmInt
  cases m with
  | none => rfl
  | sat =>
    dsimp only
    congr 1
    omega
  | clamp01 =>
    have hclamp : max 0 (min 1 v) = if v ≤ 0 then 0 else 1 := by omega
    dsimp only
    rw [hclamp, apply_ite (BitVec.ofInt 32)]
    rfl
  | clampSym =>
    have hclamp : max (max (-2147483648) (-1)) (min 1 v) = if v < 0 then -1 else if v = 0 then 0 else 1 := by omega
    dsimp only
    rw [hclamp, apply_ite (BitVec.ofInt 32), apply_ite (BitVec.ofInt 32)]
    rfl

theorem ofInt_min_toInt (a b : Word) : BitVec.ofInt 32 (min a.toInt b.toInt) = if a.toInt ≤ b.toInt then a else b := by
  rw [Int.min_def, apply_ite (BitVec.ofInt 32), BitVec.ofInt_toInt, BitVec.ofInt_toInt]

theorem ofInt_max_toInt (a b : Word) : BitVec.ofInt 32 (max a.toInt b.toInt) = if a.toInt ≤ b.toInt then b else a := by
  rw [Int.max_def, apply_ite (BitVec.ofInt 32), BitVec.ofInt_toInt, BitVec.ofInt_toInt]

theorem ofNat_min_toNat (a b : Word) : BitVec.ofNat 32 (min a.toNat b.toNat) = if a.toNat ≤ b.toNat then a else b := by
  rw [Nat.min_def, apply_ite (BitVec.ofNat 32), BitVec.ofNat_toNat, BitVec.ofNat_toNat, BitVec.setWidth_eq, BitVec.setWidth_eq]

theorem ofNat_max_toNat (a b : Word) : BitVec.ofNat 32 (max a.toNat b.toNat) = if a.toNat ≤ b.toNat then b else a := by
  rw [Nat.max_def, apply_ite (BitVec.ofNat 32), BitVec.ofNat_toNat, BitVec.ofNat_toNat, BitVec.setWidth_eq, BitVec.setWidth_eq]

theorem map_val_finRange (n : Nat) : (List.finRange n).map Fin.val = List.range n := by
  apply List.ext_getElem
  · rw [List.length_map, List.length_finRange, List.length_range]
  · intro i _ _
    simp only [List.getElem_map, List.getElem_finRange, List.getElem_range, Fin.val_cast]

theorem countP_getLsbD_eq_length (b : Word) :
    (List.range 32).countP b.getLsbD = ((List.finRange 32).filter fun i => b[i]).length := by
  rw [← map_val_finRange, List.countP_map, List.countP_eq_length_filter]
  rfl

/-! ## Bit fields (R156) -/

/-- A field of `n` bits from bit `p`, unsigned: the quotient by 2^p, modulo 2^n. -/
theorem ushiftRight_and_lowBits (a : Word) (p n : Nat) :
    (a >>> p) &&& BitVec.ofNat 32 (2 ^ n - 1) = BitVec.ofNat 32 (a.toNat / 2 ^ p % 2 ^ n) := by
  rw [ushiftRight_eq_ofNat, ← BitVec.ofNat_and, Nat.and_two_pow_sub_one_eq_mod]

theorem ofNat_shiftLeft (m p : Nat) : BitVec.ofNat 32 m <<< p = BitVec.ofNat 32 (m * 2 ^ p) := by
  rw [shiftLeft_eq_ofNat]
  apply BitVec.eq_of_toNat_eq
  simp

theorem msb_shiftLeft_top (y : Word) {n : Nat} (hn : n ≤ 32) : (y <<< (32 - n)).msb = (y.setWidth n).msb := by
  rw [BitVec.msb_shiftLeft, BitVec.getMsbD, BitVec.msb_eq_getLsbD_last, BitVec.getLsbD_setWidth]
  obtain rfl | hpos := Nat.eq_zero_or_pos n
  · simp
  · rw [show 32 - 1 - (32 - n) = n - 1 by omega]
    simp [show n - 1 < n by omega, show 32 - n < 32 by omega]

/-- A shift to the top and an arithmetic shift back extend the sign of the low `n` bits. -/
theorem shiftLeft_sshiftRight_eq_signExtend (y : Word) {n : Nat} (hn : n ≤ 32) :
    (y <<< (32 - n)).sshiftRight (32 - n) = (y.setWidth n).signExtend 32 := by
  apply BitVec.eq_of_getLsbD_eq
  intro i hi
  rw [BitVec.getLsbD_sshiftRight, BitVec.getLsbD_signExtend, msb_shiftLeft_top y hn, BitVec.getLsbD_shiftLeft, BitVec.getLsbD_setWidth]
  have hle : ¬ 32 ≤ i := Nat.not_le.2 hi
  by_cases hin : i < n
  · have hlt : 32 - n + i < 32 := by omega
    have hge : ¬ 32 - n + i < 32 - n := by omega
    simp only [hi, hle, hin, hlt, hge, Nat.add_sub_cancel_left, decide_true, decide_false, Bool.not_false, Bool.true_and, if_true]
  · have hge : ¬ 32 - n + i < 32 := by omega
    simp only [hi, hle, hin, hge, decide_true, decide_false, Bool.not_false, Bool.true_and, if_false]

/-- The low `n` bits of an arithmetic shift: the floor of the quotient by 2^p, modulo 2^n. -/
theorem toNat_setWidth_sshiftRight (a : Word) (p : Nat) {n : Nat} (hn : n ≤ 32) :
    ((a.sshiftRight p).setWidth n).toNat = (a.toInt / 2 ^ p % 2 ^ n).toNat := by
  rw [BitVec.sshiftRight, BitVec.toNat_setWidth, BitVec.toNat_ofInt, Int.shiftRight_eq_div_pow]
  have hdvd : ((2 ^ n : Nat) : Int) ∣ ((2 ^ 32 : Nat) : Int) := Int.ofNat_dvd.2 (Nat.pow_dvd_pow 2 hn)
  have hpow : ∀ k, (2 : Int) ^ k = ((2 ^ k : Nat) : Int) := fun k => (Int.natCast_pow 2 k).symm
  rw [hpow n, ← Int.emod_emod_of_dvd _ hdvd, Int.toNat_emod (Int.emod_nonneg _ (by decide)) (Int.natCast_nonneg _), hpow p]
  rfl

theorem signExtend_eq_ite {n : Nat} (v : BitVec n) :
    v.signExtend 32 = if 0 < n ∧ v.toNat.testBit (n - 1) then BitVec.ofInt 32 ((v.toNat : Int) - 2 ^ n) else BitVec.ofNat 32 v.toNat := by
  have hmsb : v.msb = true ↔ 0 < n ∧ v.toNat.testBit (n - 1) := by
    simp [BitVec.msb, BitVec.getMsbD, BitVec.getLsbD]
  rw [BitVec.signExtend, BitVec.toInt_eq_msb_cond]
  simp only [hmsb]
  split
  · rw [Int.natCast_pow]; rfl
  · rw [BitVec.ofInt_natCast]

/-! ## The rules of R155 to R157 -/

/-- A function of what one element's computation reads is an integer rule of SATM and the patterns of e[D], e[X] and B, without a flag. -/
def computes (r : ElemIn → ElemOut) (rule : IntRule) : Prop := ∀ i, r i = Arith.plain (rule i.md.satm i.a i.x i.b)

theorem int_eq_narrowInt (i : ElemIn) (v : Int) : Arith.int i v = Arith.plain (narrowInt i.md.satm v) :=
  congrArg Arith.plain (formS32_eq_narrowInt ..)

theorem bool_eq_truth {b : Bool} {p : Prop} [Decidable p] (h : b = true ↔ p) : Arith.bool b = Arith.plain (truth p) := by
  unfold Arith.bool truth
  simp only [h]

@[simp] theorem add_computes : computes Arith.add addRule := fun _ => int_eq_narrowInt ..
@[simp] theorem sub_computes : computes Arith.sub subRule := fun _ => int_eq_narrowInt ..
@[simp] theorem rsub_computes : computes Arith.rsub rsubRule := fun _ => int_eq_narrowInt ..
@[simp] theorem mul_computes : computes Arith.mul mulRule := fun _ => int_eq_narrowInt ..
@[simp] theorem mad_computes : computes Arith.mad madRule := fun _ => int_eq_narrowInt ..
@[simp] theorem lea_computes : computes Arith.lea leaRule := fun _ => int_eq_narrowInt ..
@[simp] theorem mulhs_computes : computes Arith.mulhs mulhsRule := fun _ => congrArg Arith.plain (mulhs_eq_fdiv ..)
@[simp] theorem mulhn_computes : computes Arith.mulhn mulhnRule := fun _ => rfl
@[simp] theorem mins_computes : computes Arith.mins minsRule := fun _ => congrArg Arith.plain (ofInt_min_toInt ..).symm
@[simp] theorem maxs_computes : computes Arith.maxs maxsRule := fun _ => congrArg Arith.plain (ofInt_max_toInt ..).symm
@[simp] theorem minn_computes : computes Arith.minn minnRule := fun _ => congrArg Arith.plain (ofNat_min_toNat ..).symm
@[simp] theorem maxn_computes : computes Arith.maxn maxnRule := fun _ => congrArg Arith.plain (ofNat_max_toNat ..).symm
@[simp] theorem and_computes : computes Arith.and andRule := fun _ => rfl
@[simp] theorem or_computes : computes Arith.or orRule := fun _ => rfl
@[simp] theorem xor_computes : computes Arith.xor xorRule := fun _ => rfl
@[simp] theorem andn_computes : computes Arith.andn andnRule := fun _ => rfl
@[simp] theorem shl_computes : computes Arith.shl shlRule := fun _ => congrArg Arith.plain (shiftLeft_eq_ofNat ..)
@[simp] theorem shrn_computes : computes Arith.shrn shrnRule := fun _ => congrArg Arith.plain (ushiftRight_eq_ofNat ..)
@[simp] theorem shrs_computes : computes Arith.shrs shrsRule := fun _ => congrArg Arith.plain (sshiftRight_eq_ofInt ..)

@[simp] theorem rol_computes : computes Arith.rol rolRule := fun i => by
  have hcount : Arith.count i.b % 32 = i.b.toNat % 32 := Nat.mod_mod ..
  unfold Arith.rol
  rw [BitVec.rotateLeft_def, hcount]
  rfl

@[simp] theorem popc_computes : computes Arith.popc popcRule := fun i =>
  congrArg (fun n => Arith.plain (BitVec.ofNat 32 n)) (countP_getLsbD_eq_length i.b)
@[simp] theorem clz_computes : computes Arith.clz clzRule := fun _ => rfl
@[simp] theorem brev_computes : computes Arith.brev brevRule := fun _ => rfl
@[simp] theorem bfxn_computes : computes Arith.bfxn bfxnRule := fun _ => congrArg Arith.plain (ushiftRight_and_lowBits ..).symm

@[simp] theorem bfxs_computes : computes Arith.bfxs bfxsRule := fun i => by
  have hn : fieldLen i.b ≤ 32 := Nat.min_le_right ..
  have hfield := signExtend_eq_ite ((i.a.sshiftRight (Claims.fieldAt i.b)).setWidth (fieldLen i.b))
  rw [toNat_setWidth_sshiftRight _ _ hn, ← shiftLeft_sshiftRight_eq_signExtend _ hn] at hfield
  exact congrArg Arith.plain hfield.symm

@[simp] theorem bfi_computes : computes Arith.bfi bfiRule := fun _ => by
  unfold bfiRule
  rw [ofNat_shiftLeft]
  rfl

@[simp] theorem ceq_computes : computes Arith.ceq ceqRule := fun _ => bool_eq_truth beq_iff_eq
@[simp] theorem cne_computes : computes Arith.cne cneRule := fun _ => bool_eq_truth bne_iff_ne
@[simp] theorem clts_computes : computes Arith.clts cltsRule := fun _ => bool_eq_truth BitVec.slt_iff_toInt_lt
@[simp] theorem cles_computes : computes Arith.cles clesRule := fun _ => bool_eq_truth BitVec.sle_iff_toInt_le
@[simp] theorem cltn_computes : computes Arith.cltn cltnRule := fun _ => bool_eq_truth BitVec.ult_iff_toNat_lt
@[simp] theorem clen_computes : computes Arith.clen clenRule := fun _ => bool_eq_truth BitVec.ule_iff_toNat_le

/-! ## The integer instructions -/

/-- A fold that each element leaves where it is (Mathlib's `List.foldl_fixed'`, which the package does not import). -/
theorem foldl_fixed_of_eq {α β : Type} {f : α → β → α} {a : α} (h : ∀ b, f a b = a) (l : List β) : l.foldl f a = a := by
  induction l with
  | nil => rfl
  | cons b l ih => rw [List.foldl_cons, h, ih]

/-- What a rule without a flag makes of a thread. -/
theorem computes.results {r : ElemIn → ElemOut} {rule : IntRule} (h : computes r rule) (l : Lane) (c : Nat) (f : EFields) :
    l.results c f r = (intWrites l f rule, {}) := by
  refine Prod.ext ?_ ?_
  · exact (List.map_map ..).trans (List.map_congr_left fun dx _ => by rw [Function.comp_apply, h]; rfl)
  · exact (List.foldl_map ..).trans (foldl_fixed_of_eq (fun dx => by rw [h]; rfl) _)

/-- Each integer instruction is elementwise, with a function that computes the rule of its row: which one, the facts above say. -/
theorem exec_intRow {i : Instr} {fm : Form} {f : EFields} {lat : Nat} {rule : IntRule} (h : intRow i = some (f, lat, rule))
    (hf : i.form = some fm) (s : State) : ∃ r, computes r rule ∧ exec i s = elementwise fm f lat r s := by
  cases i
  all_goals cases hf
  all_goals cases h
  all_goals refine ⟨_, ?_, rfl⟩
  all_goals simp

/-- Settles O1: each integer instruction is elementwise, and what it computes for an element is its row's rule, without a flag. -/
theorem integerInstructions : Obligations.IntegerInstructions := by
  unfold Obligations.IntegerInstructions
  intro i f lat rule fm s hi hf h
  obtain ⟨r, hr, he⟩ := exec_intRow hi hf s
  obtain ⟨t, ht, hbecome⟩ := elementwise_answers he h
  simp only [hr.results] at hbecome
  exact ⟨t, ht, hbecome⟩

end Sys2Proof.Machine
end

section
/-! PROOFS. Row statistics, crew fetches, crew reductions and votes: O6. -/

namespace Sys2Proof.Machine
open Sys2Proof.Claims

/-! ## What one thread of a bundle puts in flight (R115) -/

/-- A bundle whose instruction puts `P` of each thread in flight: each thread's strand becomes the one that has issued, with `P` more. -/
theorem pushes_answers {i : Instr} {fm : Form} {s : State} {P : Nat → Lane → Pend}
    (he : exec i s = .next (s.issueWith fm noCause fun c lanes u => lanes.foldl (fun u l => u.pushPend l (P c l)) u))
    (h : s.issues fm = true) : ∃ t, exec i s = .next t ∧ strandsBecome s t fm fun l => withResult l (now s) fm (P (now s) l) :=
  ⟨_, he, State.issueWith_pushes noCause (fun c _ l => P c l) h fun _ _ => rfl⟩

/-- A crew instruction: each thread's result is made of the bundle's threads that issue (R187). -/
theorem crewOp_answers {i : Instr} {fm : Form} {dst : Dst} {rule : List Lane → Lane → List (Nat × Word) × Flags} {s : State}
    (he : exec i s = crewOp fm dst rule s) (h : s.issues fm = true) :
    ∃ t, exec i s = .next t ∧ strandsBecome s t fm fun l =>
      withResult l (now s) fm (inFlight l (landsAt (now s) 14 dst) (rule (s.ready fm) l).1 (rule (s.ready fm) l).2) :=
  pushes_answers (P := fun c l => inFlight l (landsAt c 14 dst) (rule (s.ready fm) l).1 (rule (s.ready fm) l).2) he h

/-! ## Rows (R175, R176) -/

/-- AM is set when every element of the window is masked (R176). -/
theorem filter_beq_self_eq_all (ds : List (Nat × Nat)) (p : Nat → Bool) :
    ((ds.map (·.1)).filter p == ds.map (·.1)) = ds.all fun dx => p dx.1 := by
  rw [Bool.eq_iff_iff, beq_iff_eq, List.filter_eq_self, List.all_eq_true]
  exact List.forall_mem_map

/-! ## Fetches and reductions (R188, R190) -/

theorem exec_fetchRow {i : Instr} {fm : Form} {f : EFields} {src : Nat → Nat → Option Nat} (h : fetchRow i = some (f, src))
    (hf : i.form = some fm) (s : State) : ∃ op, fm = .e op f ∧ exec i s = crewFetch op f (fun lane b => src lane b.toNat) s := by
  cases i
  all_goals cases hf
  all_goals cases h
  all_goals exact ⟨_, rfl, rfl⟩

theorem exec_crewRow {i : Instr} {fm : Form} {f : EFields} {neutral : Word} {rule : List Word → Word × Flags}
    (h : crewRow i = some (f, neutral, rule)) (hf : i.form = some fm) (s : State) :
    ∃ op, fm = .e op f ∧ exec i s = crewReduce op f neutral rule s := by
  cases i
  all_goals cases hf
  all_goals cases h
  all_goals exact ⟨_, rfl, rfl⟩

/-! ## Votes (R189) -/

theorem votes_sublist_range (f : VoteFields) (lanes : List Lane) (l : Lane) : List.Sublist (votes f lanes l) (List.range 16) :=
  List.filter_sublist

/-- Votes are true on all lanes when there are sixteen of them. -/
theorem length_eq_iff_eq_range {v : List Nat} {n : Nat} (hv : v.Sublist (List.range n)) : v.length = n ↔ v = List.range n :=
  ⟨fun h => hv.eq_of_length (h.trans List.length_range.symm), fun h => h ▸ List.length_range⟩

/-- Setting bits one after another, each above those that are set, adds their powers of two. -/
theorem foldl_setBit_eq_ofNat_sum (v : List Nat) (hv : v.Pairwise (· < ·)) (m : Nat) (hm : ∀ i ∈ v, m < 2 ^ i) :
    v.foldl (fun w i => w ||| (1#32 <<< i)) (BitVec.ofNat 32 m) = BitVec.ofNat 32 (m + (v.map (2 ^ ·)).sum) := by
  induction v generalizing m with
  | nil => rfl
  | cons i v ih =>
    obtain ⟨hi, hv⟩ := List.pairwise_cons.1 hv
    have hmi : m < 2 ^ i := hm i List.mem_cons_self
    have hset : BitVec.ofNat 32 m ||| (1#32 <<< i) = BitVec.ofNat 32 (m + 2 ^ i) := by
      rw [ofNat_shiftLeft, Nat.one_mul, ← BitVec.ofNat_or, Nat.or_comm, Nat.add_comm, ← Nat.mul_one (2 ^ i), Nat.two_pow_add_eq_or_of_lt hmi]
    have hbelow : ∀ j ∈ v, m + 2 ^ i < 2 ^ j := fun j hj => by
      have hpow : 2 ^ (i + 1) ≤ 2 ^ j := Nat.pow_le_pow_right (by decide) (hi j hj)
      omega
    rw [List.foldl_cons, hset, ih hv _ hbelow, List.map_cons, List.sum_cons, Nat.add_assoc]

theorem ballot_eq_sum {v : List Nat} (hv : v.Sublist (List.range 16)) :
    v.foldl (fun m i => m ||| (1#32 <<< i)) 0 = BitVec.ofNat 32 ((v.map (2 ^ ·)).sum) := by
  have h := foldl_setBit_eq_ofNat_sum v (List.pairwise_lt_range.sublist hv) 0 fun i _ => Nat.two_pow_pos i
  rwa [Nat.zero_add] at h

/-- A vote, whatever its variant, answers `result` of the lanes that vote true. -/
theorem exec_voteRow {i : Instr} {fm : Form} {f : VoteFields} {result : List Nat → Word} (h : voteRow i = some (f, result))
    (hf : i.form = some fm) (s : State) :
    ∃ variant r, fm = .e 0x6B#8 { mods := none, g := f.g, w := f.w, b := f.b, dst := .one f.d variant } ∧
      exec i s = vote f variant r s ∧ ∀ v : List Nat, v.Sublist (List.range 16) → r v = result v := by
  cases i
  all_goals cases hf
  all_goals cases h
  case voteAny => exact ⟨0, fun v => if v.isEmpty then 0 else 1, rfl, rfl, fun v _ => by cases v <;> rfl⟩
  case voteAll => exact ⟨1, fun v => if v.length = 16 then 1 else 0, rfl, rfl, fun _ hv => by simp only [truth, length_eq_iff_eq_range hv]⟩
  case voteBallot => exact ⟨2, fun v => v.foldl (fun m i => m ||| (1#32 <<< i)) 0, rfl, rfl, fun _ hv => ballot_eq_sum hv⟩

/-- Settles O6: rows and crew instructions put in flight what is made of the thread's own elements, or of those of the lanes of its crew
that issue. -/
theorem rowsAndCrews : Obligations.RowsAndCrews := by
  unfold Obligations.RowsAndCrews
  refine ⟨fun f fm s h => ⟨fun hf => ?_, fun hf => ?_, fun hf => ?_⟩, fun i f src fm s hi hf h => ?_,
    fun i f neutral rule fm s hi hf h => ?_, fun i f result fm s hi hf h => ?_⟩
  · cases hf; exact pushes_answers (i := .rmax f) rfl h
  · cases hf; exact pushes_answers (i := .rsum f) rfl h
  · cases hf
    obtain ⟨t, ht, hbecome⟩ := pushes_answers (i := .mskr f) rfl h
    simp only [filter_beq_self_eq_all] at hbecome
    exact ⟨t, ht, hbecome⟩
  · obtain ⟨op, rfl, he⟩ := exec_fetchRow hi hf s
    exact crewOp_answers he h
  · obtain ⟨op, rfl, he⟩ := exec_crewRow hi hf s
    obtain ⟨t, ht, hbecome⟩ := crewOp_answers he h
    simp only [List.map_map, List.foldl_map] at hbecome
    exact ⟨t, ht, hbecome⟩
  · obtain ⟨variant, r, rfl, he, hr⟩ := exec_voteRow hi hf s
    obtain ⟨t, ht, hbecome⟩ := crewOp_answers he h
    simp only [hr _ (votes_sublist_range ..)] at hbecome
    exact ⟨t, ht, hbecome⟩

end Sys2Proof.Machine
end

section
/-! PROOFS. Moves: O3. -/

namespace Sys2Proof.Machine
open Sys2Proof.Claims

theorem exec_moveRow {i : Instr} {fm : Form} {f : EFields} {rule : Lane → Nat × Nat → Word → Word} (h : moveRow i = some (f, rule))
    (hf : i.form = some fm) (s : State) : exec i s = moves fm f rule s := by
  cases i
  all_goals cases hf
  all_goals cases h
  all_goals rfl

/-- What a move's rule makes of one thread (R180). -/
def Lane.copies (l : Lane) (f : EFields) (rule : Lane → Nat × Nat → Word → Word) : List (Nat × Word) :=
  f.dst.pairs.map fun dx => (dx.1, rule l dx (l.operand f.g f.b dx.2))

theorem moves_eq (fm : Form) (f : EFields) (rule : Lane → Nat × Nat → Word → Word) (s : State) :
    moves fm f rule s = .next (s.issueWith fm noCause fun c lanes u =>
      lanes.foldl (fun u l => u.pushPend l (inFlight l (landsAt c 4 f.dst) (l.copies f rule) {})) u) := rfl

end Sys2Proof.Machine

namespace Sys2Proof.Claims
open Sys2Proof.Machine

/-- Settles O3: what each move copies is in flight for four cycles, without a flag. -/
theorem moves : Obligations.Moves := by
  unfold Obligations.Moves
  intro i f rule fm s hi hf h
  exact pushes_answers (P := fun c l => inFlight l (landsAt c 4 f.dst) (l.copies f rule) {})
    ((exec_moveRow hi hf s).trans (moves_eq fm f rule s)) h

end Sys2Proof.Claims
end

section
/-! PROOFS. Traps of the return stack: O9. -/

namespace Sys2Proof.Machine
open Sys2Proof.Claims

/-- What `State.issues` says: some thread can issue, and nothing of the kernel, the decision queue or CHECK stands against it. -/
theorem State.issues_spec {s : State} {fm : Form} (h : s.issues fm = true) :
    s.ready fm ≠ [] ∧ (∀ l ∈ s.ready fm, illegalIn fm.use l.g.kernel = false) ∧
      (fm.use.dq && (s.ready fm).any (dqReclaimed (s.ready fm))) = false ∧ ∀ l ∈ s.ready fm, checkCause fm.use l = none := by
  have hne := State.ready_ne_nil h
  simp only [State.issues, Bool.and_eq_true, List.all_eq_true, Bool.not_eq_true', Option.isNone_iff_eq_none] at h
  obtain ⟨-, hall⟩ := h
  refine ⟨hne, fun l hl => (hall l hl).1.1, ?_, fun l hl => (hall l hl).2⟩
  cases hdq : fm.use.dq with
  | false => rfl
  | true => simpa [hdq] using fun l hl => (hall l hl).1.2

/-- Every thread has a cause of its own: none issues. -/
theorem State.issueWith_refused {s : State} {fm : Form} {cause : Lane → Option Cause} {act : Nat → List Lane → State → State} {c : Cause}
    (h : s.issues fm = true) (hc : ∀ l ∈ s.ready fm, cause l = some c) (hact : ∀ n u, act n [] u = u) :
    s.issueWith fm cause act = (s.ready fm).foldl (fun s l => s.refuse l c) s := by
  obtain ⟨hne, hlegal, hdq, hcheck⟩ := State.issues_spec h
  have hwhy : ∀ l ∈ s.ready fm, ((checkCause fm.use l).orElse fun _ => cause l) = some c := fun l hl => by rw [hcheck l hl, hc l hl]; rfl
  unfold State.issueWith
  generalize s.ready fm = lanes at *
  match lanes with
  | [] => exact absurd rfl hne
  | l :: rest =>
    dsimp only
    have hgo : (l :: rest).filter (fun l => ((checkCause fm.use l).orElse fun _ => cause l).isNone) = [] :=
      List.filter_eq_nil_iff.2 fun x hx => by rw [hwhy x hx]; simp
    rw [if_neg (Bool.eq_false_iff.1 (hlegal l (.head _))), if_neg (Bool.eq_false_iff.1 hdq), hgo]
    refine (hact _ _).trans ?_
    exact foldl_eq_of_mem (fun u x hx => by simp only [hwhy x hx]) s

/-- A bundle every thread of which has the same cause of its own, on columns that run. -/
theorem State.issueWith_traps {s : State} {fm : Form} {cause : Lane → Option Cause} {act : Nat → List Lane → State → State} {c : Cause}
    (h : s.issues fm = true) (hrun : columnsRun s fm) (hc : ∀ l ∈ s.ready fm, cause l = some c) (hact : ∀ n u, act n [] u = u) :
    allTrap s (s.issueWith fm cause act) fm fun _ => c := by
  rw [State.issueWith_refused h hc hact]
  exact allTrap_refuse hrun _

/-- A branch for which every thread has the same cause. -/
theorem branch_traps {s : State} {fm : Form} {cause : Lane → Option Cause} {c : Cause} (h : s.issues fm = true) (hrun : columnsRun s fm)
    (hc : ∀ l ∈ s.ready fm, cause l = some c) (target : Lane → Option Addr) (upd : Lane → Strand → Strand) :
    ∃ t, branch fm cause target upd s = .next t ∧ allTrap s t fm fun _ => c :=
  ⟨_, branch_eq .., State.issueWith_traps h hrun hc fun _ _ => rfl⟩

theorem callCause_of_full {l : Lane} (h : l.st.rstack.length = 8) : callCause l = some { cls := 6, code := 1 } := if_pos (Nat.le_of_eq h.symm)

theorem retCause_of_empty {l : Lane} (h : l.st.rstack = []) : retCause l = some { cls := 6, code := 2 } := by simp [retCause, h]

/-- Settles O9: calls and returns are branches, and a full stack or an empty one is the cause of each thread. -/
theorem returnStackFaults : Obligations.ReturnStackFaults := by
  unfold Obligations.ReturnStackFaults
  refine ⟨fun i target fm s hi hf h hrun hfull => ?_, fun i fm s hi hf h hrun hempty => ?_⟩
  · obtain ⟨cause, he, hcause⟩ := exec_callRow hi hf s
    rw [he]
    refine branch_traps h hrun (fun l hl => ?_) _ _
    obtain ⟨hlen, heven⟩ := hfull l hl
    rw [hcause l heven, callCause_of_full hlen]
  · rw [exec_isReturn hi hf s]
    exact branch_traps h hrun (fun l hl => retCause_of_empty (hempty l hl)) _ _

end Sys2Proof.Machine
end

section
/-! PROOFS. Passes, fences and ends: O10. -/

namespace Sys2Proof.Machine
open Sys2Proof.Claims

/-! ## The strands after an act -/

/-- An act that makes `F` of each strand of the bundle, in whatever state the issue leaves. -/
theorem State.issueWith_strandsBecome {s : State} {fm : Form} {cause : Lane → Option Cause} {act : Nat → List Lane → State → State}
    {F : Lane → Strand → Strand} (h : s.issues fm = true) (hc : ∀ l ∈ s.ready fm, cause l = none)
    (hact : ∀ u, s.Issued u fm.use.dq → ∀ l ∈ s.ready fm,
      (act (Claims.now s) (s.ready fm) u).strand? l.gid l.tid l.st.n = (u.strand? l.gid l.tid l.st.n).map (F l)) :
    strandsBecome s (s.issueWith fm cause act) fm fun l => F l (l.stepped (Claims.now s) fm) := by
  obtain ⟨u, hu, hi, hissued, -⟩ := State.issueWith_ok cause act h hc
  intro l hl
  obtain ⟨-, -, hst, -⟩ := State.ready_spec hl
  have hstepped : u.strand? l.gid l.tid l.st.n = some (l.stepped (Claims.now s) fm) := by
    rw [State.strand?, hissued l hl]
    exact Lane.issuedThread_strand? hst _ fm
  have hbecome := hact u hi l hl
  rw [hstepped] at hbecome
  rw [hu]
  exact hbecome

/-! ## `nop` and `blk` (R194, R198) -/

theorem isPass_strandsBecome {i : Instr} {fm : Form} {s : State} (hi : isPass i = true) (hf : i.form = some fm) (h : s.issues fm = true) :
    ∃ t, exec i s = .next t ∧ onlyStrands s t fm ∧ strandsBecome s t fm (·.stepped (now s) fm) := by
  obtain ⟨t, he, honly⟩ := isPass_onlyStrands hf h hi
  obtain rfl : s.issueWith fm noCause (fun _ _ u => u) = t := Host.Outcome.next.inj ((exec_isPass hi hf s).symm.trans he)
  exact ⟨_, he, honly, State.issueWith_strandsBecome (F := fun _ st => st) h (fun _ _ => rfl) fun u _ l _ => Option.map_id'.symm⟩

/-- `nop` is a pass, and its form uses nothing but the stall count. -/
theorem nop_spec {i : Instr} {w : BitVec 3} {fm : Form} (hi : i = .nop w ∨ i = .sNop w) (hf : i.form = some fm) :
    isPass i = true ∧ fm.use.touch = false ∧ fm.use.read = none ∧ fm.use.dq = false ∧ fm.stall = w.toNat := by
  rcases hi with rfl | rfl
  all_goals cases hf
  all_goals exact ⟨rfl, rfl, rfl, rfl, rfl⟩

/-! ## Fences (R241) -/

/-- What a fence of level `k` makes of a strand that has issued, where the accesses of `s` are in flight. -/
def Lane.fence (s : State) (k : Nat) (l : Lane) (st : Strand) : Strand :=
  { st with
    after := st.after ++ s.heldInL1 l.gid.column
    fenced := st.fenced ++ s.fencedBy (st.after ++ s.heldInL1 l.gid.column) k }

theorem Lane.fence_congr {s u : State} (h : u.accs = s.accs) (k : Nat) (l : Lane) (st : Strand) : l.fence u k st = l.fence s k st := by
  simp only [Lane.fence, State.heldInL1, State.fencedBy, h]

/-- The acquire and the release of a fence are one change of each strand. -/
theorem fence_eq (fm : Form) (k : Nat) (s : State) :
    fence fm k s = .next (s.issueWith fm noCause fun _ lanes u =>
      lanes.foldl (fun u l => u.modStrand l.gid l.tid l.st.n (l.fence u k)) u) := by
  unfold fence
  congr 2
  funext _ lanes u
  congr 1
  funext u l
  exact State.modStrand_modStrand u _ _ _ _ fun _ => rfl

/-- A fence changes no access, so that each thread's fence sees those in flight at its issue. -/
theorem foldl_fence {s : State} {k : Nat} (lanes : List Lane) {u : State} (hu : u.accs = s.accs) :
    lanes.foldl (fun u l => u.modStrand l.gid l.tid l.st.n (l.fence u k)) u =
      lanes.foldl (fun u l => u.modStrand l.gid l.tid l.st.n (l.fence s k)) u := by
  induction lanes generalizing u with
  | nil => rfl
  | cons l lanes ih =>
    rw [List.foldl_cons, List.foldl_cons, funext (Lane.fence_congr hu k l)]
    exact ih hu

theorem fenceRow_strandsBecome {i : Instr} {k : Nat} {fm : Form} {s : State} (hi : fenceRow i = some k) (hf : i.form = some fm)
    (h : s.issues fm = true) : ∃ t, exec i s = .next t ∧ strandsBecome s t fm fun l => l.fence s k (l.stepped (now s) fm) := by
  refine ⟨_, (exec_fenceRow hi hf s).trans (fence_eq fm k s), State.issueWith_strandsBecome h (fun _ _ => rfl) fun u hu l hl => ?_⟩
  have haccs : u.accs = s.accs := by
    obtain ⟨⟨G, C, rfl⟩, -⟩ := hu
    rfl
  rw [foldl_fence _ haccs]
  exact State.strand?_foldl_ready (F := Lane.fence s k) h (fun _ _ => rfl) u hl

/-! ## `end` and `exit` (R195, R196) -/

/-- A strand that has finished: its return stack is discarded (R193). -/
def Strand.finish (st : Strand) : Strand := { st with state := .finished, over_ := true, rstack := [] }

theorem exec_isEnd {i : Instr} {fm : Form} (h : isEnd i = true) (hf : i.form = some fm) (s : State) :
    exec i s = .next (s.issueWith fm noCause fun _ lanes u =>
      lanes.foldl (fun u l => u.modStrand l.gid l.tid l.st.n Strand.finish) u) := by
  cases i
  all_goals cases hf
  all_goals cases h
  all_goals rfl

theorem isEnd_strandsBecome {i : Instr} {fm : Form} {s : State} (hi : isEnd i = true) (hf : i.form = some fm) (h : s.issues fm = true) :
    ∃ t, exec i s = .next t ∧ onlyStrands s t fm ∧ strandsBecome s t fm fun l => (l.stepped (now s) fm).finish := by
  refine ⟨_, exec_isEnd hi hf s, State.issueWith_onlyStrands h (fun _ _ => rfl) fun u => .foldl_ready (fun u l _ hp => ?_) u,
    State.issueWith_strandsBecome (F := fun _ => Strand.finish) h (fun _ _ => rfl) fun u _ l hl =>
      State.strand?_foldl_ready (F := fun _ => Strand.finish) h (fun _ _ => rfl) u hl⟩
  refine .modStrand u hp ?_
  exact fun _ => rfl

/-- A thread that has exited with a status: all its strands have finished (R196). -/
def Thread.exit (status : Word) (t : Thread) : Thread := { t with exited := true, status := status, strands := t.strands.map Strand.finish }

theorem exec_exit (w : BitVec 3) (d : BitVec 5) {fm : Form} (hf : (Instr.exit w d).form = some fm) (s : State) :
    fm.use.read = none ∧ fm.use.dq = false ∧ exec (.exit w d) s = .next (s.issueWith fm noCause fun _ lanes u =>
      lanes.foldl (fun u l => u.modThread l.gid l.tid (Thread.exit (l.st.elem d.toNat))) u) := by
  cases hf
  exact ⟨rfl, rfl, rfl⟩

theorem exit_threads {w : BitVec 3} {d : BitVec 5} {fm : Form} {s : State} (hf : (Instr.exit w d).form = some fm) (h : s.issues fm = true) :
    ∃ t, exec (.exit w d) s = .next t ∧ onlyWork s t false ∧ othersKept s t fm ∧ ∀ l ∈ s.ready fm,
      ∃ x, t.thread? l.gid l.tid = some (Thread.exit (l.st.elem d.toNat) x) ∧ x.gregs = l.t.gregs ∧ x.retired = l.t.retired := by
  obtain ⟨hread, hdq, he⟩ := exec_exit w d hf s
  obtain ⟨hthread, hothers⟩ := State.issueWith_threads noCause (fun _ _ u l => u.modThread l.gid l.tid (Thread.exit (l.st.elem d.toNat)))
    (fun l => Thread.exit (l.st.elem d.toNat)) h (fun _ _ => rfl)
    (fun u l _ => by rw [State.thread?_modThread, if_pos ⟨rfl, rfl⟩])
    (fun u l g tid _ hne => by
      rw [State.thread?_modThread, if_neg]
      rintro ⟨rfl, rfl⟩
      exact hne rfl)
  refine ⟨_, he, ?_, hothers, fun l hl => ⟨_, hthread l hl, ?_, ?_⟩⟩
  · obtain ⟨u, hu, hi, -⟩ := State.issueWith_ok noCause
      (fun _ lanes u => lanes.foldl (fun u (l : Lane) => u.modThread l.gid l.tid (Thread.exit (l.st.elem d.toNat))) u) h fun _ _ => rfl
    rw [hdq] at hi
    rw [hu]
    exact (hi.trans (.foldl (fun u (l : Lane) => .modThread u l.gid l.tid false _) u _)).onlyWork
  · rw [Lane.issuedThread_gregs, spent, hread]
  · obtain ⟨-, -, -, hretired, -⟩ := l.sameBut_issuedThread (s.cycle s.curCore) fm
    exact hretired

/-- Settles O10: `nop` and `blk` are the issue alone, fences and `end` change each strand of the bundle once, `exit` each thread. -/
theorem passesAndEnds : Obligations.PassesAndEnds := by
  unfold Obligations.PassesAndEnds
  refine ⟨fun i w fm s hi hf h => ?_, by decide, fun i fm s hi hf h => ?_, fun i k fm s hi hf h => ?_,
    fun i fm s hi hf h => isEnd_strandsBecome hi hf h, fun w d fm s hf h => ?_⟩
  · obtain ⟨hpass, htouch, hread, hdq, hstall⟩ := nop_spec hi hf
    obtain ⟨t, he, ⟨hwork, hothers, hthread⟩, hbecome⟩ := isPass_strandsBecome hpass hf h
    refine ⟨htouch, t, he, hdq ▸ hwork, hothers, fun l hl => ?_⟩
    obtain ⟨y, hy, hsame, hgregs⟩ := hthread l hl
    have hstrand := hbecome l hl
    rw [State.strand?, hy] at hstrand
    refine ⟨y, _, hy, hsame, ?_, hstrand, rfl, ?_⟩
    · rw [hgregs, spent, hread]
    · rw [← hstall]
      rfl
  · obtain ⟨t, he, -, hbecome⟩ := isPass_strandsBecome hi hf h
    exact ⟨t, he, hbecome⟩
  · obtain ⟨t, he, honly⟩ := fenceRow_onlyStrands hf h hi
    obtain ⟨u, hu, hbecome⟩ := fenceRow_strandsBecome hi hf h
    obtain rfl : u = t := Host.Outcome.next.inj (hu.symm.trans he)
    exact ⟨u, he, honly, hbecome⟩
  · obtain ⟨t, he, hwork, hothers, hthread⟩ := exit_threads hf h
    refine ⟨t, he, hwork, hothers, fun l hl => ?_⟩
    obtain ⟨x, hx, hgregs, hretired⟩ := hthread l hl
    refine ⟨_, hx, hgregs, hretired, rfl, rfl, fun st hst => ?_⟩
    obtain ⟨st', -, rfl⟩ := List.mem_map.1 hst
    exact ⟨rfl, rfl, rfl⟩

end Sys2Proof.Machine
end

section
/-! PROOFS. `trap` and `brk`: O11. -/

namespace Sys2Proof.Machine
open Sys2Proof.Claims

/-! ## Cores that BRKSTOP stops (R400) -/

/-- BRKSTOP of a core takes the `brk` at which a thread stands, which has not stopped it before. -/
def Lane.breaks (k : Core) (l : Lane) : Prop := (none ∈ k.brkstop ∨ some l.g.ctx ∈ k.brkstop) ∧ (l.gid, l.tid, l.st.n) ∉ k.brkPass

/-- A core that has stopped at the `brk` of some threads. -/
def Core.brkStopped (lanes : List Lane) (k : Core) : Core :=
  { k with stopped := true, stopAsked := false, stepsLeft := none, brkPass := k.brkPass ++ lanes.map fun l => (l.gid, l.tid, l.st.n) }

/-- A core some threads of which have passed the `brk` that had stopped it. -/
def Core.brkPassed (lanes : List Lane) (k : Core) : Core :=
  { k with brkPass := k.brkPass.filter fun p => !(lanes.any fun l => (l.gid, l.tid, l.st.n) == p) }

theorem Core.notMem_brkPassed {lanes : List Lane} {l : Lane} (hl : l ∈ lanes) (k : Core) :
    (l.gid, l.tid, l.st.n) ∉ (k.brkPassed lanes).brkPass := by
  intro hmem
  obtain ⟨-, hnone⟩ := List.mem_filter.1 hmem
  simp only [Bool.not_eq_true', List.any_eq_false, beq_iff_eq] at hnone
  exact hnone l hl rfl

theorem State.modCore_id (s : State) (n : Nat) : s.modCore n id = s :=
  congrArg (fun C => { s with cores := C }) (List.modify_id n s.cores)

/-- Where no thread has passed, no core changes. -/
theorem State.modCore_brkPassed_nil (s : State) (n : Nat) : s.modCore n (Core.brkPassed []) = s := by
  have hid : Core.brkPassed [] = id := funext fun k =>
    congrArg (fun p => { k with brkPass := p }) (List.filter_eq_self.2 fun _ _ => rfl)
  rw [hid, State.modCore_id]

/-- After the passes of some threads, whatever the core's number, none of them is to pass again. -/
theorem State.notMem_modCore_brkPassed (s : State) (n : Nat) {lanes : List Lane} {l : Lane} (hl : l ∈ lanes) :
    (l.gid, l.tid, l.st.n) ∉ ((s.modCore n (Core.brkPassed lanes)).coreAt n).brkPass := by
  rw [State.coreAt_modCore]
  split
  · exact Core.notMem_brkPassed hl _
  · rename_i hn
    have hreset : s.coreAt n = .reset := by
      rw [State.coreAt, List.getD_eq_getElem?_getD, List.getElem?_eq_none (by omega)]
      rfl
    rw [hreset]
    exact List.not_mem_nil

/-! ## What `trap` and `brk` do (R197) -/

theorem exec_trap (w : BitVec 3) (c : BitVec 13) {fm : Form} (hf : (Instr.trap w c).form = some fm) (s : State) :
    exec (.trap w c) s = .next (s.issueWith fm (fun _ => some { cls := 8, code := c.toNat }) fun _ _ u => u) := by
  cases hf
  rfl

/-- What makes a `brk` trap: the thread has not stopped its core there before. -/
def brkCause (k : Core) (c : BitVec 13) (l : Lane) : Option Cause :=
  if (l.gid, l.tid, l.st.n) ∈ k.brkPass then none else some { cls := 9, code := c.toNat }

section
variable {w : BitVec 3} {c : BitVec 13} {fm : Form} {s : State} (hf : (Instr.brk w c).form = some fm)
include hf

/-- The threads whose `brk` stops the core, if any, and else an issue. -/
theorem exec_brk : ∃ stops : List Lane, (∀ l, l ∈ stops ↔ l ∈ s.ready fm ∧ l.breaks (s.coreAt s.curCore)) ∧
    exec (.brk w c) s = if stops.isEmpty then
        .next (s.issueWith fm (brkCause (s.coreAt s.curCore) c) fun _ lanes u => u.modCore u.curCore (Core.brkPassed lanes))
      else .next (s.modCore s.curCore (Core.brkStopped stops)) := by
  cases hf
  refine ⟨(s.ready (.plain 0x9C#8 0 w c)).filter fun l =>
    !brkPasses (s.coreAt s.curCore) l &&
      ((s.coreAt s.curCore).brkstop.contains none || (s.coreAt s.curCore).brkstop.contains (some l.g.ctx)), fun l => ?_, ?_⟩
  · rw [List.mem_filter]
    simp [Lane.breaks, brkPasses, and_comm]
  · have hcause : (fun l => if brkPasses (s.coreAt s.curCore) l then none else some { cls := 9, code := c.toNat }) =
        brkCause (s.coreAt s.curCore) c := by
      funext l
      simp [brkPasses, brkCause]
    rw [← hcause]
    change execBrk w c s = _
    unfold execBrk
    simp only [Bool.not_eq_true', ← Bool.not_eq_true, ite_not]
    rfl

/-- Where BRKSTOP takes the `brk` of no thread, it issues. -/
theorem exec_brk_issues (h : ∀ l ∈ s.ready fm, ¬l.breaks (s.coreAt s.curCore)) :
    exec (.brk w c) s =
      .next (s.issueWith fm (brkCause (s.coreAt s.curCore) c) fun _ lanes u => u.modCore u.curCore (Core.brkPassed lanes)) := by
  obtain ⟨stops, hmem, he⟩ := exec_brk (s := s) hf
  have hnil : stops = [] := List.eq_nil_iff_forall_not_mem.2 fun l hl => by
    obtain ⟨hready, hb⟩ := (hmem l).1 hl
    exact h l hready hb
  rw [he, hnil]
  rfl

/-- Where BRKSTOP takes the `brk` of a thread, the core stops. -/
theorem exec_brk_stops (h : ∃ l ∈ s.ready fm, l.breaks (s.coreAt s.curCore)) :
    ∃ stops : List Lane, (∀ l ∈ s.ready fm, l.breaks (s.coreAt s.curCore) → l ∈ stops) ∧
      exec (.brk w c) s = .next (s.modCore s.curCore (Core.brkStopped stops)) := by
  obtain ⟨stops, hmem, he⟩ := exec_brk (s := s) hf
  obtain ⟨l, hl, hbreaks⟩ := h
  have hne : stops ≠ [] := List.ne_nil_of_mem ((hmem l).2 ⟨hl, hbreaks⟩)
  refine ⟨stops, fun l hl hb => (hmem l).2 ⟨hl, hb⟩, ?_⟩
  rw [he, if_neg (by simpa using hne)]

end

/-- Settles O11: a cause of each thread stops its column; else BRKSTOP stops the core, or the `brk` issues. -/
theorem trapInstructions : Obligations.TrapInstructions := by
  unfold Obligations.TrapInstructions
  refine ⟨fun w c fm s hf h hrun => ⟨_, exec_trap w c hf s, State.issueWith_traps h hrun (fun _ _ => rfl) fun _ _ => rfl⟩,
    fun w c fm s hf => ⟨fun h hrun hfree => ?_, fun hcore hsome => ?_, fun h hpass => ?_⟩⟩
  · refine ⟨_, exec_brk_issues hf fun l hl hb => (hfree l hl).1 hb.1, ?_⟩
    exact State.issueWith_traps h hrun (fun l hl => if_neg (hfree l hl).2) fun _ u => u.modCore_brkPassed_nil _
  · obtain ⟨l, hl, htaken, hnew⟩ := hsome
    obtain ⟨stops, hstops, he⟩ := exec_brk_stops hf ⟨l, hl, htaken, hnew⟩
    refine ⟨_, he, rfl, fun n hn => ?_, _, ?_, fun l hl htaken hnew => List.mem_map_of_mem (hstops l hl ⟨htaken, hnew⟩)⟩
    · rw [State.coreAt_modCore, if_neg fun hc => hn hc.1.symm]
    · rw [State.coreAt_modCore, if_pos ⟨rfl, hcore⟩]
      rfl
  · have hnone : ∀ l ∈ s.ready fm, brkCause (s.coreAt s.curCore) c l = none := fun l hl => if_pos (hpass l hl)
    refine ⟨_, exec_brk_issues hf fun l hl hb => hb.2 (hpass l hl),
      State.issueWith_strandsBecome (F := fun _ st => st) h hnone fun u _ l _ => ?_, fun l hl => ?_⟩
    · rw [Option.map_id']
      exact congrArg (Option.bind · _) (State.thread?_congr rfl l.gid l.tid)
    · obtain ⟨u, hu, hi, -⟩ := State.issueWith_ok (brkCause (s.coreAt s.curCore) c)
        (fun _ lanes u => u.modCore u.curCore (Core.brkPassed lanes)) h hnone
      have hcur : s.curCore = u.curCore := by
        obtain ⟨⟨G, C, rfl⟩, -⟩ := hi
        rfl
      rw [hu, hcur]
      exact State.notMem_modCore_brkPassed u _ hl

end Sys2Proof.Machine
end

section
/-! PROOFS. What `lend` makes of the bundle's strands (R186, R303): a strand offers its accumulator, and the command that waits for it claims
it. -/

namespace Sys2Proof.Machine
open Sys2Proof.Claims

/-! ## Claims and offers -/

/-- A strand of thread `tid` whose lend a running command claims where it waits for one (R303). -/
def State.claim (s : State) (g : GroupId) (tid : Nat) (st : Strand) : Strand :=
  if st.own == .offered then (match s.claimant? g tid st.n with | some c => { st with own := .claimed c.id } | none => st) else st

@[simp] theorem State.claim_n (s : State) (g : GroupId) (tid : Nat) (st : Strand) : (s.claim g tid st).n = st.n := by
  unfold State.claim
  split
  · split <;> rfl
  · rfl

theorem State.claim_eq (s : State) (g : GroupId) (tid : Nat) (st : Strand) : ∃ own, s.claim g tid st = { st with own := own } := by
  unfold State.claim
  split
  · split
    · exact ⟨_, rfl⟩
    · exact ⟨st.own, rfl⟩
  · exact ⟨st.own, rfl⟩

/-- A second claim changes nothing. -/
theorem State.claim_claim (s : State) (g : GroupId) (tid : Nat) (st : Strand) : s.claim g tid (s.claim g tid st) = s.claim g tid st := by
  by_cases ho : st.own = .offered
  · cases hc : s.claimant? g tid st.n with
    | none => simp [State.claim, ho, hc]
    | some c => simp [State.claim, ho, hc]
  · simp [State.claim, ho]

/-- An accumulator offered to the matrix engine, after what the strand knows of that is in flight in `s`. -/
def Lane.offer (s : State) (l : Lane) (st : Strand) : Strand :=
  { st with own := .offered, lent := s.unsettled l.gid l.tid l.st.know l.st.after }

/-- What the `lend` of one thread of a bundle does: it offers, and the claims of its group follow. -/
def State.lend (u : State) (l : Lane) : State := (u.modStrand l.gid l.tid l.st.n (l.offer u)).claimLends l.gid

theorem exec_lend (w : BitVec 3) {fm : Form} (hf : (Instr.lend w).form = some fm) (s : State) :
    fm.use.read = none ∧ fm.use.dq = false ∧
      exec (.lend w) s = .next (s.issueWith fm noCause fun _ lanes u => lanes.foldl State.lend u) := by
  cases hf
  exact ⟨rfl, rfl, rfl⟩

/-! ## The threads after the `lend` of one of them -/

/-- A thread of the group of `l` once `lend` of `l` has been claimed, where it is thread `tid`. -/
def Lane.lendIn (s : State) (l : Lane) (tid : Nat) (t : Thread) : Thread :=
  { t with strands := (if tid = l.tid then t.modStrand l.st.n (l.offer s) else t).strands.map (s.claim l.gid t.tid) }

theorem State.thread?_claimLends (u : State) (g h : GroupId) (tid : Nat) :
    (u.claimLends h).thread? g tid =
      if g = h then (u.thread? g tid).map fun t => { t with strands := t.strands.map (u.claim h t.tid) } else u.thread? g tid := by
  have hgroup : (u.claimLends h).group? g = (u.group? g).map fun x => if x.id == h then
      { x with threads := x.threads.map fun t => { t with strands := t.strands.map (u.claim h t.tid) } } else x :=
    State.group?_modGroup u g h (fun x => { x with threads := x.threads.map fun t => { t with strands := t.strands.map (u.claim h t.tid) } })
      fun _ => rfl
  unfold State.thread?
  rw [hgroup]
  cases hx : u.group? g with
  | none => simp
  | some x =>
    have hid := State.group?_id hx
    by_cases hg : g = h
    · simp [hid, hg, Group.thread?]
    · simp [hid, hg]

/-- The threads after the `lend` of one thread, in a state with the accesses and the commands of `s`. -/
theorem State.thread?_lend {s u : State} (hu : u = { s with groups := u.groups, cores := u.cores }) (l : Lane) (g : GroupId) (tid : Nat) :
    (u.lend l).thread? g tid = if g = l.gid then (u.thread? g tid).map (l.lendIn s tid) else u.thread? g tid := by
  have hclaim : (u.modStrand l.gid l.tid l.st.n (l.offer u)).claim = s.claim := by rw [hu]; rfl
  have hoffer : l.offer u = l.offer s := by rw [hu]; rfl
  have hmod : (u.modStrand l.gid l.tid l.st.n (l.offer s)).thread? g tid = _ :=
    State.thread?_modThread u g l.gid tid l.tid (·.modStrand l.st.n (l.offer s))
  rw [State.lend, State.thread?_claimLends, hclaim, hoffer, hmod]
  cases u.thread? g tid with
  | none => simp
  | some t =>
    by_cases hg : g = l.gid
    · by_cases ht : tid = l.tid
      · simp [Lane.lendIn, hg, ht, Thread.modStrand]
      · simp [Lane.lendIn, hg, ht]
    · simp [hg]

theorem Lane.strand?_lendIn (s : State) (l : Lane) (tid n : Nat) (t : Thread) :
    (l.lendIn s tid t).strand? n =
      (t.strand? n).map fun st => s.claim l.gid t.tid (if tid = l.tid ∧ n = l.st.n then l.offer s st else st) := by
  have hmap : ∀ x : Thread, ({ t with strands := x.strands.map (s.claim l.gid t.tid) } : Thread).strand? n =
      (x.strand? n).map (s.claim l.gid t.tid) := fun x => by
    simp only [Thread.strand?, List.find?_map, Function.comp_def, State.claim_n]
  rw [Lane.lendIn, hmap]
  by_cases ht : tid = l.tid
  · rw [if_pos ht, Thread.strand?_modStrand _ _ _ (l.offer s) fun _ => rfl]
    by_cases hn : n = l.st.n
    · simp [ht, hn, Function.comp_def]
    · simp [hn]
  · simp [ht]

/-! ## What `lend` leaves alone -/

/-- What an issue of `lend` leaves of a thread: everything but what becomes of its strands' PCs, stall counts and lends. -/
structure Thread.Lends (x y : Thread) : Prop where
  gregs : y.gregs = x.gregs
  status : y.status = x.status
  exited : y.exited = x.exited
  retired : y.retired = x.retired
  strand : ∀ n st, x.strand? n = some st → ∃ z, y.strand? n = some z ∧ z.e = st.e ∧ z.flags = st.flags ∧ z.rstack = st.rstack

theorem Thread.Lends.refl (x : Thread) : x.Lends x := ⟨rfl, rfl, rfl, rfl, fun _ st h => ⟨st, h, rfl, rfl, rfl⟩⟩

theorem Thread.Lends.trans {x y z : Thread} (h : x.Lends y) (k : y.Lends z) : x.Lends z := by
  refine ⟨k.gregs.trans h.gregs, k.status.trans h.status, k.exited.trans h.exited, k.retired.trans h.retired, fun n st hst => ?_⟩
  obtain ⟨a, ha, he, hf, hr⟩ := h.strand n st hst
  obtain ⟨b, hb, he', hf', hr'⟩ := k.strand n a ha
  exact ⟨b, hb, he'.trans he, hf'.trans hf, hr'.trans hr⟩

theorem Lane.lends_lendIn (s : State) (l : Lane) (tid : Nat) (t : Thread) : t.Lends (l.lendIn s tid t) := by
  refine ⟨rfl, rfl, rfl, rfl, fun n st hst => ⟨_, by rw [Lane.strand?_lendIn, hst]; rfl, ?_⟩⟩
  obtain ⟨own, hclaim⟩ := s.claim_eq l.gid t.tid (if tid = l.tid ∧ n = l.st.n then l.offer s st else st)
  dsimp only
  rw [hclaim]
  split <;> exact ⟨rfl, rfl, rfl⟩

/-- The issue of a form that reads no register leaves its threads as `lend` does. -/
theorem Lane.lends_issuedThread {l : Lane} (hst : l.t.strand? l.st.n = some l.st) (c : Nat) {fm : Form} (hread : fm.use.read = none) :
    l.t.Lends (l.issuedThread c fm l.t) := by
  obtain ⟨-, hstatus, hexited, hretired, hothers⟩ := l.sameBut_issuedThread c fm
  refine ⟨by rw [Lane.issuedThread_gregs, spent, hread], hstatus, hexited, hretired, fun n st hn => ?_⟩
  by_cases hne : n = l.st.n
  · subst hne
    obtain rfl : l.st = st := Option.some.inj (hst.symm.trans hn)
    exact ⟨_, Lane.issuedThread_strand? hst c fm, rfl, rfl, rfl⟩
  · exact ⟨st, (hothers n hne).trans hn, rfl, rfl, rfl⟩

theorem State.Issued.lend (u : State) (l : Lane) : u.Issued (u.lend l) false :=
  (State.Issued.modThread u _ _ _ _).trans (.modGroup _ _ _ _ fun x => ⟨_, x.dq, x.masks, rfl, fun _ => rfl⟩)

/-! ## What a bundle's `lend` makes of each strand -/

/-- The strand of the bundle's thread `l` is `st`. -/
def State.hasStrand (u : State) (l : Lane) (st : Strand) : Prop :=
  ∃ y, u.thread? l.gid l.tid = some y ∧ y.tid = l.t.tid ∧ y.strand? l.st.n = some st

section
variable {s u : State} {l : Lane} {st : Strand} (hu : u = { s with groups := u.groups, cores := u.cores })
include hu

theorem State.lend_keeps : u.lend l = { s with groups := (u.lend l).groups, cores := (u.lend l).cores } := by
  rw [hu]
  rfl

theorem State.hasStrand_lend_self (h : u.hasStrand l st) : (u.lend l).hasStrand l (s.claim l.gid l.t.tid (l.offer s st)) := by
  obtain ⟨y, hy, htid, hst⟩ := h
  refine ⟨l.lendIn s l.tid y, by rw [State.thread?_lend hu, if_pos rfl, hy]; rfl, htid, ?_⟩
  rw [Lane.strand?_lendIn, hst, htid]
  simp

/-- The `lend` of another thread may claim a lend of this one. -/
theorem State.hasStrand_lend_other {m : Lane} (hm : (m.gid, m.tid) ≠ (l.gid, l.tid)) (h : u.hasStrand l st) :
    (u.lend m).hasStrand l st ∨ (u.lend m).hasStrand l (s.claim l.gid l.t.tid st) := by
  obtain ⟨y, hy, htid, hst⟩ := h
  by_cases hg : l.gid = m.gid
  · have ht : l.tid ≠ m.tid := fun ht => hm (by rw [hg, ht])
    refine .inr ⟨m.lendIn s l.tid y, by rw [State.thread?_lend hu, if_pos hg, hy]; rfl, htid, ?_⟩
    rw [Lane.strand?_lendIn, hst, htid, hg]
    simp [ht]
  · exact .inl ⟨y, by rw [State.thread?_lend hu, if_neg hg, hy], htid, hst⟩

/-- Once offered and claimed, a strand stays as it is while the rest of its bundle lends. -/
theorem foldl_lend_settled (lanes : List Lane) (hl : ∀ m ∈ lanes, (m.gid, m.tid) ≠ (l.gid, l.tid))
    (h : u.hasStrand l (s.claim l.gid l.t.tid st)) : (lanes.foldl State.lend u).hasStrand l (s.claim l.gid l.t.tid st) := by
  induction lanes generalizing u with
  | nil => exact h
  | cons m lanes ih =>
    refine ih (State.lend_keeps hu) (fun x hx => hl x (.tail _ hx)) ?_
    rcases State.hasStrand_lend_other hu (hl m (.head _)) h with h | h
    · exact h
    · rwa [State.claim_claim] at h

/-- A bundle's fold offers and claims the strand of each of its threads. -/
theorem foldl_lend_strand (lanes : List Lane) (hnodup : (lanes.map fun l => (l.gid, l.tid)).Nodup) (hl : l ∈ lanes) (h : u.hasStrand l st) :
    (lanes.foldl State.lend u).hasStrand l (s.claim l.gid l.t.tid (l.offer s st)) := by
  induction lanes generalizing u st with
  | nil => cases hl
  | cons m lanes ih =>
    obtain ⟨hm, hnodup⟩ := List.nodup_cons.1 hnodup
    rcases List.mem_cons.1 hl with rfl | hl
    · exact foldl_lend_settled (State.lend_keeps hu) lanes (fun x hx he => hm (List.mem_map.2 ⟨x, hx, he⟩)) (State.hasStrand_lend_self hu h)
    · have hne : (m.gid, m.tid) ≠ (l.gid, l.tid) := fun he => hm (List.mem_map.2 ⟨l, hl, he.symm⟩)
      rcases State.hasStrand_lend_other hu hne h with h | h
      · exact ih (State.lend_keeps hu) hnodup hl h
      · obtain ⟨own, hclaim⟩ := s.claim_eq l.gid l.t.tid st
        rw [hclaim] at h
        have hoffered := ih (State.lend_keeps hu) hnodup hl h
        exact hoffered

theorem foldl_lend_lends (lanes : List Lane) {g : GroupId} {tid : Nat} {x : Thread} (h : u.thread? g tid = some x) :
    ∃ y, (lanes.foldl State.lend u).thread? g tid = some y ∧ x.Lends y := by
  induction lanes generalizing u x with
  | nil => exact ⟨x, h, .refl x⟩
  | cons m lanes ih =>
    have hthread := State.thread?_lend hu m g tid
    rw [h] at hthread
    by_cases hg : g = m.gid
    · rw [if_pos hg] at hthread
      obtain ⟨y, hy, hlends⟩ := ih (State.lend_keeps hu) hthread
      exact ⟨y, hy, (m.lends_lendIn s tid x).trans hlends⟩
    · rw [if_neg hg] at hthread
      exact ih (State.lend_keeps hu) hthread

end

theorem State.claim_offer (s : State) (g : GroupId) (tid : Nat) (l : Lane) (st : Strand) :
    s.claim g tid (l.offer s st) = { st with
      own := match s.claimant? g tid st.n with | some c => .claimed c.id | none => .offered
      lent := s.unsettled l.gid l.tid l.st.know l.st.after } := by
  simp only [State.claim, Lane.offer, beq_self_eq_true, if_true]
  cases s.claimant? g tid st.n <;> rfl

/-- `lend` offers each thread's accumulator, or gives it to the command that waits for it: the clause of O5. -/
theorem lend_offers {w : BitVec 3} {fm : Form} {s : State} (hf : (Instr.lend w).form = some fm) (h : s.issues fm = true) :
    ∃ t, exec (.lend w) s = .next t ∧ onlyWork s t false ∧
      (strandsBecome s t fm fun l => { l.stepped (now s) fm with
        own := match s.claimant? l.gid l.t.tid l.st.n with | some c => .claimed c.id | none => .offered
        lent := s.unsettled l.gid l.tid l.st.know l.st.after }) ∧
      ∀ g tid th, s.thread? g tid = some th → ∃ y, t.thread? g tid = some y ∧ th.Lends y := by
  obtain ⟨hread, hdq, he⟩ := exec_lend w hf s
  obtain ⟨u, hu, hi, hissued, hothers⟩ := State.issueWith_ok noCause (fun _ lanes u => lanes.foldl State.lend u) h fun _ _ => rfl
  rw [hdq] at hi
  obtain ⟨hkeeps, -⟩ := hi.onlyWork
  rw [hu] at he
  refine ⟨_, he, (hi.trans (.foldl State.Issued.lend u _)).onlyWork, fun l hl => ?_, fun g tid th hth => ?_⟩
  · obtain ⟨-, -, hst, -⟩ := State.ready_spec hl
    obtain ⟨htid, -⟩ := l.sameBut_issuedThread (now s) fm
    obtain ⟨y, hy, -, hstrand⟩ := foldl_lend_strand hkeeps (s.ready fm) (State.ready_nodup (State.issues_members h)) hl
      ⟨_, hissued l hl, htid, Lane.issuedThread_strand? hst _ fm⟩
    rw [State.claim_offer] at hstrand
    rw [State.strand?, hy]
    exact hstrand
  · by_cases hin : s.inBundle fm g tid
    · obtain ⟨l, hl, hkey⟩ := hin
      cases hkey
      obtain ⟨-, ht, hst, -⟩ := State.ready_spec hl
      obtain rfl : l.t = th := Option.some.inj (ht.symm.trans hth)
      obtain ⟨y, hy, hlends⟩ := foldl_lend_lends hkeeps (s.ready fm) (hissued l hl)
      exact ⟨y, hy, (Lane.lends_issuedThread hst _ hread).trans hlends⟩
    · have hkept : u.thread? g tid = s.thread? g tid := hothers g tid fun l hl hkey => hin ⟨l, hl, hkey⟩
      exact foldl_lend_lends hkeeps (s.ready fm) (hkept.trans hth)

end Sys2Proof.Machine
end

section
/-! PROOFS. `sread`: O5, which fails for a launch that replays a log without CAPTURE. What holds of `sread` is proved first, then the
counterexample. -/

namespace Sys2Proof.Machine
open Sys2Proof.Claims

/-- Where no thread has a cause, an act runs after the issue of R114. -/
theorem State.issueWith_act {s : State} {fm : Form} {cause : Lane → Option Cause} (act : Nat → List Lane → State → State)
    (h : s.issues fm = true) (hc : ∀ l ∈ s.ready fm, cause l = none) :
    s.issueWith fm cause act = act (Claims.now s) (s.ready fm) (s.issueWith fm cause fun _ _ u => u) := by
  obtain ⟨hne, hlegal, hdq, hcheck⟩ := State.issues_spec h
  have hwhy : ∀ l ∈ s.ready fm, ((checkCause fm.use l).orElse fun _ => cause l) = none := fun l hl => by rw [hcheck l hl, hc l hl]; rfl
  have hrefuse := State.refuseAll_none s hwhy
  have hgo : (s.ready fm).filter (fun l => ((checkCause fm.use l).orElse fun _ => cause l).isNone) = s.ready fm :=
    List.filter_eq_self.2 fun x hx => by rw [hwhy x hx]; rfl
  unfold State.issueWith
  generalize s.ready fm = lanes at *
  match lanes with
  | [] => exact absurd rfl hne
  | l :: rest =>
    dsimp only
    rw [if_neg (Bool.eq_false_iff.1 (hlegal l (.head _))), if_neg (Bool.eq_false_iff.1 hdq), if_neg (Bool.eq_false_iff.1 (hlegal l (.head _))),
      if_neg (Bool.eq_false_iff.1 hdq), hrefuse, hgo]
    rfl

/-- Acts that agree on every state that the issue may leave answer the same. -/
theorem State.issueWith_congr {s : State} {fm : Form} {cause : Lane → Option Cause} {act act' : Nat → List Lane → State → State}
    (h : s.issues fm = true) (hc : ∀ l ∈ s.ready fm, cause l = none)
    (hact : ∀ u, s.Issued u fm.use.dq → act (Claims.now s) (s.ready fm) u = act' (Claims.now s) (s.ready fm) u) :
    s.issueWith fm cause act = s.issueWith fm cause act' := by
  obtain ⟨u, hu, hi, -⟩ := State.issueWith_ok cause (fun _ _ u => u) h hc
  rw [State.issueWith_act act h hc, State.issueWith_act act' h hc, hu]
  exact hact u hi

/-! ## Special registers (R183) -/

/-- The result of `sread` for one thread, for the value that it has read. -/
def Lane.sreadPend (l : Lane) (c : Nat) (d x : BitVec 5) (v : Nat) : Pend :=
  inFlight l (c + 4) ((d.toNat, BitVec.ofNat 32 v) ::
    if x.toNat = 14 ∨ x.toNat = 15 ∨ x.toNat = 18 then [(d.toNat + 1, BitVec.ofNat 32 (v / 2 ^ 32))] else []) {}

/-- The value of special register `x` that a thread gets: a non-deterministic one passes its launch's logs (R397, R398). -/
def State.sreadValue (s : State) (l : Lane) (x : Nat) : Nat × State :=
  if nondeterministic x then
    s.readValue l.gid.launch { col := l.gid.col, stage := l.gid.stage, tid := l.tid, strand := l.st.n } x (s.specialReg l x)
  else (s.specialReg l x, s)

theorem exec_sread (w : BitVec 3) (d x : BitVec 5) {fm : Form} (hf : (Instr.sread w d x).form = some fm) (s : State) :
    exec (.sread w d x) s = .next (s.issueWith fm noCause fun c lanes u =>
      lanes.foldl (fun u l => (u.sreadValue l x.toNat).2.pushPend l (l.sreadPend c d x (u.sreadValue l x.toNat).1)) u) := by
  cases hf
  change execSread w d x s = _
  unfold execSread
  congr 2
  funext c lanes u
  congr 1
  funext u l
  have hwide : isWide x.toNat = true ↔ x.toNat = 14 ∨ x.toNat = 15 ∨ x.toNat = 18 := by simp [isWide, or_assoc]
  simp only [State.sreadValue, Lane.sreadPend, hwide]
  by_cases hx : x.toNat = 14 ∨ x.toNat = 15 ∨ x.toNat = 18
  · simp only [hx, if_true]
    split <;> rfl
  · simp only [hx, if_false]
    split <;> rfl

/-- The launch of each thread of a bundle neither captures nor replays a log. -/
def State.unlogged (s : State) (lanes : List Lane) : Prop :=
  ∀ l ∈ lanes, uncaptured s l.gid.launch ∧ ∀ k, s.launch? l.gid.launch = some k → k.replay = none

/-- Without logs the threads of a bundle get the live values, as they stood before the issue. -/
theorem foldl_sread {s : State} (d x : BitVec 5) (c : Nat) (lanes : List Lane) (h : s.unlogged lanes) {u : State}
    (hu : u = { s with groups := u.groups, cores := u.cores }) :
    lanes.foldl (fun u l => (u.sreadValue l x.toNat).2.pushPend l (l.sreadPend c d x (u.sreadValue l x.toNat).1)) u =
      lanes.foldl (fun u l => u.pushPend l (l.sreadPend c d x (s.specialReg l x.toNat))) u := by
  induction lanes generalizing u with
  | nil => rfl
  | cons l lanes ih =>
    obtain ⟨hcapture, hreplay⟩ := h l (.head _)
    have hlaunch : ∀ n, u.launch? n = s.launch? n := fun n => by rw [hu]; rfl
    have hlive : u.specialReg l x.toNat = s.specialReg l x.toNat := by rw [hu]; rfl
    have hvalue : u.sreadValue l x.toNat = (s.specialReg l x.toNat, u) := by
      unfold State.sreadValue
      rw [State.readValue_live (fun k hk => hcapture k (hlaunch _ ▸ hk)) (fun k hk => hreplay k (hlaunch _ ▸ hk)), ite_self, hlive]
    rw [List.foldl_cons, List.foldl_cons, hvalue]
    refine ih (fun m hm => h m (.tail _ hm)) ?_
    rw [hu]
    rfl

/-- `sread` in launches without logs: the clause of O5, with the hypothesis that it lacks. -/
theorem sread_live {w : BitVec 3} {d x : BitVec 5} {fm : Form} {s : State} (hf : (Instr.sread w d x).form = some fm)
    (h : s.issues fm = true) (hlogs : s.unlogged (s.ready fm)) :
    ∃ t, exec (.sread w d x) s = .next t ∧ onlyStrands s t fm ∧
      strandsBecome s t fm fun l => withResult l (now s) fm (l.sreadPend (now s) d x (s.specialReg l x.toNat)) := by
  have hlive : exec (.sread w d x) s = .next (s.issueWith fm noCause fun c lanes u =>
      lanes.foldl (fun u l => u.pushPend l (l.sreadPend c d x (s.specialReg l x.toNat))) u) := by
    rw [exec_sread w d x hf]
    exact congrArg _ (State.issueWith_congr h (fun _ _ => rfl) fun u hu => foldl_sread d x _ _ hlogs hu.onlyWork.1)
  refine ⟨_, hlive, State.issueWith_onlyStrands h (fun _ _ => rfl) fun u => .foldl_ready (fun u l _ hp => ?_) u,
    State.issueWith_pushes noCause (fun c _ l => l.sreadPend c d x (s.specialReg l x.toNat)) h fun _ _ => rfl⟩
  exact .pushPend u l hp _

/-! ## A launch that replays a log without CAPTURE -/

/-- The thread of `rerunTurn` as a bundle. -/
def rerunBundle : State := { rerunTurn with cur := some (.bundle 0 0 0 [((probeGroup 0).id, 0)]) }

/-- RDIVERGE of each launch, where an instruction answers a state. -/
def divergence : Out → List Bool
  | .next t => t.launches.map Launch.rDiverge
  | _ => []

/-- There `sread` of CORE finds no entry in the log, and marks the launch (R398). -/
theorem divergence_sread_core : divergence (exec (.sread 0 0 12) rerunBundle) = [true] := by decide +kernel

/-- Refutes O5: its clause about `sread` asks that the launches of the bundle do not capture, but not that they replay no log. Where one
replays a log that has no entry for the register, a non-deterministic read sets RDIVERGE of the launch (R398), so that more than the strands
changes. No block is accepted as such a launch (`State.replayOf`), but the statement is about every state. `sread_live` is the clause for
launches that replay none, and `lend_offers` the clause about `lend`. -/
theorem not_specialReadsAndLends : ¬ Obligations.SpecialReadsAndLends := by
  unfold Obligations.SpecialReadsAndLends
  intro h
  obtain ⟨hread, -⟩ := h
  obtain ⟨t, he, ⟨⟨hs, -⟩, -⟩, -⟩ := hread 0 0 12 _ rerunBundle rfl (by decide +kernel) fun l _ k hk => by
    obtain rfl : k = rerunWithoutCapture := List.mem_singleton.1 (List.mem_of_find?_eq_some hk)
    decide +kernel
  have hkept : t.launches = rerunBundle.launches := by rw [hs]
  have hmarked : t.launches.map Launch.rDiverge = [true] := by
    have hdiverge := divergence_sread_core
    rw [he] at hdiverge
    exact hdiverge
  rw [hkept] at hmarked
  exact absurd hmarked (by decide +kernel)

end Sys2Proof.Machine
end
